-- ==== Sys2Proof/Word.lean ====
section
/-! DEFINITION. The words of the machine: a register is 32 bits (R1), memories hold bytes, and a register field is a run of bits. -/
namespace Sys2Proof

/-- A register value (R1). -/
abbrev Word := BitVec 32
abbrev Byte := BitVec 8

/-- A bit field `[lsb + width - 1 : lsb]` of a register (section 6.2 of chapter 0). -/
structure Fld where
  lsb : Nat
  width : Nat
  deriving DecidableEq, Repr

/-- The access codes of Table 0-6. -/
inductive Acc
  | rw | ro | wo | w1c | w1s | rws | rwg
  deriving DecidableEq, Repr

/-- One row of a register table: place, access code, reset value, and whether chip reset keeps the field. -/
structure FieldD where
  fld : Fld
  acc : Acc
  reset : Nat
  kept : Bool
  deriving DecidableEq, Repr

/-- One register of a register map: first offset, the (stride, count) of each instance index, its fields. -/
structure RegD where
  base : Nat
  dims : List (Nat × Nat)
  fields : List FieldD
  deriving DecidableEq, Repr

/-- The access paths to the registers: PCI Express and the service SPI. -/
inductive Path
  | pcie | spi
  deriving DecidableEq, Repr

/-- The memory BARs whose writes are 32-bit or 64-bit words: BAR0 the registers, BAR4 the MSI-X table (R112, R119). -/
inductive Bar
  | bar0 | bar4
  deriving DecidableEq, Repr

/-- A memory error that a reader meets: in its source (`mem` 0: stripe store, 1: line buffer, 2: weight store) at address `addr`; `word` is the
address, in the stripe store or the weight store, of the 64-bit word that the error spoils. -/
structure EccErr where
  mem : Nat
  addr : Nat
  word : Nat
  double : Bool
  deriving DecidableEq, Repr

/-- A data word of a service SPI READ frame, as the outside fixes it (R118, R132): its access completed before the word started shifting, and
the memory has an uncorrectable error there. -/
structure SpiWord where
  inTime : Bool
  ecc : Bool
  deriving DecidableEq, Repr

/-- DFE taps h_1 to h_5 and the amplitude reference A (R291). -/
structure Taps where
  h1 : Int
  h2 : Int
  h3 : Int
  h4 : Int
  h5 : Int
  amp : Int
  deriving DecidableEq, Repr

/-- Quotient rounded up. -/
def ceilDiv (a b : Nat) : Nat := if b = 0 then 0 else (a + b - 1) / b

/-- Signed reading of a word of `w` bits. -/
def signed (w v : Nat) : Int :=
  if v % 2 ^ w < 2 ^ (w - 1) then ((v % 2 ^ w : Nat) : Int) else ((v % 2 ^ w : Nat) : Int) - ((2 ^ w : Nat) : Int)

/-- The `w`-bit pattern of an integer. -/
def unsigned (w : Nat) (v : Int) : Nat := (v % ((2 ^ w : Nat) : Int)).toNat

end Sys2Proof
end

