-- ==== Sys2Proof/Syntax.lean ====
section
/-! DEFINITION. The commands of the block: one constructor per row of `spec/opcode_table.json`, in the table's order. An operand is what
the row's event does not fix by itself: the access path and the value of a register access, the instance a row names in general, the
timestamp `t` of the SCLK cycle in which the event falls, and what the outside world supplies (pin levels, what a head or a node sends,
what the flash or a self-test answers). -/
namespace Sys2Proof

inductive Instr
  /-- R10: A write to a register that has no row of its own; each field applies it under its own access code, and refused fields keep their values. -/
  | registerWrite (p : Path) (bar : Bar) (off : Nat) (size : Nat) (val : BitVec 64)
  /-- R4: A read of the low word of a 64-bit pair copies the high word into that path's latch. -/
  | pairLowRead (p : Path) (off : Nat)
  /-- R4: A read of the high word of a 64-bit pair returns the path's latch. -/
  | pairHighRead (p : Path) (off : Nat)
  /-- R5: A write of the low word of a writable 64-bit pair fills the path's shadow and refuses nothing. -/
  | pairLowWrite (p : Path) (off : Nat) (val : Word)
  /-- R5: A write of the high word applies the shadowed low word with it, or the high word alone when the shadow is empty. -/
  | pairHighWrite (p : Path) (off : Nat) (val : Word)
  /-- R23: START written to SYS_FNn_CMD takes a STOPPED function to IDLE and begins bring-up, and is ignored in any other state. -/
  | start (p : Path) (n : Fin 8)
  /-- R23: STOP written to SYS_FNn_CMD takes a function to STOPPED or DRAINING as Table 1-5 gives. -/
  | stop (p : Path) (n : Fin 8)
  /-- R25: ABORT written to SYS_FNn_CMD stops a function at once and closes its open transits DEGRADED. -/
  | abort (p : Path) (n : Fin 8)
  /-- R30: Every bring-up check of an IDLE function passes and the function enters ARMED. -/
  | bringupComplete (n : Fin 8) (t : Nat)
  /-- R30: The bring-up limit expires with conditions unmet, and the function returns to STOPPED with START_FAIL set. -/
  | bringupTimeout (n : Fin 8) (t : Nat)
  /-- R26: The drain limit of a DRAINING function expires, and its remaining transits are closed as for ABORT. -/
  | drainTimeout (n : Fin 8) (t : Nat)
  /-- R148: A field-to-host beat is delivered to Nahar, checked, and its fields applied. -/
  | fieldToHostBeat (idx : Nat) (mask : BitVec 64) (miri : BitVec 12)
  /-- R148: A host-to-field beat is delivered to Jens, checked, and its fields applied. -/
  | hostToFieldBeat (idx : Nat) (mask : BitVec 64)
  /-- R347: The bracketing position sample arrives and the transit's leading-edge position is fixed by interpolation. -/
  | lepFix (n : Fin 8) (slot : Fin 16) (t : Nat)
  /-- R352: A transit closes once capture, result, verdict and CLOSE_POS conditions all hold, and its slot is freed. -/
  | transitClose (n : Fin 8) (slot : Fin 16) (t : Nat)
  /-- R383: The scheduler dispatches the earliest ready stripe job to a free engine or the PST. -/
  | jobDispatch (u : Fin 3) (t : Nat)
  /-- R390: A stripe job completes, writing its output rows and releasing input stripes. -/
  | jobComplete (u : Fin 3) (stall : Nat) (errs : List EccErr)
  /-- R405: Every summary of a transit's result is complete, 64 cycles after its last job. -/
  | resultExists (n : Fin 8) (slot : Fin 16) (t : Nat)
  /-- R409: The verdict table evaluates a transit's result and the verdict comes into existence with its code, issue and slack. -/
  | verdictExists (n : Fin 8)
  /-- R48: VH rises above 2.60 V and the boot sequence begins. -/
  | vhPowerOn
  /-- R48: VH falls below 2.50 V and chip reset is asserted. -/
  | vhBrownOut
  /-- R49: VH falls below 1.60 V and the device enters OFF, losing its retained domain. -/
  | vhPowerLoss
  /-- R50: Every Nahar rail reports power good. -/
  | railsPowerGood (refsel : Bool) (lead : Bool) (refclk : Bool)
  /-- R42: The SCLK PLL reaches lock and SCLK runs. -/
  | pllLock
  /-- R42: The PLL loses lock with REFCLK present, raising fault source 0. -/
  | pllLockLoss (t : Nat)
  /-- R43: The REFCLK monitor declares loss, restarting boot before level 1 or forcing the safe state from level 1 onwards. -/
  | refclkLoss (sclkRuns : Bool) (t : Nat)
  /-- R43: The SCLK monitor declares loss, with the same effect as a REFCLK loss. -/
  | sclkLoss (t : Nat)
  /-- R527: REFCLK returns in the safe state, the PLL relocks and the timestamp and watchdog advance again. -/
  | refclkReturn
  /-- R50: A Nahar rail leaves its window, restarting boot before level 1 or forcing the safe state afterwards. -/
  | railOutOfWindow (t : Nat)
  /-- R528: VH is sampled at each 1 ms timestamp and fault source 3 is evaluated. -/
  | vhSample (mv : Nat) (t : Nat)
  /-- R528: The junction temperature is sampled at each 100 µs timestamp and fault sources 1 and 2 are evaluated. -/
  | tempSample (c : Int) (t : Nat)
  /-- R528: Jens samples VF every 10 ms and Nahar copies it while Horizon is trained. -/
  | vfSample (mv : Nat) (t : Nat)
  /-- R52: PWR_CMD = SLEEP enters SLEEP when every function is STOPPED or UNDEFINED, and is refused otherwise. -/
  | pwrSleep (p : Path)
  /-- R52: PWR_CMD = PARK starts the PARK entry sequence when every function is stopped, and is refused otherwise. -/
  | pwrPark (p : Path)
  /-- R52: PWR_CMD = WAKE is a wake source that ends SLEEP or PARK. -/
  | pwrWake (p : Path)
  /-- R55: Block clocks are ungated in order and the device returns to RUN within 10 µs of a wake. -/
  | sleepExitComplete (t : Nat)
  /-- R467: One millisecond after PARK is accepted, the full self-test starts. -/
  | parkSelftestStart (t : Nat)
  /-- R153: 10 µs after the record is written, SCLK switches to bypass, rails switch off and Horizon enters keep-alive. -/
  | parkEntryComplete (t : Nat)
  /-- R57: A wake during PARK entry ends it at the next slice boundary, writes the record and returns to RUN. -/
  | parkEntryAborted (ok : Bool) (t : Nat)
  /-- R59: The PARK exit sequence completes and the device returns to RUN with its state retained. -/
  | parkExitComplete (bad : List (Fin 17)) (t : Nat)
  /-- R62: RESET_N held low for at least 1 µs starts a chip reset. -/
  | resetPin (t : Nat)
  /-- R60: Writing 0x2640_C0DE to SYS_RESET_CMD starts a chip reset; any other value is logged. -/
  | sysResetCmd (p : Path) (val : Word)
  /-- R62: 10 µs after every reset source has released, the chip reset ends and boot continues. -/
  | chipResetEnd
  /-- R63: VF reaches power good, Jens resets every field register and drives fail-safe levels. -/
  | vfPowerOn
  /-- R51: VF falls below 2.50 V, and the predrivers are held off by pull-down. -/
  | vfPowerLoss
  /-- R110: PERST_N is asserted, resetting the endpoint and ending the PCI Express load session. -/
  | perstAssert (t : Nat)
  /-- R109: PERST_N is deasserted, arming the start of link training. -/
  | perstDeassert
  /-- R109: Link training starts 1 ms after the later of directory read and PERST_N deassertion. -/
  | pcieLinkTrainStart (t : Nat)
  /-- R109: The Data Link Layer comes up. -/
  | pcieLinkUp (speed : Nat) (width : Nat) (t : Nat)
  /-- R122: The Data Link Layer goes down, a surprise removal when Bus Master Enable is 1. -/
  | pcieLinkDown (t : Nat)
  /-- R110: A hot reset resets the configuration space and is a host-loss event with Bus Master Enable set. -/
  | pcieHotReset (t : Nat)
  /-- R122: The link is disabled, a host-loss event with Bus Master Enable set. -/
  | pcieLinkDisable (t : Nat)
  /-- R110: A function-level reset resets the configuration space and is a host-loss event with Bus Master Enable set. -/
  | pcieFlr (t : Nat)
  /-- R122: Bus Master Enable written to 0 is a host-loss event. -/
  | pcieBmeClear (t : Nat)
  /-- R122: Entry into D3hot is a host-loss event with Bus Master Enable set. -/
  | pcieD3hotEntry (t : Nat)
  /-- R110: A transition from D3hot to D0 returns the configuration space and MSI-X table to reset values. -/
  | pcieD0Entry
  /-- R121: A poisoned write request has no effect, is logged and reported through AER. -/
  | pciePoisonedWrite (space : Fin 3) (off : Nat) (be : Fin 16)
  /-- R121: A request outside every BAR, an I/O request or a request in D3hot is completed as Unsupported Request. -/
  | pcieUnsupportedRequest
  /-- R435: MSI-X Enable, Bus Master Enable or the Function Mask changes so that pending vectors become sendable and are sent in ascending order. -/
  | msixEnable (enable : Bool) (fmask : Bool) (master : Bool)
  /-- R126: Writing PCX_HOSTLOSS_CTRL.RELEASE clears ACTIVE and FIELD_HELD. -/
  | hostlossRelease (p : Path) (val : Word)
  /-- R120: Writing CLEAR to an access-error log clears its count, event bit and entries. -/
  | aelClear (p : Path) (target : Path) (val : Word)
  /-- R94: OPEN written to CHT_CMD opens a load session for the writing path. -/
  | chtOpen (p : Path)
  /-- R94: CLOSE written to CHT_CMD ends the load session. -/
  | chtClose (p : Path)
  /-- R97: COMMIT written to CHT_CMD is accepted or refused at once, and an accepted COMMIT starts checking the image. -/
  | chtCommit (p : Path) (scope : Byte)
  /-- R100: An accepted COMMIT finishes its stages and build, succeeding or failing with a result code. -/
  | commitComplete (ecc : Option (Nat × Nat)) (t : Nat)
  /-- R95: A write of CHT_DATA stores a word at CHT_ADDR, subject to session and protection checks, and advances CHT_ADDR. -/
  | chtDataWrite (p : Path) (val : Word)
  /-- R96: A read of CHT_DATA returns the word at CHT_ADDR and advances CHT_ADDR by 4. -/
  | chtDataRead (p : Path)
  /-- R117: A BAR2 write to on-chip memory is performed or refused according to the memory and its protection. -/
  | bar2Write (p : Path) (off : Nat) (data : List (Option Byte))
  /-- R117: A BAR2 read of on-chip memory returns data, 0 or a poisoned completion. -/
  | bar2Read (p : Path) (off : Nat) (n : Nat) (ecc : Option Nat)
  /-- R88: The SHA-256 check of a weight region completes during bring-up, passing or ending bring-up with WEIGHTS. -/
  | weightHashDone (w : Fin 16) (t : Nat)
  /-- R137: The boot SPI master finishes reading the flash directory and the Chart slot headers. -/
  | bootDirectoryRead (t : Nat)
  /-- R137: WIP stays set for 100 ms at boot, so no Chart is loaded. -/
  | bootFlashTimeout (t : Nat)
  /-- R137: The boot SPI master finishes copying the Chart into the store and the boot COMMIT starts. -/
  | bootChartRead (t : Nat)
  /-- R305: Offset calibration of a lane completes, passing or setting CAL_FAIL. -/
  | offsetCalDone (x : Fin 13) (pass : Bool) (t : Nat)
  /-- R131: A service SPI WRITE frame queues its complete data words in the write FIFO. -/
  | spiWrite (addr : Word) (words : List Word)
  /-- R132: A service SPI READ frame reads ADDR and continuation words and shifts them out. -/
  | spiRead (addr : Word) (first : SpiWord) (rest : List SpiWord)
  /-- R132: A READ that was not done in time completes and its result becomes available through RESULT. -/
  | spiReadComplete
  /-- R130: A service SPI RESULT frame returns the RSTAT and data of the last READ's first word. -/
  | spiResult
  /-- R130: A service SPI STATUS frame returns SSP_STATUS. -/
  | spiStatus
  /-- R130: A service SPI ID frame returns SYS_ID. -/
  | spiId
  /-- R133: An unknown command byte is counted and the rest of the frame ignored. -/
  | spiBadCommand
  /-- R134: SSCS_N rises, discarding and counting any partial word. -/
  | spiFrameEnd (write : Bool) (edges : Nat)
  /-- R131: The oldest word of the service SPI write FIFO is written to its register. -/
  | spiWfifoDrain
  /-- R134: Writing SSP_ERR_CLR clears every SSP_ERR count. -/
  | sspErrClear (p : Path) (val : Word)
  /-- R141: BSP_OP READ copies BSP_LEN flash bytes into BSP_BUF, or is refused. -/
  | bspRead (p : Path)
  /-- R141: BSP_OP ERASE_4K erases a 4 KiB flash sector, or is refused. -/
  | bspErase4k (p : Path)
  /-- R141: BSP_OP PROGRAM writes BSP_BUF into one flash page, or is refused. -/
  | bspProgram (p : Path)
  /-- R142: A host flash operation completes and sets BSP_RESULT and BSP_EVENT.DONE. -/
  | bspOpComplete (t : Nat)
  /-- R142: WIP stays set beyond its limit and the flash operation ends with TIMEOUT. -/
  | bspTimeout (t : Nat)
  /-- R149: A full Horizon training starts at boot step 10 or 10 µs after a loss with AUTO_TRAIN set. -/
  | hzTrainStart (t : Nat)
  /-- R529: Writing HZ_CTRL.RETRAIN starts a full training without counting a loss. -/
  | hzRetrain (p : Path) (val : Word)
  /-- R149: Jens's PLL locks to the beat clock and returns locked training beats. -/
  | hzJensLock (t : Nat)
  /-- R149: Replay completes, Horizon reaches UP and fail-safe is released. -/
  | hzTrainUp (t : Nat)
  /-- R151: A full training has not reached UP within 100 ms of leaving LOCK and fails. -/
  | hzTrainFail (step : Nat) (t : Nat)
  /-- R149: Each 100 ms spent in LOCK sets TRAIN_WAIT. -/
  | hzTrainWait (t : Nat)
  /-- R152: Every 1 ms Nahar measures the round trip and corrects Jens's phase, declaring loss beyond ±1.5 ns. -/
  | hzPhaseMeasure (ps : Int) (code : Nat)
  /-- R154: The short retraining at PARK exit completes, or a full training replaces it. -/
  | hzShortRetrainDone (fail : Option Nat) (t : Nat)
  /-- R187: No beat-clock edge for 1 µs forces Jens's fail-safe levels asynchronously. -/
  | beatLossDetect
  /-- R177: No relay response within 750 ns resends the request once, or fails the transaction. -/
  | relayTimeout
  /-- R183: Every 10 µs while ATTN stays 1, Nahar reads MIR_ATTN and copies it to HZ_FIELD_ATTN. -/
  | attnPoll
  /-- R179: A write in the FX window is checked, updates the shadow and is relayed to Jens. -/
  | fxWrite (p : Path) (addr : Nat) (val : Word)
  /-- R177: A read in the FX window is relayed to Jens, or returns 0xFFFF_FFFF when Horizon is not UP. -/
  | fxRead (p : Path) (addr : Nat)
  /-- R174: Writing HZ_SER_TX pushes one byte into the transmit FIFO, or drops it when full. -/
  | hzSerTxWrite (p : Path) (val : Word)
  /-- R174: Writing HZ_SER_TXW pushes four bytes, or refuses all four when fewer are free. -/
  | hzSerTxwWrite (p : Path) (val : Word)
  /-- R174: Reading HZ_SER_RX pops the oldest received byte. -/
  | hzSerRxRead (p : Path)
  /-- R174: Reading HZ_SER_RXW pops four bytes when at least four are present. -/
  | hzSerRxwRead (p : Path)
  /-- R177: Writing HZ_CNT_CLR clears the Horizon counts. -/
  | hzCntClear (p : Path) (val : Word)
  /-- R192: A filtered quadrature state change counts forward or backward, or raises QUAD_ERR. -/
  | pfiQuadEdge (c : Fin 4) (a : Bool) (b : Bool) (z : Bool) (t : Nat)
  /-- R194: A tone-wheel tooth edge is classified and counted, possibly closing a gap as a reference event. -/
  | pfiToothEdge (c : Fin 4) (t : Nat)
  /-- R198: No count for 2^24 cycles sets STANDSTILL and forgets the period. -/
  | pfiStandstill (c : Fin 4) (t : Nat)
  /-- R203: Writing PFIc_ERR_CLR clears the channel's error counts. -/
  | pfiErrClear (p : Path) (c : Fin 4) (val : Word)
  /-- R207: Every 1 µs the emulator recomputes its rate under SLEW and ACCEL. -/
  | emuRateUpdate (e : Fin 2) (t : Nat)
  /-- R208: The phase accumulator overflows and one output count is emitted unless it would pass the target. -/
  | emuCountEmit (e : Fin 2) (t : Nat)
  /-- R212: Writing EMUe_CTRL.RESYNC drops the whole counts of the lag. -/
  | emuResync (p : Path) (e : Fin 2) (val : Word)
  /-- R206: A write of N or M that takes effect sets the accumulator to 0 and keeps T and O. -/
  | emuRatioWrite (p : Path) (e : Fin 2) (val : Word)
  /-- R218: The count reaches a scheduled fire position and the GLS enters PEAK or DEFERRED. -/
  | gateFireDue (j : Fin 8) (t : Nat)
  /-- R216: The peak time expires and the GLS enters HOLD or IDLE, releasing any deferred partner firing. -/
  | gatePeakEnd (j : Fin 8) (t : Nat)
  /-- R220: The hold time expires and the GLS returns to IDLE. -/
  | gateHoldEnd (j : Fin 8) (t : Nat)
  /-- R223: Writing GATE_FLUSH discards every pending and deferred firing of the named GLS. -/
  | gateFlush (p : Path) (val : Word)
  /-- R230: ISNS stays above its threshold for 1 µs, so the pair is switched off and latched off. -/
  | overcurrent (k : Fin 4) (t : Nat)
  /-- R231: Writing OC_CLEAR releases the overcurrent latch if the current is below the threshold. -/
  | ocClear (p : Path) (k : Fin 4) (val : Word) (below : Bool)
  /-- R234: A master frame starts once enough bytes are queued and room exists. -/
  | fspMasterFrameStart
  /-- R235: A master word completes, pushing its received byte and starting the next word if possible. -/
  | fspMasterWord (rx : Byte)
  /-- R234: Under zero-length framing, FSCS_N rises after CS_GAP word times without a byte. -/
  | fspCsGapTimeout
  /-- R236: FSCS_N falls in slave role and the first outgoing byte is chosen. -/
  | fspSlaveSelect
  /-- R237: A slave word completes and its byte is pushed into the transmit FIFO. -/
  | fspSlaveWord (rx : Byte)
  /-- R238: FSCS_N rises in slave role, counting a frame and discarding a partial word. -/
  | fspSlaveDeselect (bits : Fin 8)
  /-- R238: Writing FSP_ERR_CLR clears FSP_ERR. -/
  | fspErrClear (p : Path) (val : Word)
  /-- R270: When the line is free, Jens starts the highest-priority pending transaction. -/
  | zlTxnDispatch (l : Fin 2) (slots : List (Bool × Bool)) (scan : BitVec 24)
  /-- R250: A node reply is received and judged good, NAK or bad. -/
  | zlReply (l : Fin 2) (delay : Nat) (periods : List Nat) (lows : List Nat)
  /-- R250: No reply edge arrives in the window, giving NO_REPLY and one repeat. -/
  | zlReplyTimeout (l : Fin 2)
  /-- R264: A low of at least 6 µs on an idle line is an attention that starts a scan. -/
  | zlAttention (l : Fin 2) (collided : Bool) (scan : BitVec 24) (t : Nat)
  /-- R268: Every SUPERVISE_MS a PING is queued to the next BOUND address. -/
  | zlSupervisePing (l : Fin 2)
  /-- R269: Writing ZLl_TXN_CMD.START queues a host transaction or refuses it. -/
  | zlTxnStart (p : Path) (l : Fin 2) (val : Word)
  /-- R262: Writing ZLl_CTRL.DISCOVER requests a full discovery. -/
  | zlDiscover (p : Path) (l : Fin 2) (val : Word)
  /-- R262: Writing ZLl_CTRL.BIND_NEW requests an incremental discovery. -/
  | zlBindNew (p : Path) (l : Fin 2) (val : Word)
  /-- R271: The 2 ms release after a line start ends and a full discovery begins. -/
  | zlStartReleaseEnd (l : Fin 2)
  /-- R272: The line stays low for 1 ms and enters STUCK. -/
  | zlStuck (l : Fin 2)
  /-- R272: A stuck line stays high for 1 ms, and a PING sweep and scan follow. -/
  | zlReleased (l : Fin 2)
  /-- R264: Writing ZLl_ERR_CLR clears ZLl_ERR. -/
  | zlErrClear (p : Path) (l : Fin 2) (val : Word)
  /-- R295: An acquiring or lost RX lane locks its phase. -/
  | lnPhaseLock (x : Fin 17) (t : Nat)
  /-- R295: Acquisition of an RX lane completes and the lane enters ACTIVE or FAULT. -/
  | lnAcqDone (x : Fin 17) (ctle : Nat) (efm : Nat) (taps : Taps) (sat : Bool) (t : Nat)
  /-- R296: Phase lock is not reached within 200 µs and the lane enters FAULT. -/
  | lnAcqNoLock (x : Fin 17) (t : Nat)
  /-- R298: An EFM window ends, accepting or reverting a trial and testing EFM_LOW. -/
  | lnEfmWindowEnd (x : Fin 17) (efm : Nat)
  /-- R297: An adaptation epoch ends and tap changes are proposed. -/
  | lnEpochEnd (x : Fin 17) (acc : Taps)
  /-- R300: An RX lane loses lock, restores its taps and enters LOST. -/
  | lnLockLoss (x : Fin 17) (t : Nat)
  /-- R300: Reacquisition of a relocked lane completes and it enters ACTIVE. -/
  | lnReacqDone (x : Fin 17) (efm : Nat) (taps : Taps) (t : Nat)
  /-- R301: The forwarded clock on RX2 is lost and the port's data lanes lose lock. -/
  | lnClockLoss (q : Fin 4) (t : Nat)
  /-- R303: The TX0 synthesiser holds lock for 16 µs and TX0 enters ACTIVE. -/
  | lnSynLock (x : Fin 17) (t : Nat)
  /-- R304: TX0 has not locked 200 µs after its start and enters FAULT. -/
  | lnSynTimeout (x : Fin 17) (t : Nat)
  /-- R304: TX0 loses lock in service, goes to electrical idle and settles again. -/
  | lnSynLockLoss (x : Fin 16) (t : Nat)
  /-- R306: Writing LNx_CAL.RECAL recalibrates an OFF lane or sets CAL_REFUSED. -/
  | lnRecal (p : Path) (x : Fin 16) (val : Word)
  /-- R306: A requested recalibration completes and the lane returns to OFF. -/
  | lnCalDone (x : Fin 16) (pass : Bool)
  /-- R308: Writing LNx_CNT_CLR clears the lane counts and EFM minimum. -/
  | lnCntClear (p : Path) (x : Fin 16) (val : Word)
  /-- R322: A LINE message is received whole and accepted into the line FIFO or dropped. -/
  | lineMessage (q : Fin 4) (words : List Nat) (cv : List (Fin 3)) (t : Nat)
  /-- R325: A head-control response completes the pending head transaction. -/
  | hcRespMessage (q : Fin 4) (words : List Nat)
  /-- R326: A HEAD_EVENT message is stored and raises CPn_EVENT.HEAD_EVENT. -/
  | headEventMessage (q : Fin 4) (words : List Nat)
  /-- R317: A lane marker is received and checked for sequence, lane and skew. -/
  | laneMarker (q : Fin 4) (r : Fin 3) (m : Option (Nat × Nat)) (skew : Nat) (t : Nat)
  /-- R330: A training block from the head is received and checked during port training. -/
  | trainingBlock (q : Fin 5) (r : Fin 3) (st : Nat) (prec : Bool) (laneId : Nat) (skew : Nat) (ok : Bool)
  /-- R322: LINE_TIMEOUT_US expires with a channel line missing, which is counted. -/
  | lineTimeout (q : Fin 4) (t : Nat)
  /-- R325: CPn_HC_CMD read sends an HC_REQ read to the head. -/
  | hcRead (p : Path) (q : Fin 4)
  /-- R325: CPn_HC_CMD write sends an HC_REQ write to the head. -/
  | hcWrite (p : Path) (q : Fin 4)
  /-- R325: No valid head response in 100 µs repeats the request once or ends it with TIMEOUT. -/
  | hcTimeout (q : Fin 4) (t : Nat)
  /-- R334: Head registers pass the step-7 check and the port becomes READY. -/
  | cpTrainingDone (q : Fin 4) (regs : List Word) (t : Nat)
  /-- R333: A training attempt fails with a cause and the port retries or enters FAULT. -/
  | cpTrainFail (q : Fin 4) (cause : Nat) (detail : Nat) (t : Nat)
  /-- R333: 1 ms after a failed attempt, port training starts again. -/
  | cpTrainRetry (q : Fin 4) (t : Nat)
  /-- R336: No lane has rejoined an OUT port within 20 ms, so training restarts. -/
  | cpRejoinTimeout (q : Fin 4) (t : Nat)
  /-- R338: A READY port enters IN_SERVICE at a transit gap. -/
  | cpPortRejoin (q : Fin 4) (t : Nat)
  /-- R339: CPn_PRES_N stays low for 50 ms and presence is taken. -/
  | cpPresence (q : Fin 4) (t : Nat)
  /-- R339: CPn_PRES_N is high for 10 µs, and the port goes ABSENT and ends open captures. -/
  | cpPresenceLoss (q : Fin 4) (t : Nat)
  /-- R333: Writing CPn_CTRL.RETRAIN restarts training from FAULT. -/
  | cpRetrain (p : Path) (q : Fin 4) (val : Word)
  /-- R340: 20 µs after TX0 relocks, queued triggers are sent with LATE = 1. -/
  | cpTrqRelease (q : Fin 4) (t : Nat)
  /-- R342: Writing CPn_CNT_CLR clears the port counts. -/
  | cpCntClear (p : Path) (q : Fin 4) (val : Word)
  /-- R356: A due line is issued as a TRIGGER in the next free cycle of its port. -/
  | lineTriggerIssue (q : Fin 4) (t : Nat)
  /-- R359: A line timer advances by one count every LINE_PERIOD cycles and may open a transit. -/
  | lineTimerTick (n : Fin 8) (t : Nat)
  /-- R350: Writing ACQ_FNn_CNT_CLR clears the acquisition counts. -/
  | acqCntClear (p : Path) (n : Fin 8) (val : Word)
  /-- R356: Writing LTG_Pp_CNT_CLR clears the trigger counts. -/
  | ltgCntClear (p : Path) (q : Fin 4) (val : Word)
  /-- R366: Writing STS_CNT_CLR clears STS_ECC. -/
  | stsCntClear (p : Path) (val : Word)
  /-- R393: Writing E_CNT_CLR clears an engine's maxima, busy count and ECC counts. -/
  | engineCntClear (p : Path) (u : Fin 2) (val : Word)
  /-- R443: The 256-cycle block reset ends and the block returns to service. -/
  | blockResetEnd (src : Nat)
  /-- R402: Writing PST_CNT_CLR clears PST_CAND and PST_LAST_CYCLES. -/
  | pstCntClear (p : Path) (val : Word)
  /-- R411: Writing VRD_FNn_CNT_CLR clears the verdict counts and MIN_SLACK. -/
  | vrdCntClear (p : Path) (n : Fin 8) (val : Word)
  /-- R411: Writing VRD_HIT_CLR clears the hit counts of the named VERDICT sections. -/
  | vrdHitClear (p : Path) (val : Word)
  /-- R423: Delivery writes an accepted object and its descriptor to host memory when it has space. -/
  | dlvObjectDeliver (t : Nat) (errs : List EccErr)
  /-- R427: BP_LIMIT_US passes without space, the object is dropped and the ring suspended. -/
  | dlvBpTimeout (r : Fin 128) (t : Nat)
  /-- R418: Writing DLV_Rr_CONS gives back consumed descriptors, or sets CONS_ERR. -/
  | dlvConsWrite (p : Path) (r : Fin 128) (val : Word)
  /-- R429: Writing ENABLE from 0 to 1 resets the ring's indexes and starts acceptance. -/
  | dlvEnable (p : Path) (r : Fin 128) (val : Word)
  /-- R429: Writing ENABLE to 0 stops acceptance and discards held objects. -/
  | dlvDisable (p : Path) (r : Fin 128) (val : Word)
  /-- R431: IRQ.TIME_US passes since the oldest unreported descriptor and the completion vector fires. -/
  | dlvIrqTimer (r : Fin 128) (t : Nat)
  /-- R437: Writing DLV_Rr_CNT_CLR clears the ring's saturating counts. -/
  | dlvCntClear (p : Path) (r : Fin 128) (val : Word)
  /-- R433: Writing EVT_MAPs sets the vector, and enabling an asserted source fires it. -/
  | evtMapWrite (p : Path) (src : Fin 256) (val : Word)
  /-- R435: Writing EVT_VMASK masks vectors, and unmasking a pending vector fires it. -/
  | evtVmaskWrite (p : Path) (k : Fin 9) (val : Word)
  /-- R440: A W1C write of FCU_STATUS clears latched bits, possibly deasserting the trap. -/
  | fcuStatusClear (p : Path) (val : Word)
  /-- R452: Writing 0x5AFE_2640 to FCU_SAFE_CMD enters the safe state; any other value is logged. -/
  | fcuSafeCmd (p : Path) (val : Word)
  /-- R449: Writing FCU_DEBUG.HALT = 1 stops job dispatch. -/
  | fcuDebugHalt (p : Path)
  /-- R449: Writing FCU_DEBUG.HALT = 0 resumes dispatch unless the trap holds it. -/
  | fcuDebugResume (p : Path)
  /-- R451: Writing FCU_INJECT.GO raises the named source for one cycle. -/
  | fcuInjectGo (p : Path) (val : Word)
  /-- R451: Writing FCU_INJECT.INTEGRITY inverts a bit of copy B, entering the safe state. -/
  | fcuInjectIntegrity (p : Path) (val : Word)
  /-- R450: A copy mismatch or parity fault in the collector enters the safe state. -/
  | collectorIntegrityFault (copy : Fin 3) (byte : Nat) (bits : Byte) (parity : Bool)
  /-- R440: Writing FCU_CNT_CLR clears every FCU_CNTs. -/
  | fcuCntClear (p : Path) (val : Word)
  /-- R457: Writing WDT_CTRL.ENABLE enables the watchdog and starts its count. -/
  | wdtEnable (p : Path)
  /-- R459: Writing 0x5A to WDT_KEY while idle arms the service sequence. -/
  | wdtKeyArm (p : Path)
  /-- R459: Writing 0xC3 to WDT_KEY while armed serves the watchdog. -/
  | wdtKeyServe (p : Path)
  /-- R459: Any other key write expires the watchdog at once. -/
  | wdtKeyBad (p : Path) (val : Word)
  /-- R460: The watchdog count reaches its timeout, causing a chip reset or a wake. -/
  | wdtExpiry (t : Nat)
  /-- R461: The count reaches the warning point and sets WDT_EVENT.WARN. -/
  | wdtWarn (t : Nat)
  /-- R469: A queued slice starts when the bay is free or the power cap allows. -/
  | bistSliceStart (k : Fin 48) (t : Nat)
  /-- R464: A slice test completes, passing or fencing the slice. -/
  | bistSliceDone (k : Fin 48) (fail : Option (Nat × Nat)) (uncorr : Nat) (bay : Bool) (t : Nat)
  /-- R470: The slice budget expires and the slice stops at its next boundary as UNFINISHED. -/
  | bistBudgetExpiry (k : Fin 48)
  /-- R140: The record write to a boot-flash slot completes or fails its timeouts. -/
  | bistRecordFlashDone (ok : Bool) (t : Nat)
  /-- R477: A quick-test slice exceeds 34 ms and is recorded UNFINISHED. -/
  | bistQuickSliceTimeout (k : Fin 48)
  /-- R478: Writing BIST_RETEST.GO starts a retest of a slice or refuses it. -/
  | bistRetest (p : Path) (val : Word)
  /-- R479: A retest completes and unfences or fences the slice. -/
  | bistRetestDone (fail : Option (Nat × Nat)) (uncorr : Nat) (bay : Bool)
  /-- R490: Writing CAS_CTRL.RELINK starts cascade link-up. -/
  | casRelink (p : Path) (val : Word)
  /-- R490: 100 ms after a failure or loss with AUTO set, link-up starts again. -/
  | casRelinkTimer (t : Nat)
  /-- R488: A follower receives a cascade frame, checks it and forwards it with its status word. -/
  | casFrameReceived (words : List Nat) (rp : Nat) (t : Nat)
  /-- R495: The lead receives its returned frame and measures the ring latency. -/
  | casFrameReturned (words : List Nat) (ring : Nat) (rp0 : Nat) (t : Nat)
  /-- R493: A follower applies a frame's position sample to its cascade replica 600 cycles after the lead's update. -/
  | casSampleApply (c : Fin 4) (t : Nat)
  /-- R497: A follower applies an OPEN or TEP message in its apply cycle. -/
  | casMessageApply (t : Nat)
  /-- R492: Link-up has not reached step 4 or 6 within 50 ms and fails. -/
  | casLinkupTimeout (t : Nat)
  /-- R502: Writing CAS_CNT_CLR clears the cascade counts. -/
  | casCntClear (p : Path) (val : Word)
  /-- R147: No beat arrives at a beat boundary, which counts as a bad beat towards the 8 that make a Horizon loss at either end. -/
  | missingBeat (toJens : Bool) (idx : Nat)
  /-- R229: Jens samples each ISNSk input at 1 MS/s and updates GHSk_ISNS.NOW and PEAK. -/
  | isnsSample (k : Fin 4) (uv : Nat)
  /-- R264: A low on an idle Zhombe line that Jens did not drive and that lasts less than 6 µs is counted in ZLl_ERR.GLITCH. -/
  | zlGlitch (l : Fin 2)
  /-- R319: A received message with a reserved TYPE, or whose length cannot be determined, is counted UNEXPECTED and words up to the next F = 1 group are ignored. -/
  | unexpectedMessage (q : Fin 4)
  /-- R318: A received F = 0 group outside a message that is not 0x0000 is counted as IDLE_ERR and ignored. -/
  | idleErr (q : Fin 4)
  deriving DecidableEq, Repr

end Sys2Proof
end

