-- ==== Sys2Proof/Config.lean ====
section
/-! DEFINITION. What an implementation fixes and the spec leaves open: fused values, and the free values, constants without a body that no
proof can see into. -/
namespace Sys2Proof.Config

/-- SYS_UID, the fused unique device identifier (R4, Table 2-15). DESIGN CHOICE, log entry 1. -/
opaque uid : BitVec 64
/-- The key hash fuse: `none` while it is blank (R92, R93). DESIGN CHOICE, log entry 1. -/
opaque keyHash : Option (BitVec 256)
/-- The enforce fuse (R92, R93). DESIGN CHOICE, log entry 1. -/
opaque enforce : Bool
/-- Byte `a` of memory `m` in its `epoch`-th unwritten life: contents the spec leaves undefined. DESIGN CHOICE, log entry 2. -/
opaque freeByte (m epoch a : Nat) : Byte
/-- The `n`-th free value of a run, `w` bits. DESIGN CHOICE, log entry 3. -/
opaque freeWord (w n : Nat) : BitVec w

/-- Whether the emulator rate `num / den` is taken to the integer above rather than the one below (R207 states no rounding). DESIGN CHOICE, log entry 5. -/
opaque emuRoundUp (num : Int) (den : Nat) : Bool

/-- Whether the ring latency averaged over 64 frames of this sum is shown rounded up. DESIGN CHOICE, log entry 14. -/
opaque ringRoundUp (sum : Nat) : Bool

end Sys2Proof.Config
end

