-- ==== Sys2Proof/Machine/Cells.lean ====
section
/-! DEFINITION. Sparse data by key: a list of (key, value) pairs in one canonical form, strictly rising keys and no entry equal to what an
unlisted key reads as. The register files and every memory are held so. -/
namespace Sys2Proof.Machine

/-- Value at key `a`; an unlisted key reads as `d a`. -/
def cellsGet {α : Type} (d : Nat → α) : List (Nat × α) → Nat → α
  | [], a => d a
  | c :: r, a => if c.1 = a then c.2 else cellsGet d r a

/-- The entry of key `a`, if one is listed. -/
def cellsGet? {α : Type} : List (Nat × α) → Nat → Option α
  | [], _ => none
  | c :: r, a => if c.1 = a then some c.2 else cellsGet? r a

/-- Every entry of key `a` taken out. -/
def cellsErase {α : Type} (m : List (Nat × α)) (a : Nat) : List (Nat × α) :=
  m.filter fun c => c.1 != a

/-- Entry `a` put at its place in rising order. -/
def cellsPut {α : Type} : List (Nat × α) → Nat → α → List (Nat × α)
  | [], a, v => [(a, v)]
  | c :: r, a, v =>
    if a < c.1 then (a, v) :: c :: r
    else if c.1 = a then (a, v) :: r
    else c :: cellsPut r a v

/-- Write: the canonical form is kept, so writing what an unlisted key reads as removes the entry, and writing what a key already reads as
changes nothing. -/
def cellsSet {α : Type} [DecidableEq α] (d : Nat → α) (m : List (Nat × α)) (a : Nat) (v : α) : List (Nat × α) :=
  if cellsGet d m a = v then m else if v = d a then cellsErase m a else cellsPut m a v

/-- Keys strictly rising. -/
def cellsRising {α : Type} : List (Nat × α) → Bool
  | [] => true
  | c :: r => r.all (fun e => decide (c.1 < e.1)) && cellsRising r

/-- The canonical form. -/
def cellsWf {α : Type} [DecidableEq α] (d : Nat → α) (m : List (Nat × α)) : Bool :=
  cellsRising m && m.all fun c => decide (c.2 ≠ d c.1)

end Sys2Proof.Machine
end

