-- ==== Sys2Proof/Machine/Crc.lean ====
section
/-! DEFINITION. The check codes of R73, R319 and R485. -/
namespace Sys2Proof.Machine

/-- One byte of a CRC of `w` bits, polynomial `poly`, most significant bit first. -/
def crcMsb (w poly : Nat) (crc b : Nat) : Nat :=
  (List.range 8).foldl (fun c _ => if c.testBit (w - 1) then (c * 2) % 2 ^ w ^^^ poly else (c * 2) % 2 ^ w) (crc ^^^ b * 2 ^ (w - 8))

/-- R319: polynomial 0x1021, not reflected, initial 0xFFFF, no final XOR. -/
def crc16 (l : List Nat) : Nat := l.foldl (crcMsb 16 0x1021) 0xFFFF

/-- R319: over 16-bit words, each as two bytes with the high byte first. -/
def hcrc (words : List Nat) : Nat := crc16 (words.flatMap fun w => [w / 256 % 256, w % 256])

def crc32Byte (crc b : Nat) : Nat :=
  (List.range 8).foldl (fun c _ => if c.testBit 0 then c / 2 ^^^ 0xEDB88320 else c / 2) (crc ^^^ b)

/-- R73: CRC-32, reflected, initial value and final XOR all ones. -/
def crc32 (l : List Nat) : Nat := l.foldl crc32Byte 0xFFFFFFFF ^^^ 0xFFFFFFFF

end Sys2Proof.Machine
end

