-- ==== Sys2Proof/Machine/RegMap.lean ====
section
/-! DEFINITION. The register map: the offset of every register of the register chapters (BAR0 offsets for Nahar, field addresses for
Jens) and the place of every field, transcribed table by table. An index names one of the instances of a register, so it is taken modulo
their number. -/
namespace Sys2Proof.Machine

namespace Reg

/-! Registers of chapter 2 (`spec/` section file 02). -/
/-- SYS_ID. -/
abbrev SYS_ID : Nat := 0x0
/-- SYS_JENS_ID. -/
abbrev SYS_JENS_ID : Nat := 0x4
/-- SYS_UID_LO. -/
abbrev SYS_UID_LO : Nat := 0x8
/-- SYS_UID_HI. -/
abbrev SYS_UID_HI : Nat := 0xc
/-- SYS_STRAP. -/
abbrev SYS_STRAP : Nat := 0x10
/-- SYS_RESET_CAUSE. -/
abbrev SYS_RESET_CAUSE : Nat := 0x20
/-- SYS_RESET_CMD. -/
abbrev SYS_RESET_CMD : Nat := 0x24
/-- SYS_TS_LO. -/
abbrev SYS_TS_LO : Nat := 0x30
/-- SYS_TS_HI. -/
abbrev SYS_TS_HI : Nat := 0x34
/-- CLK_STATUS. -/
abbrev CLK_STATUS : Nat := 0x100
/-- CLK_EVENT. -/
abbrev CLK_EVENT : Nat := 0x104
/-- PWR_STATE. -/
abbrev PWR_STATE : Nat := 0x200
/-- PWR_CMD. -/
abbrev PWR_CMD : Nat := 0x204
/-- PWR_WAKE_EN. -/
abbrev PWR_WAKE_EN : Nat := 0x208
/-- PWR_WAKE_CAUSE. -/
abbrev PWR_WAKE_CAUSE : Nat := 0x20c
/-- PWR_SUPPLY. -/
abbrev PWR_SUPPLY : Nat := 0x210
/-- PWR_BOOT. -/
abbrev PWR_BOOT : Nat := 0x214
/-- PWR_BOOT_TIME. -/
abbrev PWR_BOOT_TIME : Nat := 0x218

/-! Registers of chapter 1 (`spec/` section file 01). -/
/-- SYS_FNn_CMD. -/
abbrev SYS_FN_CMD (n : Nat) : Nat := 0x400 + 0x10 * (n % 8)
/-- SYS_FNn_STATE. -/
abbrev SYS_FN_STATE (n : Nat) : Nat := 0x404 + 0x10 * (n % 8)
/-- SYS_FNn_CLOSED. -/
abbrev SYS_FN_CLOSED (n : Nat) : Nat := 0x408 + 0x10 * (n % 8)
/-- SYS_FNn_LATE. -/
abbrev SYS_FN_LATE (n : Nat) : Nat := 0x40c + 0x10 * (n % 8)
/-- SYS_SVC. -/
abbrev SYS_SVC : Nat := 0x480
/-- SYS_FN_EVENT. -/
abbrev SYS_FN_EVENT : Nat := 0x484
/-- SYS_SW_ROUTEk. -/
abbrev SYS_SW_ROUTE (n : Nat) : Nat := 0x500 + 0x4 * (n % 32)
/-- SYS_SW_STALLk. -/
abbrev SYS_SW_STALL (n : Nat) : Nat := 0x580 + 0x4 * (n % 9)

/-! Registers of chapter 3 (`spec/` section file 03). -/
/-- CHT_CMD. -/
abbrev CHT_CMD : Nat := 0x10000
/-- CHT_STATUS. -/
abbrev CHT_STATUS : Nat := 0x10004
/-- CHT_RESULT. -/
abbrev CHT_RESULT : Nat := 0x10008
/-- CHT_ERR_OFFSET. -/
abbrev CHT_ERR_OFFSET : Nat := 0x1000c
/-- CHT_ADDR. -/
abbrev CHT_ADDR : Nat := 0x10010
/-- CHT_DATA. -/
abbrev CHT_DATA : Nat := 0x10014
/-- CHT_TAG. -/
abbrev CHT_TAG : Nat := 0x10018
/-- CHT_LENGTH. -/
abbrev CHT_LENGTH : Nat := 0x1001c
/-- CHT_EVENT. -/
abbrev CHT_EVENT : Nat := 0x10020
/-- CHT_COMMIT_TIME. -/
abbrev CHT_COMMIT_TIME : Nat := 0x10024
/-- CHT_WREFi. -/
abbrev CHT_WREF (n : Nat) : Nat := 0x10040 + 0x4 * (n % 16)
/-- CHT_SECTk_ID. -/
abbrev CHT_SECT_ID (n : Nat) : Nat := 0x10100 + 0x10 * (n % 72)
/-- CHT_SECTk_OFFSET. -/
abbrev CHT_SECT_OFFSET (n : Nat) : Nat := 0x10104 + 0x10 * (n % 72)
/-- CHT_SECTk_LENGTH. -/
abbrev CHT_SECT_LENGTH (n : Nat) : Nat := 0x10108 + 0x10 * (n % 72)
/-- CHT_SECTk_CRC. -/
abbrev CHT_SECT_CRC (n : Nat) : Nat := 0x1010c + 0x10 * (n % 72)

/-! Registers of chapter 15 (`spec/` section file 15). -/
/-- FCU_STATUS_LO. -/
abbrev FCU_STATUS_LO : Nat := 0x20000
/-- FCU_STATUS_HI. -/
abbrev FCU_STATUS_HI : Nat := 0x20004
/-- FCU_RAW_LO. -/
abbrev FCU_RAW_LO : Nat := 0x20008
/-- FCU_RAW_HI. -/
abbrev FCU_RAW_HI : Nat := 0x2000c
/-- FCU_FIRST. -/
abbrev FCU_FIRST : Nat := 0x20010
/-- FCU_FIRST_TS_LO. -/
abbrev FCU_FIRST_TS_LO : Nat := 0x20014
/-- FCU_FIRST_TS_HI. -/
abbrev FCU_FIRST_TS_HI : Nat := 0x20018
/-- FCU_TRAP. -/
abbrev FCU_TRAP : Nat := 0x20020
/-- FCU_SAFE_CMD. -/
abbrev FCU_SAFE_CMD : Nat := 0x20024
/-- FCU_DEBUG. -/
abbrev FCU_DEBUG : Nat := 0x20028
/-- FCU_INTEGRITY. -/
abbrev FCU_INTEGRITY : Nat := 0x2002c
/-- FCU_INJECT. -/
abbrev FCU_INJECT : Nat := 0x20030
/-- FCU_THERM. -/
abbrev FCU_THERM : Nat := 0x20034
/-- FCU_CNT_CLR. -/
abbrev FCU_CNT_CLR : Nat := 0x20038
/-- FCU_REACTs. -/
abbrev FCU_REACT (n : Nat) : Nat := 0x20100 + 0x4 * (n % 64)
/-- FCU_CNTs. -/
abbrev FCU_CNT (n : Nat) : Nat := 0x20200 + 0x4 * (n % 64)
/-- WDT_CTRL. -/
abbrev WDT_CTRL : Nat := 0x21000
/-- WDT_TIMEOUT. -/
abbrev WDT_TIMEOUT : Nat := 0x21004
/-- WDT_WARN. -/
abbrev WDT_WARN : Nat := 0x21008
/-- WDT_KEY. -/
abbrev WDT_KEY : Nat := 0x2100c
/-- WDT_STATUS. -/
abbrev WDT_STATUS : Nat := 0x21010
/-- WDT_REMAIN. -/
abbrev WDT_REMAIN : Nat := 0x21014
/-- WDT_EVENT. -/
abbrev WDT_EVENT : Nat := 0x21018
/-- WDT_SERVICES. -/
abbrev WDT_SERVICES : Nat := 0x2101c

/-! Registers of chapter 4 (`spec/` section file 04). -/
/-- PCX_LINK. -/
abbrev PCX_LINK : Nat := 0x30000
/-- PCX_LINK_EVENT. -/
abbrev PCX_LINK_EVENT : Nat := 0x30004
/-- PCX_HOSTLOSS. -/
abbrev PCX_HOSTLOSS : Nat := 0x30008
/-- PCX_HOSTLOSS_CTRL. -/
abbrev PCX_HOSTLOSS_CTRL : Nat := 0x3000c
/-- PCX_HOSTLOSS_TS_LO. -/
abbrev PCX_HOSTLOSS_TS_LO : Nat := 0x30010
/-- PCX_HOSTLOSS_TS_HI. -/
abbrev PCX_HOSTLOSS_TS_HI : Nat := 0x30014
/-- PCX_AEL_COUNT. -/
abbrev PCX_AEL_COUNT : Nat := 0x30020
/-- PCX_AEL_FIRST_ADDR. -/
abbrev PCX_AEL_FIRST_ADDR : Nat := 0x30024
/-- PCX_AEL_FIRST_INFO. -/
abbrev PCX_AEL_FIRST_INFO : Nat := 0x30028
/-- PCX_AEL_LAST_ADDR. -/
abbrev PCX_AEL_LAST_ADDR : Nat := 0x3002c
/-- PCX_AEL_LAST_INFO. -/
abbrev PCX_AEL_LAST_INFO : Nat := 0x30030
/-- PCX_AEL_CTRL. -/
abbrev PCX_AEL_CTRL : Nat := 0x30034
/-- SSP_CFG. -/
abbrev SSP_CFG : Nat := 0x31000
/-- SSP_STATUS. -/
abbrev SSP_STATUS : Nat := 0x31004
/-- SSP_ERR0. -/
abbrev SSP_ERR0 : Nat := 0x31008
/-- SSP_ERR1. -/
abbrev SSP_ERR1 : Nat := 0x3100c
/-- SSP_ERR_CLR. -/
abbrev SSP_ERR_CLR : Nat := 0x31010
/-- SSP_AEL_COUNT. -/
abbrev SSP_AEL_COUNT : Nat := 0x31020
/-- SSP_AEL_FIRST_ADDR. -/
abbrev SSP_AEL_FIRST_ADDR : Nat := 0x31024
/-- SSP_AEL_FIRST_INFO. -/
abbrev SSP_AEL_FIRST_INFO : Nat := 0x31028
/-- SSP_AEL_LAST_ADDR. -/
abbrev SSP_AEL_LAST_ADDR : Nat := 0x3102c
/-- SSP_AEL_LAST_INFO. -/
abbrev SSP_AEL_LAST_INFO : Nat := 0x31030
/-- SSP_AEL_CTRL. -/
abbrev SSP_AEL_CTRL : Nat := 0x31034
/-- BSP_STATUS. -/
abbrev BSP_STATUS : Nat := 0x32000
/-- BSP_OP. -/
abbrev BSP_OP : Nat := 0x32004
/-- BSP_ADDR. -/
abbrev BSP_ADDR : Nat := 0x32008
/-- BSP_LEN. -/
abbrev BSP_LEN : Nat := 0x3200c
/-- BSP_RESULT. -/
abbrev BSP_RESULT : Nat := 0x32010
/-- BSP_EVENT. -/
abbrev BSP_EVENT : Nat := 0x32014
/-- BSP_BUFi. -/
abbrev BSP_BUF (n : Nat) : Nat := 0x32100 + 0x4 * (n % 64)

/-! Registers of chapter 5 (`spec/` section file 05). -/
/-- HZ_STATUS. -/
abbrev HZ_STATUS : Nat := 0x40000
/-- HZ_CTRL. -/
abbrev HZ_CTRL : Nat := 0x40004
/-- HZ_EVENT. -/
abbrev HZ_EVENT : Nat := 0x40008
/-- HZ_BAD_RX. -/
abbrev HZ_BAD_RX : Nat := 0x4000c
/-- HZ_BAD_TX. -/
abbrev HZ_BAD_TX : Nat := 0x40010
/-- HZ_LOSS. -/
abbrev HZ_LOSS : Nat := 0x40014
/-- HZ_PHASE. -/
abbrev HZ_PHASE : Nat := 0x40018
/-- HZ_GC. -/
abbrev HZ_GC : Nat := 0x4001c
/-- HZ_GC_ERR. -/
abbrev HZ_GC_ERR : Nat := 0x40020
/-- HZ_RELAY_ERR. -/
abbrev HZ_RELAY_ERR : Nat := 0x40024
/-- HZ_CNT_CLR. -/
abbrev HZ_CNT_CLR : Nat := 0x40028
/-- HZ_SER_TX. -/
abbrev HZ_SER_TX : Nat := 0x40040
/-- HZ_SER_TXW. -/
abbrev HZ_SER_TXW : Nat := 0x40044
/-- HZ_SER_RX. -/
abbrev HZ_SER_RX : Nat := 0x40048
/-- HZ_SER_RXW. -/
abbrev HZ_SER_RXW : Nat := 0x4004c
/-- HZ_SER_STATUS. -/
abbrev HZ_SER_STATUS : Nat := 0x40050
/-- HZ_SER_ERR. -/
abbrev HZ_SER_ERR : Nat := 0x40054
/-- HZ_FIELD_ATTN. -/
abbrev HZ_FIELD_ATTN : Nat := 0x40080
/-- HZ_MIRO_OUT. -/
abbrev HZ_MIRO_OUT : Nat := 0x40100
/-- HZ_MIRI. -/
abbrev HZ_MIRI : Nat := 0x40104
/-- HZ_MIRI_RISE. -/
abbrev HZ_MIRI_RISE : Nat := 0x40108
/-- HZ_MIRI_FALL. -/
abbrev HZ_MIRI_FALL : Nat := 0x4010c
/-- HZ_MIRO_MAPk. -/
abbrev HZ_MIRO_MAP (n : Nat) : Nat := 0x40140 + 0x4 * (n % 12)
/-- HZ_MIRI_MAPk. -/
abbrev HZ_MIRI_MAP (n : Nat) : Nat := 0x40180 + 0x4 * (n % 12)

/-! Registers of chapter 10 (`spec/` section file 10). -/
/-- CPn_STATE. -/
abbrev CP_STATE (n : Nat) : Nat := 0x100000 + 0x10000 * (n % 4)
/-- CPn_CTRL. -/
abbrev CP_CTRL (n : Nat) : Nat := 0x100004 + 0x10000 * (n % 4)
/-- CPn_CFG. -/
abbrev CP_CFG (n : Nat) : Nat := 0x100008 + 0x10000 * (n % 4)
/-- CPn_TRAIN. -/
abbrev CP_TRAIN (n : Nat) : Nat := 0x10000c + 0x10000 * (n % 4)
/-- CPn_EVENT. -/
abbrev CP_EVENT (n : Nat) : Nat := 0x100010 + 0x10000 * (n % 4)
/-- CPn_SKEW. -/
abbrev CP_SKEW (n : Nat) : Nat := 0x100014 + 0x10000 * (n % 4)
/-- CPn_HEAD_ID. -/
abbrev CP_HEAD_ID (n : Nat) : Nat := 0x100018 + 0x10000 * (n % 4)
/-- CPn_HEAD_CAPS. -/
abbrev CP_HEAD_CAPS (n : Nat) : Nat := 0x10001c + 0x10000 * (n % 4)
/-- CPn_HC_CMD. -/
abbrev CP_HC_CMD (n : Nat) : Nat := 0x100020 + 0x10000 * (n % 4)
/-- CPn_HC_ADDR. -/
abbrev CP_HC_ADDR (n : Nat) : Nat := 0x100024 + 0x10000 * (n % 4)
/-- CPn_HC_WDATA. -/
abbrev CP_HC_WDATA (n : Nat) : Nat := 0x100028 + 0x10000 * (n % 4)
/-- CPn_HC_RDATA. -/
abbrev CP_HC_RDATA (n : Nat) : Nat := 0x10002c + 0x10000 * (n % 4)
/-- CPn_HC_STATUS. -/
abbrev CP_HC_STATUS (n : Nat) : Nat := 0x100030 + 0x10000 * (n % 4)
/-- CPn_HEAD_EVENT. -/
abbrev CP_HEAD_EVENT (n : Nat) : Nat := 0x100034 + 0x10000 * (n % 4)
/-- CPn_HEAD_DETAIL. -/
abbrev CP_HEAD_DETAIL (n : Nat) : Nat := 0x100038 + 0x10000 * (n % 4)
/-- CPn_TRQ. -/
abbrev CP_TRQ (n : Nat) : Nat := 0x10003c + 0x10000 * (n % 4)
/-- CPn_FIFO. -/
abbrev CP_FIFO (n : Nat) : Nat := 0x100040 + 0x10000 * (n % 4)
/-- CPn_CV. -/
abbrev CP_CV (n : Nat) : Nat := 0x100044 + 0x10000 * (n % 4)
/-- CPn_MARK_ERR. -/
abbrev CP_MARK_ERR (n : Nat) : Nat := 0x100048 + 0x10000 * (n % 4)
/-- CPn_PKT_ERR. -/
abbrev CP_PKT_ERR (n : Nat) : Nat := 0x10004c + 0x10000 * (n % 4)
/-- CPn_LINE_ERR. -/
abbrev CP_LINE_ERR (n : Nat) : Nat := 0x100050 + 0x10000 * (n % 4)
/-- CPn_SVC_CNT. -/
abbrev CP_SVC_CNT (n : Nat) : Nat := 0x100054 + 0x10000 * (n % 4)
/-- CPn_LINES. -/
abbrev CP_LINES (n : Nat) : Nat := 0x100058 + 0x10000 * (n % 4)
/-- CPn_CNT_CLR. -/
abbrev CP_CNT_CLR (n : Nat) : Nat := 0x10005c + 0x10000 * (n % 4)

/-! Registers of chapter 9 (`spec/` section file 09). -/
/-- LNx_CFG. -/
abbrev LN_CFG (n : Nat) : Nat := 0x180000 + 0x1000 * (n % 16)
/-- LNx_STATE. -/
abbrev LN_STATE (n : Nat) : Nat := 0x180004 + 0x1000 * (n % 16)
/-- LNx_EVENT. -/
abbrev LN_EVENT (n : Nat) : Nat := 0x180008 + 0x1000 * (n % 16)
/-- LNx_CTRL. -/
abbrev LN_CTRL (n : Nat) : Nat := 0x18000c + 0x1000 * (n % 16)
/-- LNx_EFM. -/
abbrev LN_EFM (n : Nat) : Nat := 0x180010 + 0x1000 * (n % 16)
/-- LNx_EFM_LOW. -/
abbrev LN_EFM_LOW (n : Nat) : Nat := 0x180014 + 0x1000 * (n % 16)
/-- LNx_TAPS0. -/
abbrev LN_TAPS0 (n : Nat) : Nat := 0x180018 + 0x1000 * (n % 16)
/-- LNx_TAPS1. -/
abbrev LN_TAPS1 (n : Nat) : Nat := 0x18001c + 0x1000 * (n % 16)
/-- LNx_CNT0. -/
abbrev LN_CNT0 (n : Nat) : Nat := 0x180020 + 0x1000 * (n % 16)
/-- LNx_CNT1. -/
abbrev LN_CNT1 (n : Nat) : Nat := 0x180024 + 0x1000 * (n % 16)
/-- LNx_CNT_CLR. -/
abbrev LN_CNT_CLR (n : Nat) : Nat := 0x180028 + 0x1000 * (n % 16)
/-- LNx_ACQ. -/
abbrev LN_ACQ (n : Nat) : Nat := 0x18002c + 0x1000 * (n % 16)
/-- LNx_CAL. -/
abbrev LN_CAL (n : Nat) : Nat := 0x180030 + 0x1000 * (n % 16)
/-- LNx_SYN. -/
abbrev LN_SYN (n : Nat) : Nat := 0x180034 + 0x1000 * (n % 16)
/-- LNx_EPOCH. -/
abbrev LN_EPOCH (n : Nat) : Nat := 0x180038 + 0x1000 * (n % 16)

/-! Registers of chapter 11 (`spec/` section file 11). -/
/-- ACQ_FNn_CFG. -/
abbrev ACQ_FN_CFG (n : Nat) : Nat := 0x200000 + 0x100 * (n % 8)
/-- ACQ_FNn_CTRL. -/
abbrev ACQ_FN_CTRL (n : Nat) : Nat := 0x200004 + 0x100 * (n % 8)
/-- ACQ_FNn_MAX_LEN. -/
abbrev ACQ_FN_MAX_LEN (n : Nat) : Nat := 0x200008 + 0x100 * (n % 8)
/-- ACQ_FNn_CLOSE_POS. -/
abbrev ACQ_FN_CLOSE_POS (n : Nat) : Nat := 0x20000c + 0x100 * (n % 8)
/-- ACQ_FNn_REV_HYST. -/
abbrev ACQ_FN_REV_HYST (n : Nat) : Nat := 0x200010 + 0x100 * (n % 8)
/-- ACQ_FNn_TIMER_LEN. -/
abbrev ACQ_FN_TIMER_LEN (n : Nat) : Nat := 0x200014 + 0x100 * (n % 8)
/-- ACQ_FNn_TIMER_GAP. -/
abbrev ACQ_FN_TIMER_GAP (n : Nat) : Nat := 0x200018 + 0x100 * (n % 8)
/-- ACQ_FNn_LAST_TID. -/
abbrev ACQ_FN_LAST_TID (n : Nat) : Nat := 0x20001c + 0x100 * (n % 8)
/-- ACQ_FNn_LAST_LEP. -/
abbrev ACQ_FN_LAST_LEP (n : Nat) : Nat := 0x200020 + 0x100 * (n % 8)
/-- ACQ_FNn_CNT0. -/
abbrev ACQ_FN_CNT0 (n : Nat) : Nat := 0x200024 + 0x100 * (n % 8)
/-- ACQ_FNn_CNT1. -/
abbrev ACQ_FN_CNT1 (n : Nat) : Nat := 0x200028 + 0x100 * (n % 8)
/-- ACQ_FNn_CNT2. -/
abbrev ACQ_FN_CNT2 (n : Nat) : Nat := 0x20002c + 0x100 * (n % 8)
/-- ACQ_FNn_EVENT. -/
abbrev ACQ_FN_EVENT (n : Nat) : Nat := 0x200030 + 0x100 * (n % 8)
/-- ACQ_FNn_CNT_CLR. -/
abbrev ACQ_FN_CNT_CLR (n : Nat) : Nat := 0x200034 + 0x100 * (n % 8)
/-- ACQ_FNn_SLOTs_TID. -/
abbrev ACQ_FN_SLOT_TID (n : Nat) (k : Nat) : Nat := 0x200080 + 0x100 * (n % 8) + 0x8 * (k % 16)
/-- ACQ_FNn_SLOTs_LEP. -/
abbrev ACQ_FN_SLOT_LEP (n : Nat) (k : Nat) : Nat := 0x200084 + 0x100 * (n % 8) + 0x8 * (k % 16)
/-- ACQ_TID_NEXT. -/
abbrev ACQ_TID_NEXT : Nat := 0x200800
/-- LTG_Pp_CFG. -/
abbrev LTG_P_CFG (n : Nat) : Nat := 0x201000 + 0x40 * (n % 4)
/-- LTG_Pp_MERIDIAN. -/
abbrev LTG_P_MERIDIAN (n : Nat) : Nat := 0x201004 + 0x40 * (n % 4)
/-- LTG_Pp_TRIM. -/
abbrev LTG_P_TRIM (n : Nat) : Nat := 0x201008 + 0x40 * (n % 4)
/-- LTG_Pp_DECIM. -/
abbrev LTG_P_DECIM (n : Nat) : Nat := 0x20100c + 0x40 * (n % 4)
/-- LTG_Pp_STATUS. -/
abbrev LTG_P_STATUS (n : Nat) : Nat := 0x201010 + 0x40 * (n % 4)
/-- LTG_Pp_ACC. -/
abbrev LTG_P_ACC (n : Nat) : Nat := 0x201014 + 0x40 * (n % 4)
/-- LTG_Pp_TRIGGERS. -/
abbrev LTG_P_TRIGGERS (n : Nat) : Nat := 0x201018 + 0x40 * (n % 4)
/-- LTG_Pp_SKIP. -/
abbrev LTG_P_SKIP (n : Nat) : Nat := 0x20101c + 0x40 * (n % 4)
/-- LTG_Pp_ERR. -/
abbrev LTG_P_ERR (n : Nat) : Nat := 0x201020 + 0x40 * (n % 4)
/-- LTG_Pp_EVENT. -/
abbrev LTG_P_EVENT (n : Nat) : Nat := 0x201024 + 0x40 * (n % 4)
/-- LTG_Pp_CNT_CLR. -/
abbrev LTG_P_CNT_CLR (n : Nat) : Nat := 0x201028 + 0x40 * (n % 4)
/-- LTG_TMRn_PERIOD. -/
abbrev LTG_TMR_PERIOD (n : Nat) : Nat := 0x201200 + 0x10 * (n % 8)
/-- LTG_TMRn_COUNT. -/
abbrev LTG_TMR_COUNT (n : Nat) : Nat := 0x201204 + 0x10 * (n % 8)
/-- STS_USED. -/
abbrev STS_USED : Nat := 0x202000
/-- STS_ECC. -/
abbrev STS_ECC : Nat := 0x202004
/-- STS_ECC_ADDR. -/
abbrev STS_ECC_ADDR : Nat := 0x202008
/-- STS_EVENT. -/
abbrev STS_EVENT : Nat := 0x20200c
/-- STS_CNT_CLR. -/
abbrev STS_CNT_CLR : Nat := 0x202010
/-- STS_BANDk_BASE. -/
abbrev STS_BAND_BASE (n : Nat) : Nat := 0x202100 + 0x8 * (n % 128)
/-- STS_BANDk_INFO. -/
abbrev STS_BAND_INFO (n : Nat) : Nat := 0x202104 + 0x8 * (n % 128)

/-! Registers of chapter 12 (`spec/` section file 12). -/
/-- E_STATUS. -/
abbrev E_STATUS (n : Nat) : Nat := 0x300000 + 0x1000 * (n % 2)
/-- E_JOB. -/
abbrev E_JOB (n : Nat) : Nat := 0x300004 + 0x1000 * (n % 2)
/-- E_JOB_TID. -/
abbrev E_JOB_TID (n : Nat) : Nat := 0x300008 + 0x1000 * (n % 2)
/-- E_QUEUE. -/
abbrev E_QUEUE (n : Nat) : Nat := 0x30000c + 0x1000 * (n % 2)
/-- E_LAST_CYCLES. -/
abbrev E_LAST_CYCLES (n : Nat) : Nat := 0x300010 + 0x1000 * (n % 2)
/-- E_MAX_CYCLES. -/
abbrev E_MAX_CYCLES (n : Nat) : Nat := 0x300014 + 0x1000 * (n % 2)
/-- E_MAX_STEP. -/
abbrev E_MAX_STEP (n : Nat) : Nat := 0x300018 + 0x1000 * (n % 2)
/-- E_JOBS. -/
abbrev E_JOBS (n : Nat) : Nat := 0x30001c + 0x1000 * (n % 2)
/-- E_ECC. -/
abbrev E_ECC (n : Nat) : Nat := 0x300028 + 0x1000 * (n % 2)
/-- E_ECC_ADDR. -/
abbrev E_ECC_ADDR (n : Nat) : Nat := 0x30002c + 0x1000 * (n % 2)
/-- E_EVENT. -/
abbrev E_EVENT (n : Nat) : Nat := 0x300030 + 0x1000 * (n % 2)
/-- E_CNT_CLR. -/
abbrev E_CNT_CLR (n : Nat) : Nat := 0x300034 + 0x1000 * (n % 2)
/-- E_BUSY_LO. -/
abbrev E_BUSY_LO (n : Nat) : Nat := 0x300020 + 0x1000 * (n % 2)
/-- E_BUSY_HI. -/
abbrev E_BUSY_HI (n : Nat) : Nat := 0x300024 + 0x1000 * (n % 2)

/-! Registers of chapter 13 (`spec/` section file 13). -/
/-- PST_STATUS. -/
abbrev PST_STATUS : Nat := 0x302000
/-- PST_JOB_TID. -/
abbrev PST_JOB_TID : Nat := 0x302004
/-- PST_LAST_CYCLES. -/
abbrev PST_LAST_CYCLES : Nat := 0x302008
/-- PST_JOBS. -/
abbrev PST_JOBS : Nat := 0x30200c
/-- PST_CAND. -/
abbrev PST_CAND : Nat := 0x302010
/-- PST_EVENT. -/
abbrev PST_EVENT : Nat := 0x302014
/-- PST_CNT_CLR. -/
abbrev PST_CNT_CLR : Nat := 0x302018
/-- VRD_FNn_CFG. -/
abbrev VRD_FN_CFG (n : Nat) : Nat := 0x303000 + 0x40 * (n % 8)
/-- VRD_FNn_DP. -/
abbrev VRD_FN_DP (n : Nat) : Nat := 0x303004 + 0x40 * (n % 8)
/-- VRD_FNn_LAST. -/
abbrev VRD_FN_LAST (n : Nat) : Nat := 0x303008 + 0x40 * (n % 8)
/-- VRD_FNn_LAST_TID. -/
abbrev VRD_FN_LAST_TID (n : Nat) : Nat := 0x30300c + 0x40 * (n % 8)
/-- VRD_FNn_SLACK. -/
abbrev VRD_FN_SLACK (n : Nat) : Nat := 0x303010 + 0x40 * (n % 8)
/-- VRD_FNn_MIN_SLACK. -/
abbrev VRD_FN_MIN_SLACK (n : Nat) : Nat := 0x303014 + 0x40 * (n % 8)
/-- VRD_FNn_SLACK_LOW. -/
abbrev VRD_FN_SLACK_LOW (n : Nat) : Nat := 0x303018 + 0x40 * (n % 8)
/-- VRD_FNn_CNT0. -/
abbrev VRD_FN_CNT0 (n : Nat) : Nat := 0x30301c + 0x40 * (n % 8)
/-- VRD_FNn_CNT1. -/
abbrev VRD_FN_CNT1 (n : Nat) : Nat := 0x303020 + 0x40 * (n % 8)
/-- VRD_FNn_EVENT. -/
abbrev VRD_FN_EVENT (n : Nat) : Nat := 0x303024 + 0x40 * (n % 8)
/-- VRD_FNn_CNT_CLR. -/
abbrev VRD_FN_CNT_CLR (n : Nat) : Nat := 0x303028 + 0x40 * (n % 8)
/-- VRD_HIT_CLR. -/
abbrev VRD_HIT_CLR : Nat := 0x303400
/-- VRD_Vv_HITr. -/
abbrev VRD_HIT (n : Nat) (k : Nat) : Nat := 0x304000 + 0x100 * (n % 16) + 0x4 * (k % 64)

/-! Registers of chapter 14 (`spec/` section file 14). -/
/-- DLV_Rr_CTRL. -/
abbrev DLV_CTRL (n : Nat) : Nat := 0x400000 + 0x100 * (n % 128)
/-- DLV_Rr_STATUS. -/
abbrev DLV_STATUS (n : Nat) : Nat := 0x400004 + 0x100 * (n % 128)
/-- DLV_Rr_DESC_SIZE. -/
abbrev DLV_DESC_SIZE (n : Nat) : Nat := 0x400010 + 0x100 * (n % 128)
/-- DLV_Rr_WIN_SIZE. -/
abbrev DLV_WIN_SIZE (n : Nat) : Nat := 0x40001c + 0x100 * (n % 128)
/-- DLV_Rr_PROD. -/
abbrev DLV_PROD (n : Nat) : Nat := 0x400020 + 0x100 * (n % 128)
/-- DLV_Rr_CONS. -/
abbrev DLV_CONS (n : Nat) : Nat := 0x400024 + 0x100 * (n % 128)
/-- DLV_Rr_ALLOC. -/
abbrev DLV_ALLOC (n : Nat) : Nat := 0x400028 + 0x100 * (n % 128)
/-- DLV_Rr_WIN_WP. -/
abbrev DLV_WIN_WP (n : Nat) : Nat := 0x40002c + 0x100 * (n % 128)
/-- DLV_Rr_FILTER. -/
abbrev DLV_FILTER (n : Nat) : Nat := 0x400030 + 0x100 * (n % 128)
/-- DLV_Rr_CROP_X. -/
abbrev DLV_CROP_X (n : Nat) : Nat := 0x40003c + 0x100 * (n % 128)
/-- DLV_Rr_CROP_Y. -/
abbrev DLV_CROP_Y (n : Nat) : Nat := 0x400040 + 0x100 * (n % 128)
/-- DLV_Rr_IRQ. -/
abbrev DLV_IRQ (n : Nat) : Nat := 0x400064 + 0x100 * (n % 128)
/-- DLV_Rr_HOLD. -/
abbrev DLV_HOLD (n : Nat) : Nat := 0x400068 + 0x100 * (n % 128)
/-- DLV_Rr_BP_LIMIT. -/
abbrev DLV_BP_LIMIT (n : Nat) : Nat := 0x40006c + 0x100 * (n % 128)
/-- DLV_Rr_EVENT. -/
abbrev DLV_EVENT (n : Nat) : Nat := 0x400070 + 0x100 * (n % 128)
/-- DLV_Rr_EVENT_EN. -/
abbrev DLV_EVENT_EN (n : Nat) : Nat := 0x400074 + 0x100 * (n % 128)
/-- DLV_Rr_CNT_OBJ. -/
abbrev DLV_CNT_OBJ (n : Nat) : Nat := 0x400078 + 0x100 * (n % 128)
/-- DLV_Rr_CNT_DROP. -/
abbrev DLV_CNT_DROP (n : Nat) : Nat := 0x40007c + 0x100 * (n % 128)
/-- DLV_Rr_CNT_VOID. -/
abbrev DLV_CNT_VOID (n : Nat) : Nat := 0x400080 + 0x100 * (n % 128)
/-- DLV_Rr_CNT_CLR. -/
abbrev DLV_CNT_CLR (n : Nat) : Nat := 0x40008c + 0x100 * (n % 128)
/-- DLV_Rr_DESC_BASE_LO. -/
abbrev DLV_DESC_BASE_LO (n : Nat) : Nat := 0x400008 + 0x100 * (n % 128)
/-- DLV_Rr_DESC_BASE_HI. -/
abbrev DLV_DESC_BASE_HI (n : Nat) : Nat := 0x40000c + 0x100 * (n % 128)
/-- DLV_Rr_WIN_BASE_LO. -/
abbrev DLV_WIN_BASE_LO (n : Nat) : Nat := 0x400014 + 0x100 * (n % 128)
/-- DLV_Rr_WIN_BASE_HI. -/
abbrev DLV_WIN_BASE_HI (n : Nat) : Nat := 0x400018 + 0x100 * (n % 128)
/-- DLV_Rr_VMASK_LO. -/
abbrev DLV_VMASK_LO (n : Nat) : Nat := 0x400034 + 0x100 * (n % 128)
/-- DLV_Rr_VMASK_HI. -/
abbrev DLV_VMASK_HI (n : Nat) : Nat := 0x400038 + 0x100 * (n % 128)
/-- DLV_Rr_BYTES_LO. -/
abbrev DLV_BYTES_LO (n : Nat) : Nat := 0x400084 + 0x100 * (n % 128)
/-- DLV_Rr_BYTES_HI. -/
abbrev DLV_BYTES_HI (n : Nat) : Nat := 0x400088 + 0x100 * (n % 128)
/-- DLV_Rr_CLASSi. -/
abbrev DLV_CLASS (n : Nat) (k : Nat) : Nat := 0x400044 + 0x100 * (n % 128) + 0x4 * (k % 8)
/-- EVT_MAPs. -/
abbrev EVT_MAP (n : Nat) : Nat := 0x408000 + 0x4 * (n % 256)
/-- EVT_SRCk. -/
abbrev EVT_SRC (n : Nat) : Nat := 0x408400 + 0x4 * (n % 8)
/-- EVT_VMASKk. -/
abbrev EVT_VMASK (n : Nat) : Nat := 0x408500 + 0x4 * (n % 9)
/-- EVT_VPENDk. -/
abbrev EVT_VPEND (n : Nat) : Nat := 0x408540 + 0x4 * (n % 9)
/-- EVT_PULSE. -/
abbrev EVT_PULSE : Nat := 0x408580
/-- DLV_POOL. -/
abbrev DLV_POOL : Nat := 0x408600

/-! Registers of chapter 16 (`spec/` section file 16). -/
/-- BIST_STATUS. -/
abbrev BIST_STATUS : Nat := 0x500000
/-- BIST_CAP. -/
abbrev BIST_CAP : Nat := 0x500004
/-- BIST_BUDGET. -/
abbrev BIST_BUDGET : Nat := 0x500008
/-- BIST_RETEST. -/
abbrev BIST_RETEST : Nat := 0x50001c
/-- BIST_RETEST_STATUS. -/
abbrev BIST_RETEST_STATUS : Nat := 0x500020
/-- BIST_EVENT. -/
abbrev BIST_EVENT : Nat := 0x500024
/-- BIST_OPTIME. -/
abbrev BIST_OPTIME : Nat := 0x500028
/-- BIST_SAVE. -/
abbrev BIST_SAVE : Nat := 0x50002c
/-- BIST_LAST_US. -/
abbrev BIST_LAST_US : Nat := 0x500030
/-- BIST_FENCE_LO. -/
abbrev BIST_FENCE_LO : Nat := 0x50000c
/-- BIST_FENCE_HI. -/
abbrev BIST_FENCE_HI : Nat := 0x500010
/-- BIST_UNFIN_LO. -/
abbrev BIST_UNFIN_LO : Nat := 0x500014
/-- BIST_UNFIN_HI. -/
abbrev BIST_UNFIN_HI : Nat := 0x500018
/-- BIST_RESULTs. -/
abbrev BIST_RESULT (n : Nat) : Nat := 0x500100 + 0x4 * (n % 48)
/-- BIST_RECw. -/
abbrev BIST_REC (n : Nat) : Nat := 0x500200 + 0x4 * (n % 54)

/-! Registers of chapter 17 (`spec/` section file 17). -/
/-- CAS_STATUS. -/
abbrev CAS_STATUS : Nat := 0x600000
/-- CAS_CTRL. -/
abbrev CAS_CTRL : Nat := 0x600004
/-- CAS_EVENT. -/
abbrev CAS_EVENT : Nat := 0x600008
/-- CAS_RP. -/
abbrev CAS_RP : Nat := 0x60000c
/-- CAS_RING. -/
abbrev CAS_RING : Nat := 0x600010
/-- CAS_CORR. -/
abbrev CAS_CORR : Nat := 0x600014
/-- CAS_TRIM. -/
abbrev CAS_TRIM : Nat := 0x600018
/-- CAS_TS_AHEAD. -/
abbrev CAS_TS_AHEAD : Nat := 0x60001c
/-- CAS_EFM. -/
abbrev CAS_EFM : Nat := 0x600020
/-- CAS_EFM_LOW. -/
abbrev CAS_EFM_LOW : Nat := 0x600024
/-- CAS_CNT. -/
abbrev CAS_CNT : Nat := 0x600028
/-- CAS_CNT_CLR. -/
abbrev CAS_CNT_CLR : Nat := 0x60002c
/-- CAS_Fk_STATUS. -/
abbrev CAS_F_STATUS (n : Nat) : Nat := 0x600030 + 0x4 * (n % 3)
/-- CAS_Fk_CORR. -/
abbrev CAS_F_CORR (n : Nat) : Nat := 0x600040 + 0x4 * (n % 3)

/-! Registers of chapter 5 (`spec/` section file 05). -/
/-- MIR_FIELD_ID (field address). -/
abbrev MIR_FIELD_ID : Nat := 0x0
/-- MIR_STATE (field address). -/
abbrev MIR_STATE : Nat := 0x4
/-- MIR_ATTN (field address). -/
abbrev MIR_ATTN : Nat := 0x10
/-- MIR_BAD_BEATS (field address). -/
abbrev MIR_BAD_BEATS : Nat := 0x14
/-- MIR_PINS (field address). -/
abbrev MIR_PINS : Nat := 0x20

/-! Registers of chapter 6 (`spec/` section file 06). -/
/-- PFIc_CFG (field address). -/
abbrev PFI_CFG (n : Nat) : Nat := 0x1000 + 0x40 * (n % 4)
/-- PFIc_POS (field address). -/
abbrev PFI_POS (n : Nat) : Nat := 0x1004 + 0x40 * (n % 4)
/-- PFIc_STAT (field address). -/
abbrev PFI_STAT (n : Nat) : Nat := 0x1008 + 0x40 * (n % 4)
/-- PFIc_SPEED (field address). -/
abbrev PFI_SPEED (n : Nat) : Nat := 0x100c + 0x40 * (n % 4)
/-- PFIc_REF_POS (field address). -/
abbrev PFI_REF_POS (n : Nat) : Nat := 0x1010 + 0x40 * (n % 4)
/-- PFIc_REF_CNT (field address). -/
abbrev PFI_REF_CNT (n : Nat) : Nat := 0x1014 + 0x40 * (n % 4)
/-- PFIc_REF_CHECK (field address). -/
abbrev PFI_REF_CHECK (n : Nat) : Nat := 0x1018 + 0x40 * (n % 4)
/-- PFIc_ERR (field address). -/
abbrev PFI_ERR (n : Nat) : Nat := 0x101c + 0x40 * (n % 4)
/-- PFIc_EVENT (field address). -/
abbrev PFI_EVENT (n : Nat) : Nat := 0x1020 + 0x40 * (n % 4)
/-- PFIc_ERR_CLR (field address). -/
abbrev PFI_ERR_CLR (n : Nat) : Nat := 0x1024 + 0x40 * (n % 4)
/-- EMUe_CFG (field address). -/
abbrev EMU_CFG (n : Nat) : Nat := 0x2000 + 0x40 * (n % 2)
/-- EMUe_RATIO (field address). -/
abbrev EMU_RATIO (n : Nat) : Nat := 0x2004 + 0x40 * (n % 2)
/-- EMUe_SLEW (field address). -/
abbrev EMU_SLEW (n : Nat) : Nat := 0x2008 + 0x40 * (n % 2)
/-- EMUe_ACCEL (field address). -/
abbrev EMU_ACCEL (n : Nat) : Nat := 0x200c + 0x40 * (n % 2)
/-- EMUe_LAG_LIMIT (field address). -/
abbrev EMU_LAG_LIMIT (n : Nat) : Nat := 0x2010 + 0x40 * (n % 2)
/-- EMUe_ZPERIOD (field address). -/
abbrev EMU_ZPERIOD (n : Nat) : Nat := 0x2014 + 0x40 * (n % 2)
/-- EMUe_CTRL (field address). -/
abbrev EMU_CTRL (n : Nat) : Nat := 0x2018 + 0x40 * (n % 2)
/-- EMUe_OUT (field address). -/
abbrev EMU_OUT (n : Nat) : Nat := 0x201c + 0x40 * (n % 2)
/-- EMUe_LAG (field address). -/
abbrev EMU_LAG (n : Nat) : Nat := 0x2020 + 0x40 * (n % 2)
/-- EMUe_RATE (field address). -/
abbrev EMU_RATE (n : Nat) : Nat := 0x2024 + 0x40 * (n % 2)
/-- EMUe_STATUS (field address). -/
abbrev EMU_STATUS (n : Nat) : Nat := 0x2028 + 0x40 * (n % 2)
/-- EMUe_EVENT (field address). -/
abbrev EMU_EVENT (n : Nat) : Nat := 0x202c + 0x40 * (n % 2)
/-- EMUe_DISCARDED (field address). -/
abbrev EMU_DISCARDED (n : Nat) : Nat := 0x2030 + 0x40 * (n % 2)
/-- PAS_CFGp (field address). -/
abbrev PAS_CFG (n : Nat) : Nat := 0x2800 + 0x4 * (n % 2)
/-- PAS_PINS (field address). -/
abbrev PAS_PINS : Nat := 0x2810

/-! Registers of chapter 7 (`spec/` section file 07). -/
/-- GHSk_CFG (field address). -/
abbrev GHS_CFG (n : Nat) : Nat := 0x3000 + 0x20 * (n % 4)
/-- GHSk_SENSE (field address). -/
abbrev GHS_SENSE (n : Nat) : Nat := 0x3004 + 0x20 * (n % 4)
/-- GHSk_BLANK (field address). -/
abbrev GHS_BLANK (n : Nat) : Nat := 0x3008 + 0x20 * (n % 4)
/-- GHSk_ISNS (field address). -/
abbrev GHS_ISNS (n : Nat) : Nat := 0x300c + 0x20 * (n % 4)
/-- GHSk_STATUS (field address). -/
abbrev GHS_STATUS (n : Nat) : Nat := 0x3010 + 0x20 * (n % 4)
/-- GHSk_EVENT (field address). -/
abbrev GHS_EVENT (n : Nat) : Nat := 0x3014 + 0x20 * (n % 4)
/-- GHSk_CTRL (field address). -/
abbrev GHS_CTRL (n : Nat) : Nat := 0x3018 + 0x20 * (n % 4)
/-- GHSk_CNT (field address). -/
abbrev GHS_CNT (n : Nat) : Nat := 0x301c + 0x20 * (n % 4)
/-- GLSj_LIMIT (field address). -/
abbrev GLS_LIMIT (n : Nat) : Nat := 0x3100 + 0x20 * (n % 8)
/-- GLSj_SCALE (field address). -/
abbrev GLS_SCALE (n : Nat) : Nat := 0x3104 + 0x20 * (n % 8)
/-- GLSj_LATE_TOL (field address). -/
abbrev GLS_LATE_TOL (n : Nat) : Nat := 0x3108 + 0x20 * (n % 8)
/-- GLSj_STATUS (field address). -/
abbrev GLS_STATUS (n : Nat) : Nat := 0x310c + 0x20 * (n % 8)
/-- GLSj_CNT (field address). -/
abbrev GLS_CNT (n : Nat) : Nat := 0x3110 + 0x20 * (n % 8)
/-- GLSj_DROP (field address). -/
abbrev GLS_DROP (n : Nat) : Nat := 0x3114 + 0x20 * (n % 8)
/-- GLSj_EVENT (field address). -/
abbrev GLS_EVENT (n : Nat) : Nat := 0x3118 + 0x20 * (n % 8)
/-- GATE_FLUSH (field address). -/
abbrev GATE_FLUSH : Nat := 0x3200
/-- GATE_SCHED (field address). -/
abbrev GATE_SCHED : Nat := 0x3204
/-- GATE_PINS (field address). -/
abbrev GATE_PINS : Nat := 0x3208
/-- GATE_STATEt (field address). -/
abbrev GATE_STATE (n : Nat) : Nat := 0x3400 + 0x4 * (n % 128)
/-- SER_STATUS (field address). -/
abbrev SER_STATUS : Nat := 0x4000
/-- SER_ERR (field address). -/
abbrev SER_ERR : Nat := 0x4004
/-- FSP_CFG (field address). -/
abbrev FSP_CFG : Nat := 0x5000
/-- FSP_FRAME (field address). -/
abbrev FSP_FRAME : Nat := 0x5004
/-- FSP_STATUS (field address). -/
abbrev FSP_STATUS : Nat := 0x5008
/-- FSP_ERR (field address). -/
abbrev FSP_ERR : Nat := 0x500c
/-- FSP_ERR_CLR (field address). -/
abbrev FSP_ERR_CLR : Nat := 0x5010
/-- FSP_FRAMES (field address). -/
abbrev FSP_FRAMES : Nat := 0x5014
/-- FSP_EVENT (field address). -/
abbrev FSP_EVENT : Nat := 0x5018

/-! Registers of chapter 8 (`spec/` section file 08). -/
/-- ZLl_CFG (field address). -/
abbrev ZL_CFG (n : Nat) : Nat := 0x6000 + 0x800 * (n % 2)
/-- ZLl_CTRL (field address). -/
abbrev ZL_CTRL (n : Nat) : Nat := 0x6004 + 0x800 * (n % 2)
/-- ZLl_STATUS (field address). -/
abbrev ZL_STATUS (n : Nat) : Nat := 0x6008 + 0x800 * (n % 2)
/-- ZLl_PRESENT (field address). -/
abbrev ZL_PRESENT (n : Nat) : Nat := 0x600c + 0x800 * (n % 2)
/-- ZLl_EVENT (field address). -/
abbrev ZL_EVENT (n : Nat) : Nat := 0x6010 + 0x800 * (n % 2)
/-- ZLl_ERR (field address). -/
abbrev ZL_ERR (n : Nat) : Nat := 0x6014 + 0x800 * (n % 2)
/-- ZLl_ERR_CLR (field address). -/
abbrev ZL_ERR_CLR (n : Nat) : Nat := 0x6018 + 0x800 * (n % 2)
/-- ZLl_ATTN_TS (field address). -/
abbrev ZL_ATTN_TS (n : Nat) : Nat := 0x601c + 0x800 * (n % 2)
/-- ZLl_ATTN (field address). -/
abbrev ZL_ATTN (n : Nat) : Nat := 0x6020 + 0x800 * (n % 2)
/-- ZLl_TXN_CMD (field address). -/
abbrev ZL_TXN_CMD (n : Nat) : Nat := 0x6030 + 0x800 * (n % 2)
/-- ZLl_TXN_DATA0 (field address). -/
abbrev ZL_TXN_DATA0 (n : Nat) : Nat := 0x6034 + 0x800 * (n % 2)
/-- ZLl_TXN_DATA1 (field address). -/
abbrev ZL_TXN_DATA1 (n : Nat) : Nat := 0x6038 + 0x800 * (n % 2)
/-- ZLl_TXN_RESULT (field address). -/
abbrev ZL_TXN_RESULT (n : Nat) : Nat := 0x603c + 0x800 * (n % 2)
/-- ZLl_RX_DATA0 (field address). -/
abbrev ZL_RX_DATA0 (n : Nat) : Nat := 0x6040 + 0x800 * (n % 2)
/-- ZLl_RX_DATA1 (field address). -/
abbrev ZL_RX_DATA1 (n : Nat) : Nat := 0x6044 + 0x800 * (n % 2)
/-- ZLl_NODEa_LO (field address). -/
abbrev ZL_NODE_LO (n : Nat) (k : Nat) : Nat := 0x6080 + 0x800 * (n % 2) + 0x8 * (k % 24)
/-- ZLl_NODEa_HI (field address). -/
abbrev ZL_NODE_HI (n : Nat) (k : Nat) : Nat := 0x6084 + 0x800 * (n % 2) + 0x8 * (k % 24)
/-- ZLl_UNLISTED_LO (field address). -/
abbrev ZL_UNLISTED_LO (n : Nat) : Nat := 0x6140 + 0x800 * (n % 2)
/-- ZLl_UNLISTED_HI (field address). -/
abbrev ZL_UNLISTED_HI (n : Nat) : Nat := 0x6144 + 0x800 * (n % 2)

end Reg

namespace Fl
abbrev SYS_ID_PART : Fld := ⟨0, 16⟩
abbrev SYS_ID_MINOR : Fld := ⟨16, 4⟩
abbrev SYS_ID_MAJOR : Fld := ⟨20, 4⟩
abbrev SYS_ID_VENDOR : Fld := ⟨24, 8⟩
abbrev SYS_JENS_ID_PART : Fld := ⟨0, 16⟩
abbrev SYS_JENS_ID_MINOR : Fld := ⟨16, 4⟩
abbrev SYS_JENS_ID_MAJOR : Fld := ⟨20, 4⟩
abbrev SYS_JENS_ID_JENS_RESET : Fld := ⟨24, 2⟩
abbrev SYS_UID_LO_UID : Fld := ⟨0, 32⟩
abbrev SYS_UID_HI_UID : Fld := ⟨0, 32⟩
abbrev SYS_STRAP_REFSEL : Fld := ⟨0, 1⟩
abbrev SYS_STRAP_LEAD : Fld := ⟨1, 1⟩
abbrev SYS_RESET_CAUSE_CAUSE : Fld := ⟨0, 7⟩
abbrev SYS_RESET_CAUSE_SAFE_CAUSE : Fld := ⟨8, 3⟩
abbrev SYS_RESET_CAUSE_COUNT : Fld := ⟨16, 8⟩
abbrev SYS_RESET_CAUSE_FCU_SRC : Fld := ⟨24, 6⟩
abbrev SYS_RESET_CMD_KEY : Fld := ⟨0, 32⟩
abbrev SYS_TS_LO_TS : Fld := ⟨0, 32⟩
abbrev SYS_TS_HI_TS : Fld := ⟨0, 32⟩
abbrev CLK_STATUS_PLL_LOCK : Fld := ⟨0, 1⟩
abbrev CLK_STATUS_BYPASS : Fld := ⟨1, 1⟩
abbrev CLK_STATUS_REFCLK_OK : Fld := ⟨2, 1⟩
abbrev CLK_STATUS_JENS_LOCK : Fld := ⟨3, 1⟩
abbrev CLK_EVENT_LOCK_LOST : Fld := ⟨0, 1⟩
abbrev CLK_EVENT_LOCK_LOST_COUNT : Fld := ⟨8, 8⟩
abbrev PWR_STATE_STATE : Fld := ⟨0, 3⟩
abbrev PWR_STATE_PHASE : Fld := ⟨4, 2⟩
abbrev PWR_STATE_CMD_REFUSED : Fld := ⟨8, 1⟩
abbrev PWR_STATE_PARK_ABORTED : Fld := ⟨9, 1⟩
abbrev PWR_CMD_CMD : Fld := ⟨0, 2⟩
abbrev PWR_WAKE_EN_MIRI : Fld := ⟨0, 12⟩
abbrev PWR_WAKE_EN_ZL : Fld := ⟨12, 2⟩
abbrev PWR_WAKE_EN_CP_PRES : Fld := ⟨16, 4⟩
abbrev PWR_WAKE_CAUSE_MIRI : Fld := ⟨0, 12⟩
abbrev PWR_WAKE_CAUSE_ZL : Fld := ⟨12, 2⟩
abbrev PWR_WAKE_CAUSE_CP_PRES : Fld := ⟨16, 4⟩
abbrev PWR_WAKE_CAUSE_CMD : Fld := ⟨24, 1⟩
abbrev PWR_WAKE_CAUSE_WDT : Fld := ⟨25, 1⟩
abbrev PWR_WAKE_CAUSE_FCU : Fld := ⟨26, 1⟩
abbrev PWR_SUPPLY_VH_MV : Fld := ⟨0, 13⟩
abbrev PWR_SUPPLY_VF_MV : Fld := ⟨16, 13⟩
abbrev PWR_SUPPLY_VF_VALID : Fld := ⟨31, 1⟩
abbrev PWR_BOOT_PATH : Fld := ⟨0, 2⟩
abbrev PWR_BOOT_RECORD_SRC : Fld := ⟨2, 2⟩
abbrev PWR_BOOT_RECORD_FAIL : Fld := ⟨4, 4⟩
abbrev PWR_BOOT_CHART : Fld := ⟨8, 3⟩
abbrev PWR_BOOT_TIME_TIME_US : Fld := ⟨0, 24⟩
abbrev SYS_FN_CMD_CMD : Fld := ⟨0, 2⟩
abbrev SYS_FN_STATE_STATE : Fld := ⟨0, 3⟩
abbrev SYS_FN_STATE_REQ_LEVEL : Fld := ⟨3, 1⟩
abbrev SYS_FN_STATE_OPEN : Fld := ⟨8, 5⟩
abbrev SYS_FN_STATE_LAST_STOP_CAUSE : Fld := ⟨16, 4⟩
abbrev SYS_FN_STATE_START_FAIL : Fld := ⟨24, 4⟩
abbrev SYS_FN_CLOSED_CLOSED : Fld := ⟨0, 32⟩
abbrev SYS_FN_LATE_LATE : Fld := ⟨0, 16⟩
abbrev SYS_FN_LATE_OVERRUN : Fld := ⟨16, 16⟩
abbrev SYS_SVC_LEVEL : Fld := ⟨0, 2⟩
abbrev SYS_SVC_CHART_OK : Fld := ⟨8, 1⟩
abbrev SYS_SVC_PORT_OK : Fld := ⟨9, 1⟩
abbrev SYS_SVC_STS_OK : Fld := ⟨10, 1⟩
abbrev SYS_SVC_HZ_OK : Fld := ⟨11, 1⟩
abbrev SYS_SVC_JENS_OK : Fld := ⟨12, 1⟩
abbrev SYS_FN_EVENT_STATE_CHG : Fld := ⟨0, 8⟩
abbrev SYS_FN_EVENT_START_FAILED : Fld := ⟨8, 8⟩
abbrev SYS_FN_EVENT_TRANSIT_OVERRUN : Fld := ⟨16, 8⟩
abbrev SYS_SW_ROUTE_SRC : Fld := ⟨0, 5⟩
abbrev SYS_SW_ROUTE_SINK : Fld := ⟨8, 5⟩
abbrev SYS_SW_ROUTE_FN : Fld := ⟨16, 3⟩
abbrev SYS_SW_ROUTE_VALID : Fld := ⟨31, 1⟩
abbrev SYS_SW_STALL_STALL : Fld := ⟨0, 32⟩
abbrev CHT_CMD_CMD : Fld := ⟨0, 3⟩
abbrev CHT_CMD_SCOPE : Fld := ⟨8, 8⟩
abbrev CHT_STATUS_OPEN : Fld := ⟨0, 1⟩
abbrev CHT_STATUS_OWNER : Fld := ⟨1, 2⟩
abbrev CHT_STATUS_BUSY : Fld := ⟨3, 1⟩
abbrev CHT_STATUS_COMMITTED : Fld := ⟨4, 1⟩
abbrev CHT_STATUS_SIGNED : Fld := ⟨5, 1⟩
abbrev CHT_STATUS_KEY_FUSED : Fld := ⟨6, 1⟩
abbrev CHT_STATUS_ENFORCE : Fld := ⟨7, 1⟩
abbrev CHT_STATUS_SCOPED : Fld := ⟨8, 1⟩
abbrev CHT_RESULT_CODE : Fld := ⟨0, 8⟩
abbrev CHT_RESULT_SECTION : Fld := ⟨8, 8⟩
abbrev CHT_RESULT_DETAIL : Fld := ⟨16, 16⟩
abbrev CHT_ERR_OFFSET_OFFSET : Fld := ⟨0, 21⟩
abbrev CHT_ADDR_ADDR : Fld := ⟨2, 19⟩
abbrev CHT_DATA_DATA : Fld := ⟨0, 32⟩
abbrev CHT_TAG_USER_TAG : Fld := ⟨0, 32⟩
abbrev CHT_LENGTH_LENGTH : Fld := ⟨0, 22⟩
abbrev CHT_EVENT_DONE : Fld := ⟨0, 1⟩
abbrev CHT_EVENT_FAILED : Fld := ⟨1, 1⟩
abbrev CHT_COMMIT_TIME_TIME_US : Fld := ⟨0, 24⟩
abbrev CHT_WREF_VALID : Fld := ⟨0, 1⟩
abbrev CHT_WREF_VERIFIED : Fld := ⟨1, 1⟩
abbrev CHT_WREF_DIRTY : Fld := ⟨2, 1⟩
abbrev CHT_WREF_MISMATCH : Fld := ⟨3, 1⟩
abbrev CHT_SECT_ID_TYPE : Fld := ⟨0, 8⟩
abbrev CHT_SECT_ID_INSTANCE : Fld := ⟨8, 8⟩
abbrev CHT_SECT_ID_VALID : Fld := ⟨31, 1⟩
abbrev CHT_SECT_OFFSET_OFFSET : Fld := ⟨0, 21⟩
abbrev CHT_SECT_LENGTH_LENGTH : Fld := ⟨0, 22⟩
abbrev CHT_SECT_CRC_CRC : Fld := ⟨0, 32⟩
abbrev FCU_STATUS_LO_STATUS : Fld := ⟨0, 32⟩
abbrev FCU_STATUS_HI_STATUS : Fld := ⟨0, 32⟩
abbrev FCU_RAW_LO_RAW : Fld := ⟨0, 32⟩
abbrev FCU_RAW_HI_RAW : Fld := ⟨0, 32⟩
abbrev FCU_FIRST_SOURCE : Fld := ⟨0, 6⟩
abbrev FCU_FIRST_VALID : Fld := ⟨31, 1⟩
abbrev FCU_FIRST_TS_LO_TS : Fld := ⟨0, 32⟩
abbrev FCU_FIRST_TS_HI_TS : Fld := ⟨0, 32⟩
abbrev FCU_TRAP_ASSERTED : Fld := ⟨0, 1⟩
abbrev FCU_TRAP_SAFE : Fld := ⟨1, 1⟩
abbrev FCU_TRAP_SAFE_CAUSE : Fld := ⟨2, 3⟩
abbrev FCU_TRAP_TRAP_SRC : Fld := ⟨8, 8⟩
abbrev FCU_SAFE_CMD_KEY : Fld := ⟨0, 32⟩
abbrev FCU_DEBUG_HALT : Fld := ⟨0, 1⟩
abbrev FCU_DEBUG_HALTED : Fld := ⟨1, 1⟩
abbrev FCU_INTEGRITY_OK : Fld := ⟨0, 1⟩
abbrev FCU_INTEGRITY_PARITY : Fld := ⟨1, 1⟩
abbrev FCU_INTEGRITY_BYTE : Fld := ⟨2, 6⟩
abbrev FCU_INJECT_SOURCE : Fld := ⟨0, 6⟩
abbrev FCU_INJECT_GO : Fld := ⟨8, 1⟩
abbrev FCU_INJECT_INTEGRITY : Fld := ⟨16, 1⟩
abbrev FCU_THERM_TEMP_C : Fld := ⟨0, 8⟩
abbrev FCU_THERM_WARN_C : Fld := ⟨8, 8⟩
abbrev FCU_CNT_CLR_CLEAR : Fld := ⟨0, 1⟩
abbrev FCU_REACT_REACTION : Fld := ⟨0, 2⟩
abbrev FCU_REACT_ERR : Fld := ⟨2, 1⟩
abbrev FCU_REACT_ASSIGNED : Fld := ⟨7, 1⟩
abbrev FCU_CNT_COUNT : Fld := ⟨0, 8⟩
abbrev WDT_CTRL_ENABLE : Fld := ⟨0, 1⟩
abbrev WDT_TIMEOUT_MS : Fld := ⟨0, 14⟩
abbrev WDT_WARN_MS : Fld := ⟨0, 14⟩
abbrev WDT_KEY_KEY : Fld := ⟨0, 8⟩
abbrev WDT_STATUS_ENABLED : Fld := ⟨0, 1⟩
abbrev WDT_STATUS_ARMED : Fld := ⟨1, 1⟩
abbrev WDT_STATUS_LATCHED_MS : Fld := ⟨16, 14⟩
abbrev WDT_REMAIN_US : Fld := ⟨0, 24⟩
abbrev WDT_EVENT_WARN : Fld := ⟨0, 1⟩
abbrev WDT_EVENT_WAKE : Fld := ⟨1, 1⟩
abbrev WDT_SERVICES_COUNT : Fld := ⟨0, 32⟩
abbrev PCX_LINK_DL_UP : Fld := ⟨0, 1⟩
abbrev PCX_LINK_SPEED : Fld := ⟨4, 4⟩
abbrev PCX_LINK_WIDTH : Fld := ⟨8, 6⟩
abbrev PCX_LINK_BME : Fld := ⟨16, 1⟩
abbrev PCX_LINK_DSTATE : Fld := ⟨17, 2⟩
abbrev PCX_LINK_EVENT_DL_UP : Fld := ⟨0, 1⟩
abbrev PCX_LINK_EVENT_DL_DOWN : Fld := ⟨1, 1⟩
abbrev PCX_LINK_EVENT_PERST : Fld := ⟨2, 1⟩
abbrev PCX_LINK_EVENT_FLR : Fld := ⟨3, 1⟩
abbrev PCX_LINK_EVENT_SPEED_CHG : Fld := ⟨4, 1⟩
abbrev PCX_LINK_EVENT_WIDTH_CHG : Fld := ⟨5, 1⟩
abbrev PCX_HOSTLOSS_ACTIVE : Fld := ⟨0, 1⟩
abbrev PCX_HOSTLOSS_KIND : Fld := ⟨1, 3⟩
abbrev PCX_HOSTLOSS_FIELD_HELD : Fld := ⟨4, 1⟩
abbrev PCX_HOSTLOSS_COUNT : Fld := ⟨8, 8⟩
abbrev PCX_HOSTLOSS_DISCARDED : Fld := ⟨16, 16⟩
abbrev PCX_HOSTLOSS_CTRL_RELEASE : Fld := ⟨0, 1⟩
abbrev PCX_HOSTLOSS_TS_LO_TS : Fld := ⟨0, 32⟩
abbrev PCX_HOSTLOSS_TS_HI_TS : Fld := ⟨0, 32⟩
abbrev PCX_AEL_COUNT_COUNT : Fld := ⟨0, 16⟩
abbrev PCX_AEL_COUNT_EVENT : Fld := ⟨16, 1⟩
abbrev PCX_AEL_FIRST_ADDR_OFFSET : Fld := ⟨0, 25⟩
abbrev PCX_AEL_FIRST_INFO_REASON : Fld := ⟨0, 5⟩
abbrev PCX_AEL_FIRST_INFO_WRITE : Fld := ⟨5, 1⟩
abbrev PCX_AEL_FIRST_INFO_SPACE : Fld := ⟨6, 2⟩
abbrev PCX_AEL_FIRST_INFO_BYTE_EN : Fld := ⟨8, 4⟩
abbrev PCX_AEL_LAST_ADDR_OFFSET : Fld := ⟨0, 25⟩
abbrev PCX_AEL_LAST_INFO_REASON : Fld := ⟨0, 5⟩
abbrev PCX_AEL_LAST_INFO_WRITE : Fld := ⟨5, 1⟩
abbrev PCX_AEL_LAST_INFO_SPACE : Fld := ⟨6, 2⟩
abbrev PCX_AEL_LAST_INFO_BYTE_EN : Fld := ⟨8, 4⟩
abbrev PCX_AEL_CTRL_CLEAR : Fld := ⟨0, 1⟩
abbrev SSP_CFG_DUMMY : Fld := ⟨0, 3⟩
abbrev SSP_STATUS_STATUS : Fld := ⟨0, 8⟩
abbrev SSP_STATUS_WFIFO : Fld := ⟨8, 5⟩
abbrev SSP_ERR0_PARTIAL : Fld := ⟨0, 8⟩
abbrev SSP_ERR0_SHORT : Fld := ⟨8, 8⟩
abbrev SSP_ERR0_BAD_CMD : Fld := ⟨16, 8⟩
abbrev SSP_ERR0_READ_LATE : Fld := ⟨24, 8⟩
abbrev SSP_ERR1_OVERFLOW : Fld := ⟨0, 8⟩
abbrev SSP_ERR_CLR_CLEAR : Fld := ⟨0, 1⟩
abbrev SSP_AEL_COUNT_COUNT : Fld := ⟨0, 16⟩
abbrev SSP_AEL_COUNT_EVENT : Fld := ⟨16, 1⟩
abbrev SSP_AEL_FIRST_ADDR_OFFSET : Fld := ⟨0, 25⟩
abbrev SSP_AEL_FIRST_INFO_REASON : Fld := ⟨0, 5⟩
abbrev SSP_AEL_FIRST_INFO_WRITE : Fld := ⟨5, 1⟩
abbrev SSP_AEL_FIRST_INFO_SPACE : Fld := ⟨6, 2⟩
abbrev SSP_AEL_FIRST_INFO_BYTE_EN : Fld := ⟨8, 4⟩
abbrev SSP_AEL_LAST_ADDR_OFFSET : Fld := ⟨0, 25⟩
abbrev SSP_AEL_LAST_INFO_REASON : Fld := ⟨0, 5⟩
abbrev SSP_AEL_LAST_INFO_WRITE : Fld := ⟨5, 1⟩
abbrev SSP_AEL_LAST_INFO_SPACE : Fld := ⟨6, 2⟩
abbrev SSP_AEL_LAST_INFO_BYTE_EN : Fld := ⟨8, 4⟩
abbrev SSP_AEL_CTRL_CLEAR : Fld := ⟨0, 1⟩
abbrev BSP_STATUS_BUSY : Fld := ⟨0, 1⟩
abbrev BSP_STATUS_DIR_OK : Fld := ⟨1, 1⟩
abbrev BSP_STATUS_CHART_SLOT : Fld := ⟨2, 2⟩
abbrev BSP_STATUS_RECORD_FAIL : Fld := ⟨4, 1⟩
abbrev BSP_STATUS_RECORD_SLOT : Fld := ⟨5, 5⟩
abbrev BSP_OP_OP : Fld := ⟨0, 2⟩
abbrev BSP_ADDR_ADDR : Fld := ⟨0, 24⟩
abbrev BSP_LEN_LEN : Fld := ⟨0, 9⟩
abbrev BSP_RESULT_CODE : Fld := ⟨0, 2⟩
abbrev BSP_EVENT_DONE : Fld := ⟨0, 1⟩
abbrev BSP_BUF_DATA : Fld := ⟨0, 32⟩
abbrev HZ_STATUS_STATE : Fld := ⟨0, 3⟩
abbrev HZ_STATUS_FS_HOLD : Fld := ⟨3, 1⟩
abbrev HZ_STATUS_FAIL_STEP : Fld := ⟨4, 4⟩
abbrev HZ_STATUS_LAST_SHORT : Fld := ⟨8, 1⟩
abbrev HZ_STATUS_TRAIN_TIME_US : Fld := ⟨16, 16⟩
abbrev HZ_CTRL_AUTO_TRAIN : Fld := ⟨0, 1⟩
abbrev HZ_CTRL_RETRAIN : Fld := ⟨1, 1⟩
abbrev HZ_EVENT_LOSS : Fld := ⟨0, 1⟩
abbrev HZ_EVENT_TRAINED : Fld := ⟨1, 1⟩
abbrev HZ_EVENT_TRAIN_FAIL : Fld := ⟨2, 1⟩
abbrev HZ_EVENT_TRAIN_WAIT : Fld := ⟨3, 1⟩
abbrev HZ_EVENT_PHASE_LIMIT : Fld := ⟨4, 1⟩
abbrev HZ_EVENT_GC_UNACKED : Fld := ⟨5, 1⟩
abbrev HZ_EVENT_STAGE_FAIL : Fld := ⟨6, 1⟩
abbrev HZ_EVENT_RELAY_TIMEOUT : Fld := ⟨7, 1⟩
abbrev HZ_EVENT_SER_DROP : Fld := ⟨8, 1⟩
abbrev HZ_EVENT_ATTN : Fld := ⟨9, 1⟩
abbrev HZ_BAD_RX_COUNT : Fld := ⟨0, 32⟩
abbrev HZ_BAD_TX_COUNT : Fld := ⟨0, 32⟩
abbrev HZ_LOSS_COUNT : Fld := ⟨0, 16⟩
abbrev HZ_PHASE_OFFSET_PS : Fld := ⟨0, 16⟩
abbrev HZ_PHASE_CODE : Fld := ⟨16, 6⟩
abbrev HZ_GC_ACKED : Fld := ⟨0, 32⟩
abbrev HZ_GC_ERR_UNACKED : Fld := ⟨0, 16⟩
abbrev HZ_GC_ERR_STAGE_FAIL : Fld := ⟨16, 16⟩
abbrev HZ_RELAY_ERR_TIMEOUT : Fld := ⟨0, 8⟩
abbrev HZ_RELAY_ERR_RETRY : Fld := ⟨8, 8⟩
abbrev HZ_RELAY_ERR_ADDR : Fld := ⟨16, 16⟩
abbrev HZ_CNT_CLR_CLEAR : Fld := ⟨0, 1⟩
abbrev HZ_SER_TX_BYTE : Fld := ⟨0, 8⟩
abbrev HZ_SER_TXW_BYTES : Fld := ⟨0, 32⟩
abbrev HZ_SER_RX_BYTE : Fld := ⟨0, 8⟩
abbrev HZ_SER_RX_VALID : Fld := ⟨8, 1⟩
abbrev HZ_SER_RXW_BYTES : Fld := ⟨0, 32⟩
abbrev HZ_SER_STATUS_TX_LEVEL : Fld := ⟨0, 7⟩
abbrev HZ_SER_STATUS_RX_LEVEL : Fld := ⟨8, 7⟩
abbrev HZ_SER_STATUS_CREDIT : Fld := ⟨16, 7⟩
abbrev HZ_SER_ERR_TX_DROP : Fld := ⟨0, 8⟩
abbrev HZ_SER_ERR_RX_DROP : Fld := ⟨8, 8⟩
abbrev HZ_FIELD_ATTN_ATTN : Fld := ⟨0, 32⟩
abbrev HZ_MIRO_OUT_OUT : Fld := ⟨0, 12⟩
abbrev HZ_MIRI_IN : Fld := ⟨0, 12⟩
abbrev HZ_MIRI_VALID : Fld := ⟨31, 1⟩
abbrev HZ_MIRI_RISE_RISE : Fld := ⟨0, 12⟩
abbrev HZ_MIRI_FALL_FALL : Fld := ⟨0, 12⟩
abbrev HZ_MIRO_MAP_SOURCE : Fld := ⟨0, 2⟩
abbrev HZ_MIRO_MAP_INDEX : Fld := ⟨8, 4⟩
abbrev HZ_MIRO_MAP_SAFE_LEVEL : Fld := ⟨16, 1⟩
abbrev HZ_MIRI_MAP_FILTER_BEATS : Fld := ⟨0, 3⟩
abbrev CP_STATE_STATE : Fld := ⟨0, 3⟩
abbrev CP_STATE_STEP : Fld := ⟨4, 4⟩
abbrev CP_STATE_PREC : Fld := ⟨8, 1⟩
abbrev CP_STATE_ALIGNED : Fld := ⟨9, 3⟩
abbrev CP_STATE_PRES : Fld := ⟨12, 1⟩
abbrev CP_STATE_TX_RESETTLE : Fld := ⟨13, 1⟩
abbrev CP_CTRL_RETRAIN : Fld := ⟨0, 1⟩
abbrev CP_CTRL_CNT_FREEZE : Fld := ⟨1, 1⟩
abbrev CP_CFG_RETRIES : Fld := ⟨0, 4⟩
abbrev CP_CFG_LINE_TIMEOUT_US : Fld := ⟨8, 12⟩
abbrev CP_TRAIN_CAUSE : Fld := ⟨0, 4⟩
abbrev CP_TRAIN_ATTEMPTS : Fld := ⟨4, 4⟩
abbrev CP_TRAIN_DETAIL : Fld := ⟨8, 8⟩
abbrev CP_TRAIN_TIME_US : Fld := ⟨16, 16⟩
abbrev CP_EVENT_TRAINED : Fld := ⟨0, 1⟩
abbrev CP_EVENT_TRAIN_FAIL : Fld := ⟨1, 1⟩
abbrev CP_EVENT_IN_SERVICE : Fld := ⟨2, 1⟩
abbrev CP_EVENT_OUT_OF_SERVICE : Fld := ⟨3, 1⟩
abbrev CP_EVENT_PRESENCE : Fld := ⟨4, 1⟩
abbrev CP_EVENT_LANE_REJOIN : Fld := ⟨5, 1⟩
abbrev CP_EVENT_HC_DONE : Fld := ⟨6, 1⟩
abbrev CP_EVENT_HEAD_EVENT : Fld := ⟨7, 1⟩
abbrev CP_EVENT_TRQ_LATE : Fld := ⟨8, 1⟩
abbrev CP_EVENT_ERR : Fld := ⟨9, 1⟩
abbrev CP_SKEW_RX0 : Fld := ⟨0, 8⟩
abbrev CP_SKEW_RX1 : Fld := ⟨8, 8⟩
abbrev CP_SKEW_RX2 : Fld := ⟨16, 8⟩
abbrev CP_SKEW_MAX : Fld := ⟨24, 8⟩
abbrev CP_HEAD_ID_ID : Fld := ⟨0, 32⟩
abbrev CP_HEAD_CAPS_MODES : Fld := ⟨0, 3⟩
abbrev CP_HC_CMD_OP : Fld := ⟨0, 2⟩
abbrev CP_HC_ADDR_ADDR : Fld := ⟨0, 16⟩
abbrev CP_HC_WDATA_DATA : Fld := ⟨0, 32⟩
abbrev CP_HC_RDATA_DATA : Fld := ⟨0, 32⟩
abbrev CP_HC_STATUS_BUSY : Fld := ⟨0, 1⟩
abbrev CP_HC_STATUS_RESULT : Fld := ⟨1, 3⟩
abbrev CP_HC_STATUS_TAG : Fld := ⟨8, 4⟩
abbrev CP_HEAD_EVENT_CODE : Fld := ⟨0, 16⟩
abbrev CP_HEAD_EVENT_COUNT : Fld := ⟨16, 8⟩
abbrev CP_HEAD_DETAIL_DETAIL : Fld := ⟨0, 32⟩
abbrev CP_TRQ_LEVEL : Fld := ⟨0, 4⟩
abbrev CP_TRQ_MAX : Fld := ⟨4, 4⟩
abbrev CP_TRQ_LATE : Fld := ⟨8, 16⟩
abbrev CP_FIFO_LEVEL : Fld := ⟨0, 18⟩
abbrev CP_CV_RX0 : Fld := ⟨0, 8⟩
abbrev CP_CV_RX1 : Fld := ⟨8, 8⟩
abbrev CP_CV_RX2 : Fld := ⟨16, 8⟩
abbrev CP_CV_IDLE_ERR : Fld := ⟨24, 8⟩
abbrev CP_MARK_ERR_RX0 : Fld := ⟨0, 8⟩
abbrev CP_MARK_ERR_RX1 : Fld := ⟨8, 8⟩
abbrev CP_MARK_ERR_RX2 : Fld := ⟨16, 8⟩
abbrev CP_MARK_ERR_SKEW : Fld := ⟨24, 8⟩
abbrev CP_PKT_ERR_HDR_CRC : Fld := ⟨0, 8⟩
abbrev CP_PKT_ERR_PAY_CRC : Fld := ⟨8, 8⟩
abbrev CP_PKT_ERR_NPIX : Fld := ⟨16, 8⟩
abbrev CP_PKT_ERR_UNEXPECTED : Fld := ⟨24, 8⟩
abbrev CP_LINE_ERR_MISSING : Fld := ⟨0, 16⟩
abbrev CP_LINE_ERR_FIFO_DROP : Fld := ⟨16, 16⟩
abbrev CP_SVC_CNT_OUT : Fld := ⟨0, 8⟩
abbrev CP_SVC_CNT_PORT_REJOIN : Fld := ⟨8, 8⟩
abbrev CP_SVC_CNT_LANE_REJOIN : Fld := ⟨16, 8⟩
abbrev CP_SVC_CNT_TRAIN_FAIL : Fld := ⟨24, 8⟩
abbrev CP_LINES_COUNT : Fld := ⟨0, 32⟩
abbrev CP_CNT_CLR_CLEAR : Fld := ⟨0, 1⟩
abbrev LN_CFG_ROLE : Fld := ⟨0, 2⟩
abbrev LN_CFG_REF_MODE : Fld := ⟨2, 1⟩
abbrev LN_CFG_POLARITY_INVERT : Fld := ⟨3, 1⟩
abbrev LN_CFG_PRECODE_ALLOWED : Fld := ⟨4, 1⟩
abbrev LN_CFG_CTLE_INIT : Fld := ⟨8, 5⟩
abbrev LN_CFG_REVERT : Fld := ⟨16, 8⟩
abbrev LN_CFG_AMPLITUDE : Fld := ⟨24, 2⟩
abbrev LN_STATE_STATE : Fld := ⟨0, 3⟩
abbrev LN_STATE_LOCK : Fld := ⟨3, 1⟩
abbrev LN_STATE_PRECODE : Fld := ⟨4, 1⟩
abbrev LN_STATE_CLK_OK : Fld := ⟨5, 1⟩
abbrev LN_STATE_TRIAL : Fld := ⟨6, 1⟩
abbrev LN_STATE_CTLE : Fld := ⟨8, 5⟩
abbrev LN_EVENT_EFM_LOW : Fld := ⟨0, 1⟩
abbrev LN_EVENT_TAP_SAT : Fld := ⟨1, 1⟩
abbrev LN_EVENT_CDR_LOSS : Fld := ⟨2, 1⟩
abbrev LN_EVENT_RELOCKED : Fld := ⟨3, 1⟩
abbrev LN_EVENT_ACQ_DONE : Fld := ⟨4, 1⟩
abbrev LN_EVENT_ACQ_FAIL : Fld := ⟨5, 1⟩
abbrev LN_EVENT_CLK_LOSS : Fld := ⟨6, 1⟩
abbrev LN_EVENT_SYN_LOCK_LOST : Fld := ⟨7, 1⟩
abbrev LN_EVENT_SYN_TIMEOUT : Fld := ⟨8, 1⟩
abbrev LN_EVENT_CAL_FAIL : Fld := ⟨9, 1⟩
abbrev LN_EVENT_CAL_REFUSED : Fld := ⟨10, 1⟩
abbrev LN_CTRL_ADAPT_HOLD : Fld := ⟨0, 1⟩
abbrev LN_CTRL_CNT_FREEZE : Fld := ⟨1, 1⟩
abbrev LN_EFM_LAST : Fld := ⟨0, 8⟩
abbrev LN_EFM_BASE : Fld := ⟨8, 8⟩
abbrev LN_EFM_MIN : Fld := ⟨16, 8⟩
abbrev LN_EFM_LAST_REVERTED : Fld := ⟨24, 1⟩
abbrev LN_EFM_LOW_THRESHOLD : Fld := ⟨0, 8⟩
abbrev LN_TAPS0_H1 : Fld := ⟨0, 7⟩
abbrev LN_TAPS0_H2 : Fld := ⟨8, 6⟩
abbrev LN_TAPS0_H3 : Fld := ⟨16, 6⟩
abbrev LN_TAPS0_H4 : Fld := ⟨24, 6⟩
abbrev LN_TAPS1_H5 : Fld := ⟨0, 6⟩
abbrev LN_TAPS1_AMP : Fld := ⟨8, 8⟩
abbrev LN_CNT0_REVERTS : Fld := ⟨0, 16⟩
abbrev LN_CNT0_EFM_LOW_EPOCHS : Fld := ⟨16, 16⟩
abbrev LN_CNT1_CDR_LOSS : Fld := ⟨0, 8⟩
abbrev LN_CNT1_TAP_SAT : Fld := ⟨8, 8⟩
abbrev LN_CNT1_SYN_LOSS : Fld := ⟨16, 8⟩
abbrev LN_CNT1_ACQ_FAIL : Fld := ⟨24, 8⟩
abbrev LN_CNT_CLR_CLEAR : Fld := ⟨0, 1⟩
abbrev LN_ACQ_RESULT : Fld := ⟨0, 3⟩
abbrev LN_ACQ_CTLE : Fld := ⟨8, 5⟩
abbrev LN_ACQ_EFM : Fld := ⟨16, 8⟩
abbrev LN_ACQ_TIME : Fld := ⟨24, 8⟩
abbrev LN_CAL_DONE : Fld := ⟨0, 1⟩
abbrev LN_CAL_FAIL : Fld := ⟨1, 1⟩
abbrev LN_CAL_RECAL : Fld := ⟨8, 1⟩
abbrev LN_SYN_SETTLE_US : Fld := ⟨0, 16⟩
abbrev LN_SYN_CAL_COUNT : Fld := ⟨16, 8⟩
abbrev LN_EPOCH_COUNT : Fld := ⟨0, 32⟩
abbrev ACQ_FN_CFG_TRIGGER : Fld := ⟨0, 8⟩
abbrev ACQ_FN_CFG_OPEN_SOURCE : Fld := ⟨8, 2⟩
abbrev ACQ_FN_CFG_OPEN_EDGE : Fld := ⟨10, 1⟩
abbrev ACQ_FN_CFG_OPEN_INDEX : Fld := ⟨16, 8⟩
abbrev ACQ_FN_CFG_STRIPE_LINES : Fld := ⟨24, 7⟩
abbrev ACQ_FN_CTRL_DEG_VERDICT : Fld := ⟨0, 1⟩
abbrev ACQ_FN_CTRL_LATE_DEGRADES : Fld := ⟨1, 1⟩
abbrev ACQ_FN_CTRL_FILL : Fld := ⟨8, 8⟩
abbrev ACQ_FN_MAX_LEN_COUNTS : Fld := ⟨0, 32⟩
abbrev ACQ_FN_CLOSE_POS_COUNTS : Fld := ⟨0, 32⟩
abbrev ACQ_FN_REV_HYST_COUNTS : Fld := ⟨0, 16⟩
abbrev ACQ_FN_TIMER_LEN_LINES : Fld := ⟨0, 32⟩
abbrev ACQ_FN_TIMER_GAP_LINES : Fld := ⟨0, 32⟩
abbrev ACQ_FN_LAST_TID_TID : Fld := ⟨0, 32⟩
abbrev ACQ_FN_LAST_LEP_LEP : Fld := ⟨0, 32⟩
abbrev ACQ_FN_CNT0_OPENED : Fld := ⟨0, 32⟩
abbrev ACQ_FN_CNT1_DEGRADED : Fld := ⟨0, 16⟩
abbrev ACQ_FN_CNT1_REVERSED : Fld := ⟨16, 16⟩
abbrev ACQ_FN_CNT2_MAX_LEN : Fld := ⟨0, 16⟩
abbrev ACQ_FN_CNT2_LATE_LINES : Fld := ⟨16, 16⟩
abbrev ACQ_FN_EVENT_OPENED : Fld := ⟨0, 1⟩
abbrev ACQ_FN_EVENT_CLOSED : Fld := ⟨1, 1⟩
abbrev ACQ_FN_EVENT_DEGRADED : Fld := ⟨2, 1⟩
abbrev ACQ_FN_EVENT_REVERSED : Fld := ⟨3, 1⟩
abbrev ACQ_FN_EVENT_MAX_LEN : Fld := ⟨4, 1⟩
abbrev ACQ_FN_CNT_CLR_CLEAR : Fld := ⟨0, 1⟩
abbrev ACQ_FN_SLOT_TID_TID : Fld := ⟨0, 32⟩
abbrev ACQ_FN_SLOT_LEP_LEP : Fld := ⟨0, 32⟩
abbrev ACQ_TID_NEXT_TID : Fld := ⟨0, 32⟩
abbrev LTG_P_CFG_RATIO_LINES : Fld := ⟨0, 16⟩
abbrev LTG_P_CFG_RATIO_COUNTS : Fld := ⟨16, 16⟩
abbrev LTG_P_MERIDIAN_MERIDIAN : Fld := ⟨0, 32⟩
abbrev LTG_P_TRIM_TRIM : Fld := ⟨0, 32⟩
abbrev LTG_P_DECIM_DX : Fld := ⟨0, 5⟩
abbrev LTG_P_DECIM_DY : Fld := ⟨8, 5⟩
abbrev LTG_P_DECIM_FN : Fld := ⟨16, 3⟩
abbrev LTG_P_DECIM_VALID : Fld := ⟨31, 1⟩
abbrev LTG_P_STATUS_ACTIVE : Fld := ⟨0, 1⟩
abbrev LTG_P_STATUS_SLOT : Fld := ⟨4, 4⟩
abbrev LTG_P_STATUS_LINE : Fld := ⟨16, 16⟩
abbrev LTG_P_ACC_ACC : Fld := ⟨0, 32⟩
abbrev LTG_P_TRIGGERS_COUNT : Fld := ⟨0, 32⟩
abbrev LTG_P_SKIP_SKIPPED : Fld := ⟨0, 16⟩
abbrev LTG_P_SKIP_UNSERVED : Fld := ⟨16, 16⟩
abbrev LTG_P_ERR_OVERRATE : Fld := ⟨0, 16⟩
abbrev LTG_P_ERR_OVERLAP : Fld := ⟨16, 8⟩
abbrev LTG_P_EVENT_SKIP : Fld := ⟨0, 1⟩
abbrev LTG_P_EVENT_UNSERVED : Fld := ⟨1, 1⟩
abbrev LTG_P_EVENT_OVERRATE : Fld := ⟨2, 1⟩
abbrev LTG_P_EVENT_OVERLAP : Fld := ⟨3, 1⟩
abbrev LTG_P_CNT_CLR_CLEAR : Fld := ⟨0, 1⟩
abbrev LTG_TMR_PERIOD_CYCLES : Fld := ⟨0, 32⟩
abbrev LTG_TMR_COUNT_COUNT : Fld := ⟨0, 32⟩
abbrev STS_USED_BYTES : Fld := ⟨0, 25⟩
abbrev STS_ECC_CORR : Fld := ⟨0, 16⟩
abbrev STS_ECC_UNCORR : Fld := ⟨16, 8⟩
abbrev STS_ECC_ADDR_ADDR : Fld := ⟨3, 21⟩
abbrev STS_EVENT_CORR : Fld := ⟨0, 1⟩
abbrev STS_EVENT_UNCORR : Fld := ⟨1, 1⟩
abbrev STS_CNT_CLR_CLEAR : Fld := ⟨0, 1⟩
abbrev STS_BAND_BASE_BASE : Fld := ⟨12, 12⟩
abbrev STS_BAND_BASE_VALID : Fld := ⟨31, 1⟩
abbrev STS_BAND_INFO_SIZE : Fld := ⟨0, 13⟩
abbrev STS_BAND_INFO_FN : Fld := ⟨16, 3⟩
abbrev STS_BAND_INFO_KIND : Fld := ⟨20, 2⟩
abbrev STS_BAND_INFO_PORT : Fld := ⟨24, 2⟩
abbrev E_STATUS_BUSY : Fld := ⟨0, 1⟩
abbrev E_STATUS_FENCED : Fld := ⟨1, 1⟩
abbrev E_STATUS_HELD : Fld := ⟨2, 1⟩
abbrev E_STATUS_FN : Fld := ⟨4, 3⟩
abbrev E_STATUS_STEP : Fld := ⟨8, 12⟩
abbrev E_STATUS_SLOT : Fld := ⟨20, 4⟩
abbrev E_JOB_STRIPE : Fld := ⟨0, 16⟩
abbrev E_JOB_TID_TID : Fld := ⟨0, 32⟩
abbrev E_QUEUE_READY : Fld := ⟨0, 8⟩
abbrev E_LAST_CYCLES_CYCLES : Fld := ⟨0, 32⟩
abbrev E_MAX_CYCLES_CYCLES : Fld := ⟨0, 32⟩
abbrev E_MAX_STEP_STEP : Fld := ⟨0, 12⟩
abbrev E_MAX_STEP_FN : Fld := ⟨16, 3⟩
abbrev E_JOBS_COUNT : Fld := ⟨0, 32⟩
abbrev E_ECC_LB_CORR : Fld := ⟨0, 8⟩
abbrev E_ECC_LB_UNCORR : Fld := ⟨8, 8⟩
abbrev E_ECC_WS_CORR : Fld := ⟨16, 8⟩
abbrev E_ECC_WS_UNCORR : Fld := ⟨24, 8⟩
abbrev E_ECC_ADDR_ADDR : Fld := ⟨3, 21⟩
abbrev E_ECC_ADDR_MEM : Fld := ⟨31, 1⟩
abbrev E_EVENT_ECC_CORR : Fld := ⟨0, 1⟩
abbrev E_EVENT_ECC_UNCORR : Fld := ⟨1, 1⟩
abbrev E_EVENT_EMPTY : Fld := ⟨2, 1⟩
abbrev E_EVENT_SERVICE : Fld := ⟨3, 1⟩
abbrev E_CNT_CLR_CLEAR : Fld := ⟨0, 1⟩
abbrev E_BUSY_LO_CYCLES : Fld := ⟨0, 32⟩
abbrev E_BUSY_HI_CYCLES : Fld := ⟨0, 32⟩
abbrev PST_STATUS_BUSY : Fld := ⟨0, 1⟩
abbrev PST_STATUS_FENCED : Fld := ⟨1, 1⟩
abbrev PST_STATUS_HELD : Fld := ⟨2, 1⟩
abbrev PST_STATUS_FN : Fld := ⟨4, 3⟩
abbrev PST_STATUS_STEP : Fld := ⟨8, 12⟩
abbrev PST_STATUS_SLOT : Fld := ⟨20, 4⟩
abbrev PST_JOB_TID_TID : Fld := ⟨0, 32⟩
abbrev PST_LAST_CYCLES_CYCLES : Fld := ⟨0, 32⟩
abbrev PST_JOBS_COUNT : Fld := ⟨0, 32⟩
abbrev PST_CAND_OVF : Fld := ⟨0, 16⟩
abbrev PST_EVENT_EMPTY : Fld := ⟨0, 1⟩
abbrev PST_EVENT_CAND_OVF : Fld := ⟨1, 1⟩
abbrev PST_EVENT_SERVICE : Fld := ⟨2, 1⟩
abbrev PST_CNT_CLR_CLEAR : Fld := ⟨0, 1⟩
abbrev VRD_FN_CFG_INSTANCE : Fld := ⟨0, 4⟩
abbrev VRD_FN_CFG_VALID : Fld := ⟨8, 1⟩
abbrev VRD_FN_CFG_RULE_COUNT : Fld := ⟨16, 7⟩
abbrev VRD_FN_DP_DECISION_POINT : Fld := ⟨0, 32⟩
abbrev VRD_FN_LAST_CODE : Fld := ⟨0, 8⟩
abbrev VRD_FN_LAST_ISSUE : Fld := ⟨8, 3⟩
abbrev VRD_FN_LAST_TID_TID : Fld := ⟨0, 32⟩
abbrev VRD_FN_SLACK_SLACK : Fld := ⟨0, 32⟩
abbrev VRD_FN_MIN_SLACK_SLACK : Fld := ⟨0, 32⟩
abbrev VRD_FN_SLACK_LOW_THRESHOLD : Fld := ⟨0, 32⟩
abbrev VRD_FN_CNT0_ON_TIME : Fld := ⟨0, 16⟩
abbrev VRD_FN_CNT0_NO_MATCH : Fld := ⟨16, 16⟩
abbrev VRD_FN_CNT1_DEG_DEFAULT : Fld := ⟨0, 16⟩
abbrev VRD_FN_CNT1_NONE : Fld := ⟨16, 16⟩
abbrev VRD_FN_EVENT_VERDICT : Fld := ⟨0, 1⟩
abbrev VRD_FN_EVENT_LATE : Fld := ⟨1, 1⟩
abbrev VRD_FN_EVENT_NO_MATCH : Fld := ⟨2, 1⟩
abbrev VRD_FN_EVENT_LOW_SLACK : Fld := ⟨3, 1⟩
abbrev VRD_FN_EVENT_DEG_DEFAULT : Fld := ⟨4, 1⟩
abbrev VRD_FN_CNT_CLR_CLEAR : Fld := ⟨0, 1⟩
abbrev VRD_HIT_CLR_INSTANCE : Fld := ⟨0, 16⟩
abbrev VRD_HIT_COUNT : Fld := ⟨0, 32⟩
abbrev DLV_CTRL_ENABLE : Fld := ⟨0, 1⟩
abbrev DLV_CTRL_MODE : Fld := ⟨1, 1⟩
abbrev DLV_CTRL_IRQ_ON_RESULT : Fld := ⟨2, 1⟩
abbrev DLV_STATUS_ENABLED : Fld := ⟨0, 1⟩
abbrev DLV_STATUS_GATED : Fld := ⟨1, 1⟩
abbrev DLV_STATUS_BP_SUSPENDED : Fld := ⟨2, 1⟩
abbrev DLV_STATUS_BOUND : Fld := ⟨8, 8⟩
abbrev DLV_DESC_SIZE_LOG2 : Fld := ⟨0, 4⟩
abbrev DLV_WIN_SIZE_KIB : Fld := ⟨0, 21⟩
abbrev DLV_PROD_INDEX : Fld := ⟨0, 32⟩
abbrev DLV_CONS_INDEX : Fld := ⟨0, 32⟩
abbrev DLV_ALLOC_INDEX : Fld := ⟨0, 32⟩
abbrev DLV_WIN_WP_OFFSET : Fld := ⟨0, 30⟩
abbrev DLV_FILTER_SIDE_MASK : Fld := ⟨0, 2⟩
abbrev DLV_FILTER_PORT_MASK : Fld := ⟨8, 4⟩
abbrev DLV_FILTER_CHANNEL_MASK : Fld := ⟨16, 8⟩
abbrev DLV_FILTER_OBJECTS : Fld := ⟨24, 3⟩
abbrev DLV_CROP_X_X0 : Fld := ⟨0, 16⟩
abbrev DLV_CROP_X_WIDTH : Fld := ⟨16, 16⟩
abbrev DLV_CROP_Y_Y0 : Fld := ⟨0, 16⟩
abbrev DLV_CROP_Y_HEIGHT : Fld := ⟨16, 16⟩
abbrev DLV_IRQ_COUNT : Fld := ⟨0, 16⟩
abbrev DLV_IRQ_TIME_US : Fld := ⟨16, 16⟩
abbrev DLV_HOLD_MAX : Fld := ⟨0, 12⟩
abbrev DLV_HOLD_HELD : Fld := ⟨16, 12⟩
abbrev DLV_BP_LIMIT_US : Fld := ⟨0, 16⟩
abbrev DLV_EVENT_DROP : Fld := ⟨0, 1⟩
abbrev DLV_EVENT_BP_TIMEOUT : Fld := ⟨1, 1⟩
abbrev DLV_EVENT_TOO_BIG : Fld := ⟨2, 1⟩
abbrev DLV_EVENT_HOLD_FULL : Fld := ⟨3, 1⟩
abbrev DLV_EVENT_CONS_ERR : Fld := ⟨4, 1⟩
abbrev DLV_EVENT_CONFIG : Fld := ⟨5, 1⟩
abbrev DLV_EVENT_EN_EN : Fld := ⟨0, 6⟩
abbrev DLV_CNT_OBJ_COUNT : Fld := ⟨0, 32⟩
abbrev DLV_CNT_DROP_COUNT : Fld := ⟨0, 32⟩
abbrev DLV_CNT_VOID_COUNT : Fld := ⟨0, 32⟩
abbrev DLV_CNT_CLR_CLEAR : Fld := ⟨0, 1⟩
abbrev DLV_DESC_BASE_LO_ADDR : Fld := ⟨0, 32⟩
abbrev DLV_DESC_BASE_HI_ADDR : Fld := ⟨0, 32⟩
abbrev DLV_WIN_BASE_LO_ADDR : Fld := ⟨0, 32⟩
abbrev DLV_WIN_BASE_HI_ADDR : Fld := ⟨0, 32⟩
abbrev DLV_VMASK_LO_VERDICT_MASK : Fld := ⟨0, 32⟩
abbrev DLV_VMASK_HI_VERDICT_MASK : Fld := ⟨0, 32⟩
abbrev DLV_BYTES_LO_BYTES : Fld := ⟨0, 32⟩
abbrev DLV_BYTES_HI_BYTES : Fld := ⟨0, 32⟩
abbrev DLV_CLASS_CLASS : Fld := ⟨0, 32⟩
abbrev EVT_MAP_VECTOR : Fld := ⟨0, 9⟩
abbrev EVT_MAP_ENABLE : Fld := ⟨15, 1⟩
abbrev EVT_SRC_ASSERTED : Fld := ⟨0, 32⟩
abbrev EVT_VMASK_MASK : Fld := ⟨0, 32⟩
abbrev EVT_VPEND_PEND : Fld := ⟨0, 32⟩
abbrev EVT_PULSE_WAKE_DONE : Fld := ⟨0, 1⟩
abbrev EVT_PULSE_HOSTLOSS : Fld := ⟨1, 1⟩
abbrev DLV_POOL_USED : Fld := ⟨0, 12⟩
abbrev DLV_POOL_PEAK : Fld := ⟨16, 12⟩
abbrev BIST_STATUS_RUNNING : Fld := ⟨0, 1⟩
abbrev BIST_STATUS_PHASE : Fld := ⟨1, 2⟩
abbrev BIST_STATUS_REC_INTACT : Fld := ⟨3, 1⟩
abbrev BIST_STATUS_SHORT_BUDGET : Fld := ⟨4, 1⟩
abbrev BIST_STATUS_LOGIC_WAIT : Fld := ⟨5, 1⟩
abbrev BIST_STATUS_DONE : Fld := ⟨6, 6⟩
abbrev BIST_STATUS_PEAK_10MW : Fld := ⟨16, 11⟩
abbrev BIST_CAP_CAP : Fld := ⟨0, 11⟩
abbrev BIST_BUDGET_US : Fld := ⟨0, 16⟩
abbrev BIST_RETEST_SLICE : Fld := ⟨0, 6⟩
abbrev BIST_RETEST_GO : Fld := ⟨8, 1⟩
abbrev BIST_RETEST_STATUS_BUSY : Fld := ⟨0, 1⟩
abbrev BIST_RETEST_STATUS_RESULT : Fld := ⟨1, 3⟩
abbrev BIST_RETEST_STATUS_REASON : Fld := ⟨4, 4⟩
abbrev BIST_EVENT_DONE : Fld := ⟨0, 1⟩
abbrev BIST_EVENT_FAIL : Fld := ⟨1, 1⟩
abbrev BIST_EVENT_RETEST_DONE : Fld := ⟨2, 1⟩
abbrev BIST_EVENT_FENCE_CHG : Fld := ⟨3, 1⟩
abbrev BIST_OPTIME_SECONDS : Fld := ⟨0, 32⟩
abbrev BIST_SAVE_UNCORR : Fld := ⟨0, 16⟩
abbrev BIST_LAST_US_US : Fld := ⟨0, 32⟩
abbrev BIST_FENCE_LO_FENCE : Fld := ⟨0, 32⟩
abbrev BIST_FENCE_HI_FENCE : Fld := ⟨0, 16⟩
abbrev BIST_UNFIN_LO_UNFIN : Fld := ⟨0, 32⟩
abbrev BIST_UNFIN_HI_UNFIN : Fld := ⟨0, 16⟩
abbrev BIST_RESULT_RESULT : Fld := ⟨0, 3⟩
abbrev BIST_RESULT_FENCED : Fld := ⟨3, 1⟩
abbrev BIST_RESULT_TIME_US : Fld := ⟨4, 16⟩
abbrev BIST_RESULT_SEGMENT : Fld := ⟨20, 4⟩
abbrev BIST_REC_WORD : Fld := ⟨0, 32⟩
abbrev CAS_STATUS_STATE : Fld := ⟨0, 3⟩
abbrev CAS_STATUS_ALIGNED : Fld := ⟨3, 1⟩
abbrev CAS_STATUS_CAUSE : Fld := ⟨4, 4⟩
abbrev CAS_STATUS_POSITION : Fld := ⟨8, 2⟩
abbrev CAS_STATUS_LENGTH : Fld := ⟨10, 2⟩
abbrev CAS_STATUS_VALID : Fld := ⟨16, 4⟩
abbrev CAS_CTRL_AUTO : Fld := ⟨0, 1⟩
abbrev CAS_CTRL_RELINK : Fld := ⟨1, 1⟩
abbrev CAS_EVENT_LINK_UP : Fld := ⟨0, 1⟩
abbrev CAS_EVENT_LINK_FAIL : Fld := ⟨1, 1⟩
abbrev CAS_EVENT_INPUT_LOSS : Fld := ⟨2, 1⟩
abbrev CAS_EVENT_RETURN_LOSS : Fld := ⟨3, 1⟩
abbrev CAS_EVENT_DRIFT : Fld := ⟨4, 1⟩
abbrev CAS_EVENT_TS_AHEAD : Fld := ⟨5, 1⟩
abbrev CAS_EVENT_MSG_DROP : Fld := ⟨6, 1⟩
abbrev CAS_EVENT_MSG_LOSS : Fld := ⟨7, 1⟩
abbrev CAS_EVENT_FN_MISMATCH : Fld := ⟨8, 1⟩
abbrev CAS_EVENT_EFM_LOW : Fld := ⟨9, 1⟩
abbrev CAS_RP_RP : Fld := ⟨0, 13⟩
abbrev CAS_RING_LINKUP : Fld := ⟨0, 16⟩
abbrev CAS_RING_NOW : Fld := ⟨16, 16⟩
abbrev CAS_CORR_CORR : Fld := ⟨0, 16⟩
abbrev CAS_TRIM_PS : Fld := ⟨0, 32⟩
abbrev CAS_TS_AHEAD_CYCLES : Fld := ⟨0, 16⟩
abbrev CAS_EFM_LAST : Fld := ⟨0, 8⟩
abbrev CAS_EFM_MIN : Fld := ⟨8, 8⟩
abbrev CAS_EFM_LOW_THRESHOLD : Fld := ⟨0, 8⟩
abbrev CAS_CNT_BAD : Fld := ⟨0, 16⟩
abbrev CAS_CNT_LOSS : Fld := ⟨16, 8⟩
abbrev CAS_CNT_MSG_LOSS : Fld := ⟨24, 8⟩
abbrev CAS_CNT_CLR_CLEAR : Fld := ⟨0, 1⟩
abbrev CAS_F_STATUS_WORD : Fld := ⟨0, 16⟩
abbrev CAS_F_STATUS_PRESENT : Fld := ⟨31, 1⟩
abbrev CAS_F_CORR_CORR : Fld := ⟨0, 16⟩
abbrev MIR_FIELD_ID_PART : Fld := ⟨0, 16⟩
abbrev MIR_FIELD_ID_MINOR : Fld := ⟨16, 4⟩
abbrev MIR_FIELD_ID_MAJOR : Fld := ⟨20, 4⟩
abbrev MIR_STATE_FAILSAFE : Fld := ⟨0, 1⟩
abbrev MIR_STATE_FS_CAUSE : Fld := ⟨1, 3⟩
abbrev MIR_STATE_DETECTOR : Fld := ⟨4, 1⟩
abbrev MIR_ATTN_ZEV_DROP : Fld := ⟨0, 1⟩
abbrev MIR_ATTN_BLOCK : Fld := ⟨8, 24⟩
abbrev MIR_BAD_BEATS_COUNT : Fld := ⟨0, 32⟩
abbrev MIR_PINS_MIRO : Fld := ⟨0, 12⟩
abbrev MIR_PINS_MIRI : Fld := ⟨16, 12⟩
abbrev PFI_CFG_MODE : Fld := ⟨0, 2⟩
abbrev PFI_CFG_FILTER : Fld := ⟨2, 2⟩
abbrev PFI_CFG_REF_KIND : Fld := ⟨4, 3⟩
abbrev PFI_CFG_DIR_INVERT : Fld := ⟨7, 1⟩
abbrev PFI_CFG_TEETH : Fld := ⟨16, 11⟩
abbrev PFI_POS_COUNT : Fld := ⟨0, 32⟩
abbrev PFI_STAT_FRAC : Fld := ⟨0, 8⟩
abbrev PFI_STAT_DIR : Fld := ⟨8, 1⟩
abbrev PFI_STAT_STANDSTILL : Fld := ⟨9, 1⟩
abbrev PFI_STAT_SYNC : Fld := ⟨10, 1⟩
abbrev PFI_SPEED_SPEED : Fld := ⟨0, 32⟩
abbrev PFI_REF_POS_POS : Fld := ⟨0, 32⟩
abbrev PFI_REF_CNT_COUNT : Fld := ⟨0, 16⟩
abbrev PFI_REF_CHECK_PERIOD : Fld := ⟨0, 32⟩
abbrev PFI_ERR_QUAD : Fld := ⟨0, 8⟩
abbrev PFI_ERR_OVERSPEED : Fld := ⟨8, 8⟩
abbrev PFI_ERR_TOOTH : Fld := ⟨16, 8⟩
abbrev PFI_ERR_REF : Fld := ⟨24, 8⟩
abbrev PFI_EVENT_REF : Fld := ⟨0, 1⟩
abbrev PFI_EVENT_QUAD : Fld := ⟨1, 1⟩
abbrev PFI_EVENT_OVERSPEED : Fld := ⟨2, 1⟩
abbrev PFI_EVENT_TOOTH : Fld := ⟨3, 1⟩
abbrev PFI_EVENT_REF_ERR : Fld := ⟨4, 1⟩
abbrev PFI_ERR_CLR_CLEAR : Fld := ⟨0, 1⟩
abbrev EMU_CFG_SOURCE_PFI : Fld := ⟨0, 8⟩
abbrev EMU_RATIO_N : Fld := ⟨0, 16⟩
abbrev EMU_RATIO_M : Fld := ⟨16, 16⟩
abbrev EMU_SLEW_SLEW : Fld := ⟨0, 24⟩
abbrev EMU_ACCEL_ACCEL : Fld := ⟨0, 24⟩
abbrev EMU_LAG_LIMIT_LIMIT : Fld := ⟨0, 32⟩
abbrev EMU_ZPERIOD_PERIOD : Fld := ⟨0, 32⟩
abbrev EMU_CTRL_FS_RESUME : Fld := ⟨0, 1⟩
abbrev EMU_CTRL_RESYNC : Fld := ⟨8, 1⟩
abbrev EMU_OUT_O : Fld := ⟨0, 32⟩
abbrev EMU_LAG_LAG : Fld := ⟨0, 32⟩
abbrev EMU_RATE_RATE : Fld := ⟨0, 32⟩
abbrev EMU_STATUS_LAG_HIGH : Fld := ⟨0, 1⟩
abbrev EMU_STATUS_FROZEN : Fld := ⟨1, 1⟩
abbrev EMU_STATUS_DIR : Fld := ⟨2, 1⟩
abbrev EMU_EVENT_LAG_EXCEEDED : Fld := ⟨0, 1⟩
abbrev EMU_EVENT_LAG_SAT : Fld := ⟨1, 1⟩
abbrev EMU_EVENT_RESYNCED : Fld := ⟨2, 1⟩
abbrev EMU_DISCARDED_COUNT : Fld := ⟨0, 32⟩
abbrev PAS_CFG_SOURCE_PFI : Fld := ⟨0, 8⟩
abbrev PAS_PINS_PASS0 : Fld := ⟨0, 3⟩
abbrev PAS_PINS_PASS1 : Fld := ⟨4, 3⟩
abbrev GHS_CFG_MAX_DEFERRAL_US : Fld := ⟨0, 16⟩
abbrev GHS_CFG_PWM_FREQ_HZ : Fld := ⟨16, 16⟩
abbrev GHS_SENSE_ISNS_LIMIT_MA : Fld := ⟨0, 16⟩
abbrev GHS_SENSE_ISNS_SCALE : Fld := ⟨16, 16⟩
abbrev GHS_BLANK_BLANK_US : Fld := ⟨0, 8⟩
abbrev GHS_ISNS_NOW : Fld := ⟨0, 16⟩
abbrev GHS_ISNS_PEAK : Fld := ⟨16, 16⟩
abbrev GHS_STATUS_ON : Fld := ⟨0, 1⟩
abbrev GHS_STATUS_OC_LATCHED : Fld := ⟨1, 1⟩
abbrev GHS_STATUS_PEAK_BUSY : Fld := ⟨2, 1⟩
abbrev GHS_EVENT_OC : Fld := ⟨0, 1⟩
abbrev GHS_EVENT_DEFER_DROP : Fld := ⟨1, 1⟩
abbrev GHS_EVENT_OC_CLEAR_FAIL : Fld := ⟨2, 1⟩
abbrev GHS_CTRL_OC_CLEAR : Fld := ⟨0, 1⟩
abbrev GHS_CNT_DEFERRED : Fld := ⟨0, 16⟩
abbrev GHS_CNT_DEFER_DROP : Fld := ⟨16, 16⟩
abbrev GLS_LIMIT_PEAK_MIN : Fld := ⟨0, 8⟩
abbrev GLS_LIMIT_PEAK_MAX : Fld := ⟨8, 8⟩
abbrev GLS_LIMIT_HOLD_DUTY_MAX : Fld := ⟨16, 8⟩
abbrev GLS_SCALE_PEAK_SCALE : Fld := ⟨0, 8⟩
abbrev GLS_SCALE_HOLD_SCALE : Fld := ⟨8, 8⟩
abbrev GLS_LATE_TOL_COUNTS : Fld := ⟨0, 16⟩
abbrev GLS_STATUS_PHASE : Fld := ⟨0, 2⟩
abbrev GLS_STATUS_LAST_TREF : Fld := ⟨8, 7⟩
abbrev GLS_STATUS_PENDING : Fld := ⟨16, 7⟩
abbrev GLS_CNT_FIRED : Fld := ⟨0, 16⟩
abbrev GLS_CNT_LATE : Fld := ⟨16, 8⟩
abbrev GLS_CNT_RETRIGGER : Fld := ⟨24, 8⟩
abbrev GLS_DROP_LATE : Fld := ⟨0, 8⟩
abbrev GLS_DROP_OC : Fld := ⟨8, 8⟩
abbrev GLS_DROP_FULL_DUP : Fld := ⟨16, 8⟩
abbrev GLS_DROP_FLUSH_FS : Fld := ⟨24, 8⟩
abbrev GLS_EVENT_FIRED : Fld := ⟨0, 1⟩
abbrev GLS_EVENT_DEFERRED : Fld := ⟨1, 1⟩
abbrev GLS_EVENT_DROPPED : Fld := ⟨2, 1⟩
abbrev GATE_FLUSH_GLS : Fld := ⟨0, 8⟩
abbrev GATE_SCHED_PENDING : Fld := ⟨0, 7⟩
abbrev GATE_SCHED_FULL : Fld := ⟨16, 8⟩
abbrev GATE_PINS_GHS : Fld := ⟨0, 4⟩
abbrev GATE_PINS_GLS : Fld := ⟨8, 8⟩
abbrev GATE_STATE_OUTCOME : Fld := ⟨0, 4⟩
abbrev GATE_STATE_PROG : Fld := ⟨4, 7⟩
abbrev GATE_STATE_GLS : Fld := ⟨12, 3⟩
abbrev GATE_STATE_STAGED : Fld := ⟨16, 1⟩
abbrev SER_STATUS_TX_LEVEL : Fld := ⟨0, 7⟩
abbrev SER_STATUS_RX_LEVEL : Fld := ⟨8, 7⟩
abbrev SER_STATUS_CREDIT : Fld := ⟨16, 7⟩
abbrev SER_ERR_RX_DROP : Fld := ⟨0, 8⟩
abbrev FSP_CFG_ROLE : Fld := ⟨0, 2⟩
abbrev FSP_CFG_SPI_MODE : Fld := ⟨2, 2⟩
abbrev FSP_CFG_CLK_KHZ : Fld := ⟨16, 16⟩
abbrev FSP_FRAME_FRAME_LEN : Fld := ⟨0, 7⟩
abbrev FSP_FRAME_CS_GAP : Fld := ⟨8, 8⟩
abbrev FSP_FRAME_FILL : Fld := ⟨16, 8⟩
abbrev FSP_FRAME_RX_ENABLE : Fld := ⟨24, 1⟩
abbrev FSP_STATUS_ACTIVE : Fld := ⟨0, 1⟩
abbrev FSP_STATUS_WAIT : Fld := ⟨1, 1⟩
abbrev FSP_STATUS_CLK_KHZ : Fld := ⟨16, 16⟩
abbrev FSP_ERR_PARTIAL : Fld := ⟨0, 8⟩
abbrev FSP_ERR_TX_PARTIAL : Fld := ⟨8, 8⟩
abbrev FSP_ERR_UNDERRUN : Fld := ⟨16, 8⟩
abbrev FSP_ERR_OVERRUN : Fld := ⟨24, 8⟩
abbrev FSP_ERR_CLR_CLEAR : Fld := ⟨0, 1⟩
abbrev FSP_FRAMES_COUNT : Fld := ⟨0, 32⟩
abbrev FSP_EVENT_FRAME_END : Fld := ⟨0, 1⟩
abbrev FSP_EVENT_ERR : Fld := ⟨1, 1⟩
abbrev ZL_CFG_ENABLE : Fld := ⟨0, 1⟩
abbrev ZL_CFG_NODE_COUNT : Fld := ⟨8, 5⟩
abbrev ZL_CTRL_DISCOVER : Fld := ⟨0, 1⟩
abbrev ZL_CTRL_BIND_NEW : Fld := ⟨1, 1⟩
abbrev ZL_CTRL_AUTO_BIND : Fld := ⟨2, 1⟩
abbrev ZL_CTRL_SUPERVISE_MS : Fld := ⟨8, 8⟩
abbrev ZL_STATUS_STATE : Fld := ⟨0, 3⟩
abbrev ZL_STATUS_BOUND : Fld := ⟨8, 5⟩
abbrev ZL_STATUS_TXN_BUSY : Fld := ⟨16, 1⟩
abbrev ZL_STATUS_INCR : Fld := ⟨17, 1⟩
abbrev ZL_PRESENT_PRESENT : Fld := ⟨0, 24⟩
abbrev ZL_EVENT_DISC_DONE : Fld := ⟨0, 1⟩
abbrev ZL_EVENT_NEW_NODE : Fld := ⟨1, 1⟩
abbrev ZL_EVENT_MISSING : Fld := ⟨2, 1⟩
abbrev ZL_EVENT_UNLISTED : Fld := ⟨3, 1⟩
abbrev ZL_EVENT_LINE_FULL : Fld := ⟨4, 1⟩
abbrev ZL_EVENT_SEARCH_FAIL : Fld := ⟨5, 1⟩
abbrev ZL_EVENT_STUCK : Fld := ⟨6, 1⟩
abbrev ZL_EVENT_RELEASED : Fld := ⟨7, 1⟩
abbrev ZL_EVENT_TXN_DONE : Fld := ⟨8, 1⟩
abbrev ZL_EVENT_ERR : Fld := ⟨9, 1⟩
abbrev ZL_ERR_CRC : Fld := ⟨0, 8⟩
abbrev ZL_ERR_SYMBOL : Fld := ⟨8, 8⟩
abbrev ZL_ERR_NO_REPLY : Fld := ⟨16, 8⟩
abbrev ZL_ERR_GLITCH : Fld := ⟨24, 8⟩
abbrev ZL_ERR_CLR_CLEAR : Fld := ⟨0, 1⟩
abbrev ZL_ATTN_TS_TS : Fld := ⟨0, 32⟩
abbrev ZL_ATTN_COUNT : Fld := ⟨0, 16⟩
abbrev ZL_ATTN_COLLIDED : Fld := ⟨16, 8⟩
abbrev ZL_TXN_CMD_ADDR : Fld := ⟨0, 8⟩
abbrev ZL_TXN_CMD_CMD : Fld := ⟨8, 4⟩
abbrev ZL_TXN_CMD_LEN : Fld := ⟨12, 4⟩
abbrev ZL_TXN_CMD_START : Fld := ⟨31, 1⟩
abbrev ZL_TXN_DATA0_NIB0_7 : Fld := ⟨0, 32⟩
abbrev ZL_TXN_DATA1_NIB8_14 : Fld := ⟨0, 28⟩
abbrev ZL_TXN_RESULT_CODE : Fld := ⟨0, 4⟩
abbrev ZL_TXN_RESULT_RX_LEN : Fld := ⟨8, 4⟩
abbrev ZL_TXN_RESULT_STATUS : Fld := ⟨12, 4⟩
abbrev ZL_RX_DATA0_NIB : Fld := ⟨0, 32⟩
abbrev ZL_RX_DATA1_NIB : Fld := ⟨0, 28⟩
abbrev ZL_NODE_LO_FN_LO : Fld := ⟨0, 32⟩
abbrev ZL_NODE_HI_FN_HI : Fld := ⟨0, 16⟩
abbrev ZL_NODE_HI_ROLE : Fld := ⟨16, 3⟩
abbrev ZL_NODE_HI_VALID : Fld := ⟨24, 1⟩
abbrev ZL_NODE_HI_PRESENT : Fld := ⟨25, 1⟩
abbrev ZL_NODE_HI_LISTED : Fld := ⟨26, 1⟩
abbrev ZL_UNLISTED_LO_FN : Fld := ⟨0, 32⟩
abbrev ZL_UNLISTED_HI_FN : Fld := ⟨0, 16⟩

end Fl

end Sys2Proof.Machine
end

