-- ==== Sys2Proof/Machine/RegTable.lean ====
section
/-! DEFINITION. The register description table: for every register its fields with place, access code (Table 0-6), reset value and
whether chip reset leaves it alone ("kept"), transcribed from the register tables of the chapters. -/
namespace Sys2Proof.Machine

/-- An offset names an instance of a register with these indices. -/
def dimsHit : List (Nat × Nat) → Nat → Bool
  | [], r => r == 0
  | d :: ds, r => decide (r / d.1 < d.2) && dimsHit ds (r % d.1)

def regHit (d : RegD) (off : Nat) : Bool := decide (d.base ≤ off) && dimsHit d.dims (off - d.base)

/-- The reset value of a register as its field table gives it. -/
def regResetNat (d : RegD) : Nat := d.fields.foldl (fun n f => n + f.reset * 2 ^ f.fld.lsb) 0

def sysTable0 : List RegD :=
  [ ⟨0x0, [],
      [⟨Fl.SYS_ID_PART, .ro, 9792, false⟩, ⟨Fl.SYS_ID_MINOR, .ro, 0, false⟩, ⟨Fl.SYS_ID_MAJOR, .ro, 1, false⟩, ⟨Fl.SYS_ID_VENDOR, .ro, 75, false⟩]⟩
  , ⟨0x4, [],
      [⟨Fl.SYS_JENS_ID_PART, .ro, 0, false⟩, ⟨Fl.SYS_JENS_ID_MINOR, .ro, 0, false⟩, ⟨Fl.SYS_JENS_ID_MAJOR, .ro, 0, false⟩, ⟨Fl.SYS_JENS_ID_JENS_RESET, .ro, 0, false⟩]⟩
  , ⟨0x8, [],
      [⟨Fl.SYS_UID_LO_UID, .ro, 0, false⟩]⟩
  , ⟨0xc, [],
      [⟨Fl.SYS_UID_HI_UID, .ro, 0, false⟩]⟩
  , ⟨0x10, [],
      [⟨Fl.SYS_STRAP_REFSEL, .ro, 0, false⟩, ⟨Fl.SYS_STRAP_LEAD, .ro, 0, false⟩]⟩
  , ⟨0x20, [],
      [⟨Fl.SYS_RESET_CAUSE_CAUSE, .ro, 1, true⟩, ⟨Fl.SYS_RESET_CAUSE_SAFE_CAUSE, .ro, 0, true⟩, ⟨Fl.SYS_RESET_CAUSE_COUNT, .ro, 0, true⟩, ⟨Fl.SYS_RESET_CAUSE_FCU_SRC, .ro, 0, true⟩]⟩
  , ⟨0x24, [],
      [⟨Fl.SYS_RESET_CMD_KEY, .wo, 0, false⟩]⟩
  , ⟨0x30, [],
      [⟨Fl.SYS_TS_LO_TS, .ro, 0, false⟩]⟩
  , ⟨0x34, [],
      [⟨Fl.SYS_TS_HI_TS, .ro, 0, false⟩]⟩
  , ⟨0x100, [],
      [⟨Fl.CLK_STATUS_PLL_LOCK, .ro, 0, false⟩, ⟨Fl.CLK_STATUS_BYPASS, .ro, 0, false⟩, ⟨Fl.CLK_STATUS_REFCLK_OK, .ro, 0, false⟩, ⟨Fl.CLK_STATUS_JENS_LOCK, .ro, 0, false⟩]⟩
  , ⟨0x104, [],
      [⟨Fl.CLK_EVENT_LOCK_LOST, .w1c, 0, false⟩, ⟨Fl.CLK_EVENT_LOCK_LOST_COUNT, .ro, 0, false⟩]⟩
  , ⟨0x200, [],
      [⟨Fl.PWR_STATE_STATE, .ro, 1, false⟩, ⟨Fl.PWR_STATE_PHASE, .ro, 0, false⟩, ⟨Fl.PWR_STATE_CMD_REFUSED, .w1c, 0, false⟩, ⟨Fl.PWR_STATE_PARK_ABORTED, .w1c, 0, false⟩]⟩
  , ⟨0x204, [],
      [⟨Fl.PWR_CMD_CMD, .wo, 0, false⟩]⟩
  , ⟨0x208, [],
      [⟨Fl.PWR_WAKE_EN_MIRI, .rw, 0, false⟩, ⟨Fl.PWR_WAKE_EN_ZL, .rw, 0, false⟩, ⟨Fl.PWR_WAKE_EN_CP_PRES, .rw, 0, false⟩]⟩
  , ⟨0x20c, [],
      [⟨Fl.PWR_WAKE_CAUSE_MIRI, .w1c, 0, false⟩, ⟨Fl.PWR_WAKE_CAUSE_ZL, .w1c, 0, false⟩, ⟨Fl.PWR_WAKE_CAUSE_CP_PRES, .w1c, 0, false⟩, ⟨Fl.PWR_WAKE_CAUSE_CMD, .w1c, 0, false⟩, ⟨Fl.PWR_WAKE_CAUSE_WDT, .w1c, 0, false⟩, ⟨Fl.PWR_WAKE_CAUSE_FCU, .w1c, 0, false⟩]⟩
  , ⟨0x210, [],
      [⟨Fl.PWR_SUPPLY_VH_MV, .ro, 0, false⟩, ⟨Fl.PWR_SUPPLY_VF_MV, .ro, 0, false⟩, ⟨Fl.PWR_SUPPLY_VF_VALID, .ro, 0, false⟩]⟩
  , ⟨0x214, [],
      [⟨Fl.PWR_BOOT_PATH, .ro, 0, false⟩, ⟨Fl.PWR_BOOT_RECORD_SRC, .ro, 0, false⟩, ⟨Fl.PWR_BOOT_RECORD_FAIL, .ro, 0, false⟩, ⟨Fl.PWR_BOOT_CHART, .ro, 0, false⟩]⟩
  , ⟨0x218, [],
      [⟨Fl.PWR_BOOT_TIME_TIME_US, .ro, 0, false⟩]⟩
  , ⟨0x400, [(0x10, 8)],
      [⟨Fl.SYS_FN_CMD_CMD, .wo, 0, false⟩]⟩
  , ⟨0x404, [(0x10, 8)],
      [⟨Fl.SYS_FN_STATE_STATE, .ro, 7, false⟩, ⟨Fl.SYS_FN_STATE_REQ_LEVEL, .ro, 0, false⟩, ⟨Fl.SYS_FN_STATE_OPEN, .ro, 0, false⟩, ⟨Fl.SYS_FN_STATE_LAST_STOP_CAUSE, .ro, 0, false⟩, ⟨Fl.SYS_FN_STATE_START_FAIL, .ro, 0, false⟩]⟩
  , ⟨0x408, [(0x10, 8)],
      [⟨Fl.SYS_FN_CLOSED_CLOSED, .ro, 0, false⟩]⟩
  , ⟨0x40c, [(0x10, 8)],
      [⟨Fl.SYS_FN_LATE_LATE, .ro, 0, false⟩, ⟨Fl.SYS_FN_LATE_OVERRUN, .ro, 0, false⟩]⟩
  , ⟨0x480, [],
      [⟨Fl.SYS_SVC_LEVEL, .ro, 1, false⟩, ⟨Fl.SYS_SVC_CHART_OK, .ro, 0, false⟩, ⟨Fl.SYS_SVC_PORT_OK, .ro, 0, false⟩, ⟨Fl.SYS_SVC_STS_OK, .ro, 0, false⟩, ⟨Fl.SYS_SVC_HZ_OK, .ro, 0, false⟩, ⟨Fl.SYS_SVC_JENS_OK, .ro, 0, false⟩]⟩
  , ⟨0x484, [],
      [⟨Fl.SYS_FN_EVENT_STATE_CHG, .w1c, 0, false⟩, ⟨Fl.SYS_FN_EVENT_START_FAILED, .w1c, 0, false⟩, ⟨Fl.SYS_FN_EVENT_TRANSIT_OVERRUN, .w1c, 0, false⟩]⟩ ]

def sysTable1 : List RegD :=
  [ ⟨0x500, [(0x4, 32)],
      [⟨Fl.SYS_SW_ROUTE_SRC, .ro, 0, false⟩, ⟨Fl.SYS_SW_ROUTE_SINK, .ro, 0, false⟩, ⟨Fl.SYS_SW_ROUTE_FN, .ro, 0, false⟩, ⟨Fl.SYS_SW_ROUTE_VALID, .ro, 0, false⟩]⟩
  , ⟨0x580, [(0x4, 9)],
      [⟨Fl.SYS_SW_STALL_STALL, .w1c, 0, false⟩]⟩ ]

def sysTable : List RegD := sysTable0 ++ sysTable1

def chtTable0 : List RegD :=
  [ ⟨0x10000, [],
      [⟨Fl.CHT_CMD_CMD, .wo, 0, false⟩, ⟨Fl.CHT_CMD_SCOPE, .wo, 0, false⟩]⟩
  , ⟨0x10004, [],
      [⟨Fl.CHT_STATUS_OPEN, .ro, 0, false⟩, ⟨Fl.CHT_STATUS_OWNER, .ro, 0, false⟩, ⟨Fl.CHT_STATUS_BUSY, .ro, 0, false⟩, ⟨Fl.CHT_STATUS_COMMITTED, .ro, 0, false⟩, ⟨Fl.CHT_STATUS_SIGNED, .ro, 0, false⟩, ⟨Fl.CHT_STATUS_KEY_FUSED, .ro, 0, false⟩, ⟨Fl.CHT_STATUS_ENFORCE, .ro, 0, false⟩, ⟨Fl.CHT_STATUS_SCOPED, .ro, 0, false⟩]⟩
  , ⟨0x10008, [],
      [⟨Fl.CHT_RESULT_CODE, .ro, 0, false⟩, ⟨Fl.CHT_RESULT_SECTION, .ro, 0, false⟩, ⟨Fl.CHT_RESULT_DETAIL, .ro, 0, false⟩]⟩
  , ⟨0x1000c, [],
      [⟨Fl.CHT_ERR_OFFSET_OFFSET, .ro, 0, false⟩]⟩
  , ⟨0x10010, [],
      [⟨Fl.CHT_ADDR_ADDR, .rw, 0, false⟩]⟩
  , ⟨0x10014, [],
      [⟨Fl.CHT_DATA_DATA, .rw, 0, false⟩]⟩
  , ⟨0x10018, [],
      [⟨Fl.CHT_TAG_USER_TAG, .ro, 0, false⟩]⟩
  , ⟨0x1001c, [],
      [⟨Fl.CHT_LENGTH_LENGTH, .ro, 0, false⟩]⟩
  , ⟨0x10020, [],
      [⟨Fl.CHT_EVENT_DONE, .w1c, 0, false⟩, ⟨Fl.CHT_EVENT_FAILED, .w1c, 0, false⟩]⟩
  , ⟨0x10024, [],
      [⟨Fl.CHT_COMMIT_TIME_TIME_US, .ro, 0, false⟩]⟩
  , ⟨0x10040, [(0x4, 16)],
      [⟨Fl.CHT_WREF_VALID, .ro, 0, false⟩, ⟨Fl.CHT_WREF_VERIFIED, .ro, 0, false⟩, ⟨Fl.CHT_WREF_DIRTY, .ro, 0, false⟩, ⟨Fl.CHT_WREF_MISMATCH, .ro, 0, false⟩]⟩
  , ⟨0x10100, [(0x10, 72)],
      [⟨Fl.CHT_SECT_ID_TYPE, .ro, 0, false⟩, ⟨Fl.CHT_SECT_ID_INSTANCE, .ro, 0, false⟩, ⟨Fl.CHT_SECT_ID_VALID, .ro, 0, false⟩]⟩
  , ⟨0x10104, [(0x10, 72)],
      [⟨Fl.CHT_SECT_OFFSET_OFFSET, .ro, 0, false⟩]⟩
  , ⟨0x10108, [(0x10, 72)],
      [⟨Fl.CHT_SECT_LENGTH_LENGTH, .ro, 0, false⟩]⟩
  , ⟨0x1010c, [(0x10, 72)],
      [⟨Fl.CHT_SECT_CRC_CRC, .ro, 0, false⟩]⟩ ]

def chtTable : List RegD := chtTable0

def fcuTable0 : List RegD :=
  [ ⟨0x20000, [],
      [⟨Fl.FCU_STATUS_LO_STATUS, .w1c, 0, false⟩]⟩
  , ⟨0x20004, [],
      [⟨Fl.FCU_STATUS_HI_STATUS, .w1c, 0, false⟩]⟩
  , ⟨0x20008, [],
      [⟨Fl.FCU_RAW_LO_RAW, .ro, 0, false⟩]⟩
  , ⟨0x2000c, [],
      [⟨Fl.FCU_RAW_HI_RAW, .ro, 0, false⟩]⟩
  , ⟨0x20010, [],
      [⟨Fl.FCU_FIRST_SOURCE, .ro, 0, false⟩, ⟨Fl.FCU_FIRST_VALID, .ro, 0, false⟩]⟩
  , ⟨0x20014, [],
      [⟨Fl.FCU_FIRST_TS_LO_TS, .ro, 0, false⟩]⟩
  , ⟨0x20018, [],
      [⟨Fl.FCU_FIRST_TS_HI_TS, .ro, 0, false⟩]⟩
  , ⟨0x20020, [],
      [⟨Fl.FCU_TRAP_ASSERTED, .ro, 0, false⟩, ⟨Fl.FCU_TRAP_SAFE, .ro, 0, false⟩, ⟨Fl.FCU_TRAP_SAFE_CAUSE, .ro, 0, false⟩, ⟨Fl.FCU_TRAP_TRAP_SRC, .ro, 255, false⟩]⟩
  , ⟨0x20024, [],
      [⟨Fl.FCU_SAFE_CMD_KEY, .wo, 0, false⟩]⟩
  , ⟨0x20028, [],
      [⟨Fl.FCU_DEBUG_HALT, .rw, 0, false⟩, ⟨Fl.FCU_DEBUG_HALTED, .ro, 0, false⟩]⟩
  , ⟨0x2002c, [],
      [⟨Fl.FCU_INTEGRITY_OK, .ro, 1, false⟩, ⟨Fl.FCU_INTEGRITY_PARITY, .ro, 0, false⟩, ⟨Fl.FCU_INTEGRITY_BYTE, .ro, 0, false⟩]⟩
  , ⟨0x20030, [],
      [⟨Fl.FCU_INJECT_SOURCE, .rw, 0, false⟩, ⟨Fl.FCU_INJECT_GO, .wo, 0, false⟩, ⟨Fl.FCU_INJECT_INTEGRITY, .rwg, 0, false⟩]⟩
  , ⟨0x20034, [],
      [⟨Fl.FCU_THERM_TEMP_C, .ro, 0, false⟩, ⟨Fl.FCU_THERM_WARN_C, .rw, 105, false⟩]⟩
  , ⟨0x20038, [],
      [⟨Fl.FCU_CNT_CLR_CLEAR, .wo, 0, false⟩]⟩
  , ⟨0x20100, [(0x4, 64)],
      [⟨Fl.FCU_REACT_REACTION, .ro, 0, false⟩, ⟨Fl.FCU_REACT_ERR, .ro, 0, false⟩, ⟨Fl.FCU_REACT_ASSIGNED, .ro, 0, false⟩]⟩
  , ⟨0x20200, [(0x4, 64)],
      [⟨Fl.FCU_CNT_COUNT, .ro, 0, false⟩]⟩
  , ⟨0x21000, [],
      [⟨Fl.WDT_CTRL_ENABLE, .w1s, 0, false⟩]⟩
  , ⟨0x21004, [],
      [⟨Fl.WDT_TIMEOUT_MS, .rw, 2000, false⟩]⟩
  , ⟨0x21008, [],
      [⟨Fl.WDT_WARN_MS, .rw, 0, false⟩]⟩
  , ⟨0x2100c, [],
      [⟨Fl.WDT_KEY_KEY, .wo, 0, false⟩]⟩
  , ⟨0x21010, [],
      [⟨Fl.WDT_STATUS_ENABLED, .ro, 0, false⟩, ⟨Fl.WDT_STATUS_ARMED, .ro, 0, false⟩, ⟨Fl.WDT_STATUS_LATCHED_MS, .ro, 0, false⟩]⟩
  , ⟨0x21014, [],
      [⟨Fl.WDT_REMAIN_US, .ro, 0, false⟩]⟩
  , ⟨0x21018, [],
      [⟨Fl.WDT_EVENT_WARN, .w1c, 0, false⟩, ⟨Fl.WDT_EVENT_WAKE, .w1c, 0, false⟩]⟩
  , ⟨0x2101c, [],
      [⟨Fl.WDT_SERVICES_COUNT, .ro, 0, false⟩]⟩ ]

def fcuTable : List RegD := fcuTable0

def pcxTable0 : List RegD :=
  [ ⟨0x30000, [],
      [⟨Fl.PCX_LINK_DL_UP, .ro, 0, false⟩, ⟨Fl.PCX_LINK_SPEED, .ro, 0, false⟩, ⟨Fl.PCX_LINK_WIDTH, .ro, 0, false⟩, ⟨Fl.PCX_LINK_BME, .ro, 0, false⟩, ⟨Fl.PCX_LINK_DSTATE, .ro, 0, false⟩]⟩
  , ⟨0x30004, [],
      [⟨Fl.PCX_LINK_EVENT_DL_UP, .w1c, 0, false⟩, ⟨Fl.PCX_LINK_EVENT_DL_DOWN, .w1c, 0, false⟩, ⟨Fl.PCX_LINK_EVENT_PERST, .w1c, 0, false⟩, ⟨Fl.PCX_LINK_EVENT_FLR, .w1c, 0, false⟩, ⟨Fl.PCX_LINK_EVENT_SPEED_CHG, .w1c, 0, false⟩, ⟨Fl.PCX_LINK_EVENT_WIDTH_CHG, .w1c, 0, false⟩]⟩
  , ⟨0x30008, [],
      [⟨Fl.PCX_HOSTLOSS_ACTIVE, .ro, 0, false⟩, ⟨Fl.PCX_HOSTLOSS_KIND, .ro, 0, false⟩, ⟨Fl.PCX_HOSTLOSS_FIELD_HELD, .ro, 0, false⟩, ⟨Fl.PCX_HOSTLOSS_COUNT, .ro, 0, false⟩, ⟨Fl.PCX_HOSTLOSS_DISCARDED, .ro, 0, false⟩]⟩
  , ⟨0x3000c, [],
      [⟨Fl.PCX_HOSTLOSS_CTRL_RELEASE, .wo, 0, false⟩]⟩
  , ⟨0x30010, [],
      [⟨Fl.PCX_HOSTLOSS_TS_LO_TS, .ro, 0, false⟩]⟩
  , ⟨0x30014, [],
      [⟨Fl.PCX_HOSTLOSS_TS_HI_TS, .ro, 0, false⟩]⟩
  , ⟨0x30020, [],
      [⟨Fl.PCX_AEL_COUNT_COUNT, .ro, 0, false⟩, ⟨Fl.PCX_AEL_COUNT_EVENT, .w1c, 0, false⟩]⟩
  , ⟨0x30024, [],
      [⟨Fl.PCX_AEL_FIRST_ADDR_OFFSET, .ro, 0, false⟩]⟩
  , ⟨0x30028, [],
      [⟨Fl.PCX_AEL_FIRST_INFO_REASON, .ro, 0, false⟩, ⟨Fl.PCX_AEL_FIRST_INFO_WRITE, .ro, 0, false⟩, ⟨Fl.PCX_AEL_FIRST_INFO_SPACE, .ro, 0, false⟩, ⟨Fl.PCX_AEL_FIRST_INFO_BYTE_EN, .ro, 0, false⟩]⟩
  , ⟨0x3002c, [],
      [⟨Fl.PCX_AEL_LAST_ADDR_OFFSET, .ro, 0, false⟩]⟩
  , ⟨0x30030, [],
      [⟨Fl.PCX_AEL_LAST_INFO_REASON, .ro, 0, false⟩, ⟨Fl.PCX_AEL_LAST_INFO_WRITE, .ro, 0, false⟩, ⟨Fl.PCX_AEL_LAST_INFO_SPACE, .ro, 0, false⟩, ⟨Fl.PCX_AEL_LAST_INFO_BYTE_EN, .ro, 0, false⟩]⟩
  , ⟨0x30034, [],
      [⟨Fl.PCX_AEL_CTRL_CLEAR, .wo, 0, false⟩]⟩
  , ⟨0x31000, [],
      [⟨Fl.SSP_CFG_DUMMY, .rw, 1, false⟩]⟩
  , ⟨0x31004, [],
      [⟨Fl.SSP_STATUS_STATUS, .ro, 192, false⟩, ⟨Fl.SSP_STATUS_WFIFO, .ro, 0, false⟩]⟩
  , ⟨0x31008, [],
      [⟨Fl.SSP_ERR0_PARTIAL, .ro, 0, false⟩, ⟨Fl.SSP_ERR0_SHORT, .ro, 0, false⟩, ⟨Fl.SSP_ERR0_BAD_CMD, .ro, 0, false⟩, ⟨Fl.SSP_ERR0_READ_LATE, .ro, 0, false⟩]⟩
  , ⟨0x3100c, [],
      [⟨Fl.SSP_ERR1_OVERFLOW, .ro, 0, false⟩]⟩
  , ⟨0x31010, [],
      [⟨Fl.SSP_ERR_CLR_CLEAR, .wo, 0, false⟩]⟩
  , ⟨0x31020, [],
      [⟨Fl.SSP_AEL_COUNT_COUNT, .ro, 0, false⟩, ⟨Fl.SSP_AEL_COUNT_EVENT, .w1c, 0, false⟩]⟩
  , ⟨0x31024, [],
      [⟨Fl.SSP_AEL_FIRST_ADDR_OFFSET, .ro, 0, false⟩]⟩
  , ⟨0x31028, [],
      [⟨Fl.SSP_AEL_FIRST_INFO_REASON, .ro, 0, false⟩, ⟨Fl.SSP_AEL_FIRST_INFO_WRITE, .ro, 0, false⟩, ⟨Fl.SSP_AEL_FIRST_INFO_SPACE, .ro, 0, false⟩, ⟨Fl.SSP_AEL_FIRST_INFO_BYTE_EN, .ro, 0, false⟩]⟩
  , ⟨0x3102c, [],
      [⟨Fl.SSP_AEL_LAST_ADDR_OFFSET, .ro, 0, false⟩]⟩
  , ⟨0x31030, [],
      [⟨Fl.SSP_AEL_LAST_INFO_REASON, .ro, 0, false⟩, ⟨Fl.SSP_AEL_LAST_INFO_WRITE, .ro, 0, false⟩, ⟨Fl.SSP_AEL_LAST_INFO_SPACE, .ro, 0, false⟩, ⟨Fl.SSP_AEL_LAST_INFO_BYTE_EN, .ro, 0, false⟩]⟩
  , ⟨0x31034, [],
      [⟨Fl.SSP_AEL_CTRL_CLEAR, .wo, 0, false⟩]⟩
  , ⟨0x32000, [],
      [⟨Fl.BSP_STATUS_BUSY, .ro, 0, false⟩, ⟨Fl.BSP_STATUS_DIR_OK, .ro, 0, false⟩, ⟨Fl.BSP_STATUS_CHART_SLOT, .ro, 0, false⟩, ⟨Fl.BSP_STATUS_RECORD_FAIL, .ro, 0, false⟩, ⟨Fl.BSP_STATUS_RECORD_SLOT, .ro, 0, false⟩]⟩ ]

def pcxTable1 : List RegD :=
  [ ⟨0x32004, [],
      [⟨Fl.BSP_OP_OP, .wo, 0, false⟩]⟩
  , ⟨0x32008, [],
      [⟨Fl.BSP_ADDR_ADDR, .rw, 0, false⟩]⟩
  , ⟨0x3200c, [],
      [⟨Fl.BSP_LEN_LEN, .rw, 1, false⟩]⟩
  , ⟨0x32010, [],
      [⟨Fl.BSP_RESULT_CODE, .ro, 0, false⟩]⟩
  , ⟨0x32014, [],
      [⟨Fl.BSP_EVENT_DONE, .w1c, 0, false⟩]⟩
  , ⟨0x32100, [(0x4, 64)],
      [⟨Fl.BSP_BUF_DATA, .rw, 0, false⟩]⟩ ]

def pcxTable : List RegD := pcxTable0 ++ pcxTable1

def hzTable0 : List RegD :=
  [ ⟨0x40000, [],
      [⟨Fl.HZ_STATUS_STATE, .ro, 0, false⟩, ⟨Fl.HZ_STATUS_FS_HOLD, .ro, 0, false⟩, ⟨Fl.HZ_STATUS_FAIL_STEP, .ro, 0, false⟩, ⟨Fl.HZ_STATUS_LAST_SHORT, .ro, 0, false⟩, ⟨Fl.HZ_STATUS_TRAIN_TIME_US, .ro, 0, false⟩]⟩
  , ⟨0x40004, [],
      [⟨Fl.HZ_CTRL_AUTO_TRAIN, .rw, 1, false⟩, ⟨Fl.HZ_CTRL_RETRAIN, .rwg, 0, false⟩]⟩
  , ⟨0x40008, [],
      [⟨Fl.HZ_EVENT_LOSS, .w1c, 0, false⟩, ⟨Fl.HZ_EVENT_TRAINED, .w1c, 0, false⟩, ⟨Fl.HZ_EVENT_TRAIN_FAIL, .w1c, 0, false⟩, ⟨Fl.HZ_EVENT_TRAIN_WAIT, .w1c, 0, false⟩, ⟨Fl.HZ_EVENT_PHASE_LIMIT, .w1c, 0, false⟩, ⟨Fl.HZ_EVENT_GC_UNACKED, .w1c, 0, false⟩, ⟨Fl.HZ_EVENT_STAGE_FAIL, .w1c, 0, false⟩, ⟨Fl.HZ_EVENT_RELAY_TIMEOUT, .w1c, 0, false⟩, ⟨Fl.HZ_EVENT_SER_DROP, .w1c, 0, false⟩, ⟨Fl.HZ_EVENT_ATTN, .w1c, 0, false⟩]⟩
  , ⟨0x4000c, [],
      [⟨Fl.HZ_BAD_RX_COUNT, .ro, 0, false⟩]⟩
  , ⟨0x40010, [],
      [⟨Fl.HZ_BAD_TX_COUNT, .ro, 0, false⟩]⟩
  , ⟨0x40014, [],
      [⟨Fl.HZ_LOSS_COUNT, .ro, 0, false⟩]⟩
  , ⟨0x40018, [],
      [⟨Fl.HZ_PHASE_OFFSET_PS, .ro, 0, false⟩, ⟨Fl.HZ_PHASE_CODE, .ro, 0, false⟩]⟩
  , ⟨0x4001c, [],
      [⟨Fl.HZ_GC_ACKED, .ro, 0, false⟩]⟩
  , ⟨0x40020, [],
      [⟨Fl.HZ_GC_ERR_UNACKED, .ro, 0, false⟩, ⟨Fl.HZ_GC_ERR_STAGE_FAIL, .ro, 0, false⟩]⟩
  , ⟨0x40024, [],
      [⟨Fl.HZ_RELAY_ERR_TIMEOUT, .ro, 0, false⟩, ⟨Fl.HZ_RELAY_ERR_RETRY, .ro, 0, false⟩, ⟨Fl.HZ_RELAY_ERR_ADDR, .ro, 0, false⟩]⟩
  , ⟨0x40028, [],
      [⟨Fl.HZ_CNT_CLR_CLEAR, .wo, 0, false⟩]⟩
  , ⟨0x40040, [],
      [⟨Fl.HZ_SER_TX_BYTE, .wo, 0, false⟩]⟩
  , ⟨0x40044, [],
      [⟨Fl.HZ_SER_TXW_BYTES, .wo, 0, false⟩]⟩
  , ⟨0x40048, [],
      [⟨Fl.HZ_SER_RX_BYTE, .ro, 0, false⟩, ⟨Fl.HZ_SER_RX_VALID, .ro, 0, false⟩]⟩
  , ⟨0x4004c, [],
      [⟨Fl.HZ_SER_RXW_BYTES, .ro, 0, false⟩]⟩
  , ⟨0x40050, [],
      [⟨Fl.HZ_SER_STATUS_TX_LEVEL, .ro, 0, false⟩, ⟨Fl.HZ_SER_STATUS_RX_LEVEL, .ro, 0, false⟩, ⟨Fl.HZ_SER_STATUS_CREDIT, .ro, 64, false⟩]⟩
  , ⟨0x40054, [],
      [⟨Fl.HZ_SER_ERR_TX_DROP, .ro, 0, false⟩, ⟨Fl.HZ_SER_ERR_RX_DROP, .ro, 0, false⟩]⟩
  , ⟨0x40080, [],
      [⟨Fl.HZ_FIELD_ATTN_ATTN, .ro, 0, false⟩]⟩
  , ⟨0x40100, [],
      [⟨Fl.HZ_MIRO_OUT_OUT, .rw, 0, false⟩]⟩
  , ⟨0x40104, [],
      [⟨Fl.HZ_MIRI_IN, .ro, 0, false⟩, ⟨Fl.HZ_MIRI_VALID, .ro, 0, false⟩]⟩
  , ⟨0x40108, [],
      [⟨Fl.HZ_MIRI_RISE_RISE, .w1c, 0, false⟩]⟩
  , ⟨0x4010c, [],
      [⟨Fl.HZ_MIRI_FALL_FALL, .w1c, 0, false⟩]⟩
  , ⟨0x40140, [(0x4, 12)],
      [⟨Fl.HZ_MIRO_MAP_SOURCE, .ro, 0, false⟩, ⟨Fl.HZ_MIRO_MAP_INDEX, .ro, 0, false⟩, ⟨Fl.HZ_MIRO_MAP_SAFE_LEVEL, .ro, 0, false⟩]⟩
  , ⟨0x40180, [(0x4, 12)],
      [⟨Fl.HZ_MIRI_MAP_FILTER_BEATS, .ro, 0, false⟩]⟩ ]

def hzTable : List RegD := hzTable0

def cpTable0 : List RegD :=
  [ ⟨0x100000, [(0x10000, 4)],
      [⟨Fl.CP_STATE_STATE, .ro, 0, false⟩, ⟨Fl.CP_STATE_STEP, .ro, 0, false⟩, ⟨Fl.CP_STATE_PREC, .ro, 0, false⟩, ⟨Fl.CP_STATE_ALIGNED, .ro, 0, false⟩, ⟨Fl.CP_STATE_PRES, .ro, 0, false⟩, ⟨Fl.CP_STATE_TX_RESETTLE, .ro, 0, false⟩]⟩
  , ⟨0x100004, [(0x10000, 4)],
      [⟨Fl.CP_CTRL_RETRAIN, .wo, 0, false⟩, ⟨Fl.CP_CTRL_CNT_FREEZE, .rw, 0, false⟩]⟩
  , ⟨0x100008, [(0x10000, 4)],
      [⟨Fl.CP_CFG_RETRIES, .rws, 3, false⟩, ⟨Fl.CP_CFG_LINE_TIMEOUT_US, .rws, 200, false⟩]⟩
  , ⟨0x10000c, [(0x10000, 4)],
      [⟨Fl.CP_TRAIN_CAUSE, .ro, 0, false⟩, ⟨Fl.CP_TRAIN_ATTEMPTS, .ro, 0, false⟩, ⟨Fl.CP_TRAIN_DETAIL, .ro, 0, false⟩, ⟨Fl.CP_TRAIN_TIME_US, .ro, 0, false⟩]⟩
  , ⟨0x100010, [(0x10000, 4)],
      [⟨Fl.CP_EVENT_TRAINED, .w1c, 0, false⟩, ⟨Fl.CP_EVENT_TRAIN_FAIL, .w1c, 0, false⟩, ⟨Fl.CP_EVENT_IN_SERVICE, .w1c, 0, false⟩, ⟨Fl.CP_EVENT_OUT_OF_SERVICE, .w1c, 0, false⟩, ⟨Fl.CP_EVENT_PRESENCE, .w1c, 0, false⟩, ⟨Fl.CP_EVENT_LANE_REJOIN, .w1c, 0, false⟩, ⟨Fl.CP_EVENT_HC_DONE, .w1c, 0, false⟩, ⟨Fl.CP_EVENT_HEAD_EVENT, .w1c, 0, false⟩, ⟨Fl.CP_EVENT_TRQ_LATE, .w1c, 0, false⟩, ⟨Fl.CP_EVENT_ERR, .w1c, 0, false⟩]⟩
  , ⟨0x100014, [(0x10000, 4)],
      [⟨Fl.CP_SKEW_RX0, .ro, 0, false⟩, ⟨Fl.CP_SKEW_RX1, .ro, 0, false⟩, ⟨Fl.CP_SKEW_RX2, .ro, 0, false⟩, ⟨Fl.CP_SKEW_MAX, .ro, 0, false⟩]⟩
  , ⟨0x100018, [(0x10000, 4)],
      [⟨Fl.CP_HEAD_ID_ID, .ro, 0, false⟩]⟩
  , ⟨0x10001c, [(0x10000, 4)],
      [⟨Fl.CP_HEAD_CAPS_MODES, .ro, 0, false⟩]⟩
  , ⟨0x100020, [(0x10000, 4)],
      [⟨Fl.CP_HC_CMD_OP, .wo, 0, false⟩]⟩
  , ⟨0x100024, [(0x10000, 4)],
      [⟨Fl.CP_HC_ADDR_ADDR, .rw, 0, false⟩]⟩
  , ⟨0x100028, [(0x10000, 4)],
      [⟨Fl.CP_HC_WDATA_DATA, .rw, 0, false⟩]⟩
  , ⟨0x10002c, [(0x10000, 4)],
      [⟨Fl.CP_HC_RDATA_DATA, .ro, 0, false⟩]⟩
  , ⟨0x100030, [(0x10000, 4)],
      [⟨Fl.CP_HC_STATUS_BUSY, .ro, 0, false⟩, ⟨Fl.CP_HC_STATUS_RESULT, .ro, 0, false⟩, ⟨Fl.CP_HC_STATUS_TAG, .ro, 0, false⟩]⟩
  , ⟨0x100034, [(0x10000, 4)],
      [⟨Fl.CP_HEAD_EVENT_CODE, .ro, 0, false⟩, ⟨Fl.CP_HEAD_EVENT_COUNT, .ro, 0, false⟩]⟩
  , ⟨0x100038, [(0x10000, 4)],
      [⟨Fl.CP_HEAD_DETAIL_DETAIL, .ro, 0, false⟩]⟩
  , ⟨0x10003c, [(0x10000, 4)],
      [⟨Fl.CP_TRQ_LEVEL, .ro, 0, false⟩, ⟨Fl.CP_TRQ_MAX, .ro, 0, false⟩, ⟨Fl.CP_TRQ_LATE, .ro, 0, false⟩]⟩
  , ⟨0x100040, [(0x10000, 4)],
      [⟨Fl.CP_FIFO_LEVEL, .ro, 0, false⟩]⟩
  , ⟨0x100044, [(0x10000, 4)],
      [⟨Fl.CP_CV_RX0, .ro, 0, false⟩, ⟨Fl.CP_CV_RX1, .ro, 0, false⟩, ⟨Fl.CP_CV_RX2, .ro, 0, false⟩, ⟨Fl.CP_CV_IDLE_ERR, .ro, 0, false⟩]⟩
  , ⟨0x100048, [(0x10000, 4)],
      [⟨Fl.CP_MARK_ERR_RX0, .ro, 0, false⟩, ⟨Fl.CP_MARK_ERR_RX1, .ro, 0, false⟩, ⟨Fl.CP_MARK_ERR_RX2, .ro, 0, false⟩, ⟨Fl.CP_MARK_ERR_SKEW, .ro, 0, false⟩]⟩
  , ⟨0x10004c, [(0x10000, 4)],
      [⟨Fl.CP_PKT_ERR_HDR_CRC, .ro, 0, false⟩, ⟨Fl.CP_PKT_ERR_PAY_CRC, .ro, 0, false⟩, ⟨Fl.CP_PKT_ERR_NPIX, .ro, 0, false⟩, ⟨Fl.CP_PKT_ERR_UNEXPECTED, .ro, 0, false⟩]⟩
  , ⟨0x100050, [(0x10000, 4)],
      [⟨Fl.CP_LINE_ERR_MISSING, .ro, 0, false⟩, ⟨Fl.CP_LINE_ERR_FIFO_DROP, .ro, 0, false⟩]⟩
  , ⟨0x100054, [(0x10000, 4)],
      [⟨Fl.CP_SVC_CNT_OUT, .ro, 0, false⟩, ⟨Fl.CP_SVC_CNT_PORT_REJOIN, .ro, 0, false⟩, ⟨Fl.CP_SVC_CNT_LANE_REJOIN, .ro, 0, false⟩, ⟨Fl.CP_SVC_CNT_TRAIN_FAIL, .ro, 0, false⟩]⟩
  , ⟨0x100058, [(0x10000, 4)],
      [⟨Fl.CP_LINES_COUNT, .ro, 0, false⟩]⟩
  , ⟨0x10005c, [(0x10000, 4)],
      [⟨Fl.CP_CNT_CLR_CLEAR, .wo, 0, false⟩]⟩ ]

def cpTable : List RegD := cpTable0

def lnTable0 : List RegD :=
  [ ⟨0x180000, [(0x1000, 16)],
      [⟨Fl.LN_CFG_ROLE, .ro, 0, false⟩, ⟨Fl.LN_CFG_REF_MODE, .ro, 0, false⟩, ⟨Fl.LN_CFG_POLARITY_INVERT, .ro, 0, false⟩, ⟨Fl.LN_CFG_PRECODE_ALLOWED, .ro, 0, false⟩, ⟨Fl.LN_CFG_CTLE_INIT, .ro, 0, false⟩, ⟨Fl.LN_CFG_REVERT, .ro, 0, false⟩, ⟨Fl.LN_CFG_AMPLITUDE, .ro, 0, false⟩]⟩
  , ⟨0x180004, [(0x1000, 16)],
      [⟨Fl.LN_STATE_STATE, .ro, 0, false⟩, ⟨Fl.LN_STATE_LOCK, .ro, 0, false⟩, ⟨Fl.LN_STATE_PRECODE, .ro, 0, false⟩, ⟨Fl.LN_STATE_CLK_OK, .ro, 0, false⟩, ⟨Fl.LN_STATE_TRIAL, .ro, 0, false⟩, ⟨Fl.LN_STATE_CTLE, .ro, 0, false⟩]⟩
  , ⟨0x180008, [(0x1000, 16)],
      [⟨Fl.LN_EVENT_EFM_LOW, .w1c, 0, false⟩, ⟨Fl.LN_EVENT_TAP_SAT, .w1c, 0, false⟩, ⟨Fl.LN_EVENT_CDR_LOSS, .w1c, 0, false⟩, ⟨Fl.LN_EVENT_RELOCKED, .w1c, 0, false⟩, ⟨Fl.LN_EVENT_ACQ_DONE, .w1c, 0, false⟩, ⟨Fl.LN_EVENT_ACQ_FAIL, .w1c, 0, false⟩, ⟨Fl.LN_EVENT_CLK_LOSS, .w1c, 0, false⟩, ⟨Fl.LN_EVENT_SYN_LOCK_LOST, .w1c, 0, false⟩, ⟨Fl.LN_EVENT_SYN_TIMEOUT, .w1c, 0, false⟩, ⟨Fl.LN_EVENT_CAL_FAIL, .w1c, 0, false⟩, ⟨Fl.LN_EVENT_CAL_REFUSED, .w1c, 0, false⟩]⟩
  , ⟨0x18000c, [(0x1000, 16)],
      [⟨Fl.LN_CTRL_ADAPT_HOLD, .rw, 0, false⟩, ⟨Fl.LN_CTRL_CNT_FREEZE, .rw, 0, false⟩]⟩
  , ⟨0x180010, [(0x1000, 16)],
      [⟨Fl.LN_EFM_LAST, .ro, 0, false⟩, ⟨Fl.LN_EFM_BASE, .ro, 0, false⟩, ⟨Fl.LN_EFM_MIN, .ro, 255, false⟩, ⟨Fl.LN_EFM_LAST_REVERTED, .ro, 0, false⟩]⟩
  , ⟨0x180014, [(0x1000, 16)],
      [⟨Fl.LN_EFM_LOW_THRESHOLD, .rw, 128, false⟩]⟩
  , ⟨0x180018, [(0x1000, 16)],
      [⟨Fl.LN_TAPS0_H1, .ro, 0, false⟩, ⟨Fl.LN_TAPS0_H2, .ro, 0, false⟩, ⟨Fl.LN_TAPS0_H3, .ro, 0, false⟩, ⟨Fl.LN_TAPS0_H4, .ro, 0, false⟩]⟩
  , ⟨0x18001c, [(0x1000, 16)],
      [⟨Fl.LN_TAPS1_H5, .ro, 0, false⟩, ⟨Fl.LN_TAPS1_AMP, .ro, 0, false⟩]⟩
  , ⟨0x180020, [(0x1000, 16)],
      [⟨Fl.LN_CNT0_REVERTS, .ro, 0, false⟩, ⟨Fl.LN_CNT0_EFM_LOW_EPOCHS, .ro, 0, false⟩]⟩
  , ⟨0x180024, [(0x1000, 16)],
      [⟨Fl.LN_CNT1_CDR_LOSS, .ro, 0, false⟩, ⟨Fl.LN_CNT1_TAP_SAT, .ro, 0, false⟩, ⟨Fl.LN_CNT1_SYN_LOSS, .ro, 0, false⟩, ⟨Fl.LN_CNT1_ACQ_FAIL, .ro, 0, false⟩]⟩
  , ⟨0x180028, [(0x1000, 16)],
      [⟨Fl.LN_CNT_CLR_CLEAR, .wo, 0, false⟩]⟩
  , ⟨0x18002c, [(0x1000, 16)],
      [⟨Fl.LN_ACQ_RESULT, .ro, 0, false⟩, ⟨Fl.LN_ACQ_CTLE, .ro, 0, false⟩, ⟨Fl.LN_ACQ_EFM, .ro, 0, false⟩, ⟨Fl.LN_ACQ_TIME, .ro, 0, false⟩]⟩
  , ⟨0x180030, [(0x1000, 16)],
      [⟨Fl.LN_CAL_DONE, .ro, 0, false⟩, ⟨Fl.LN_CAL_FAIL, .ro, 0, false⟩, ⟨Fl.LN_CAL_RECAL, .wo, 0, false⟩]⟩
  , ⟨0x180034, [(0x1000, 16)],
      [⟨Fl.LN_SYN_SETTLE_US, .ro, 0, false⟩, ⟨Fl.LN_SYN_CAL_COUNT, .ro, 0, false⟩]⟩
  , ⟨0x180038, [(0x1000, 16)],
      [⟨Fl.LN_EPOCH_COUNT, .ro, 0, false⟩]⟩ ]

def lnTable : List RegD := lnTable0

def acqTable0 : List RegD :=
  [ ⟨0x200000, [(0x100, 8)],
      [⟨Fl.ACQ_FN_CFG_TRIGGER, .ro, 0, false⟩, ⟨Fl.ACQ_FN_CFG_OPEN_SOURCE, .ro, 0, false⟩, ⟨Fl.ACQ_FN_CFG_OPEN_EDGE, .ro, 0, false⟩, ⟨Fl.ACQ_FN_CFG_OPEN_INDEX, .ro, 0, false⟩, ⟨Fl.ACQ_FN_CFG_STRIPE_LINES, .ro, 0, false⟩]⟩
  , ⟨0x200004, [(0x100, 8)],
      [⟨Fl.ACQ_FN_CTRL_DEG_VERDICT, .rws, 0, false⟩, ⟨Fl.ACQ_FN_CTRL_LATE_DEGRADES, .rws, 0, false⟩, ⟨Fl.ACQ_FN_CTRL_FILL, .rws, 0, false⟩]⟩
  , ⟨0x200008, [(0x100, 8)],
      [⟨Fl.ACQ_FN_MAX_LEN_COUNTS, .rws, 1000000, false⟩]⟩
  , ⟨0x20000c, [(0x100, 8)],
      [⟨Fl.ACQ_FN_CLOSE_POS_COUNTS, .rws, 0, false⟩]⟩
  , ⟨0x200010, [(0x100, 8)],
      [⟨Fl.ACQ_FN_REV_HYST_COUNTS, .rws, 4, false⟩]⟩
  , ⟨0x200014, [(0x100, 8)],
      [⟨Fl.ACQ_FN_TIMER_LEN_LINES, .rws, 1024, false⟩]⟩
  , ⟨0x200018, [(0x100, 8)],
      [⟨Fl.ACQ_FN_TIMER_GAP_LINES, .rws, 0, false⟩]⟩
  , ⟨0x20001c, [(0x100, 8)],
      [⟨Fl.ACQ_FN_LAST_TID_TID, .ro, 0, false⟩]⟩
  , ⟨0x200020, [(0x100, 8)],
      [⟨Fl.ACQ_FN_LAST_LEP_LEP, .ro, 0, false⟩]⟩
  , ⟨0x200024, [(0x100, 8)],
      [⟨Fl.ACQ_FN_CNT0_OPENED, .ro, 0, false⟩]⟩
  , ⟨0x200028, [(0x100, 8)],
      [⟨Fl.ACQ_FN_CNT1_DEGRADED, .ro, 0, false⟩, ⟨Fl.ACQ_FN_CNT1_REVERSED, .ro, 0, false⟩]⟩
  , ⟨0x20002c, [(0x100, 8)],
      [⟨Fl.ACQ_FN_CNT2_MAX_LEN, .ro, 0, false⟩, ⟨Fl.ACQ_FN_CNT2_LATE_LINES, .ro, 0, false⟩]⟩
  , ⟨0x200030, [(0x100, 8)],
      [⟨Fl.ACQ_FN_EVENT_OPENED, .w1c, 0, false⟩, ⟨Fl.ACQ_FN_EVENT_CLOSED, .w1c, 0, false⟩, ⟨Fl.ACQ_FN_EVENT_DEGRADED, .w1c, 0, false⟩, ⟨Fl.ACQ_FN_EVENT_REVERSED, .w1c, 0, false⟩, ⟨Fl.ACQ_FN_EVENT_MAX_LEN, .w1c, 0, false⟩]⟩
  , ⟨0x200034, [(0x100, 8)],
      [⟨Fl.ACQ_FN_CNT_CLR_CLEAR, .wo, 0, false⟩]⟩
  , ⟨0x200080, [(0x100, 8), (0x8, 16)],
      [⟨Fl.ACQ_FN_SLOT_TID_TID, .ro, 0, false⟩]⟩
  , ⟨0x200084, [(0x100, 8), (0x8, 16)],
      [⟨Fl.ACQ_FN_SLOT_LEP_LEP, .ro, 0, false⟩]⟩
  , ⟨0x200800, [],
      [⟨Fl.ACQ_TID_NEXT_TID, .rwg, 1, false⟩]⟩
  , ⟨0x201000, [(0x40, 4)],
      [⟨Fl.LTG_P_CFG_RATIO_LINES, .ro, 0, false⟩, ⟨Fl.LTG_P_CFG_RATIO_COUNTS, .ro, 0, false⟩]⟩
  , ⟨0x201004, [(0x40, 4)],
      [⟨Fl.LTG_P_MERIDIAN_MERIDIAN, .ro, 0, false⟩]⟩
  , ⟨0x201008, [(0x40, 4)],
      [⟨Fl.LTG_P_TRIM_TRIM, .rws, 0, false⟩]⟩
  , ⟨0x20100c, [(0x40, 4)],
      [⟨Fl.LTG_P_DECIM_DX, .ro, 0, false⟩, ⟨Fl.LTG_P_DECIM_DY, .ro, 0, false⟩, ⟨Fl.LTG_P_DECIM_FN, .ro, 0, false⟩, ⟨Fl.LTG_P_DECIM_VALID, .ro, 0, false⟩]⟩
  , ⟨0x201010, [(0x40, 4)],
      [⟨Fl.LTG_P_STATUS_ACTIVE, .ro, 0, false⟩, ⟨Fl.LTG_P_STATUS_SLOT, .ro, 0, false⟩, ⟨Fl.LTG_P_STATUS_LINE, .ro, 0, false⟩]⟩
  , ⟨0x201014, [(0x40, 4)],
      [⟨Fl.LTG_P_ACC_ACC, .ro, 0, false⟩]⟩
  , ⟨0x201018, [(0x40, 4)],
      [⟨Fl.LTG_P_TRIGGERS_COUNT, .ro, 0, false⟩]⟩ ]

def acqTable1 : List RegD :=
  [ ⟨0x20101c, [(0x40, 4)],
      [⟨Fl.LTG_P_SKIP_SKIPPED, .ro, 0, false⟩, ⟨Fl.LTG_P_SKIP_UNSERVED, .ro, 0, false⟩]⟩
  , ⟨0x201020, [(0x40, 4)],
      [⟨Fl.LTG_P_ERR_OVERRATE, .ro, 0, false⟩, ⟨Fl.LTG_P_ERR_OVERLAP, .ro, 0, false⟩]⟩
  , ⟨0x201024, [(0x40, 4)],
      [⟨Fl.LTG_P_EVENT_SKIP, .w1c, 0, false⟩, ⟨Fl.LTG_P_EVENT_UNSERVED, .w1c, 0, false⟩, ⟨Fl.LTG_P_EVENT_OVERRATE, .w1c, 0, false⟩, ⟨Fl.LTG_P_EVENT_OVERLAP, .w1c, 0, false⟩]⟩
  , ⟨0x201028, [(0x40, 4)],
      [⟨Fl.LTG_P_CNT_CLR_CLEAR, .wo, 0, false⟩]⟩
  , ⟨0x201200, [(0x10, 8)],
      [⟨Fl.LTG_TMR_PERIOD_CYCLES, .ro, 0, false⟩]⟩
  , ⟨0x201204, [(0x10, 8)],
      [⟨Fl.LTG_TMR_COUNT_COUNT, .ro, 0, false⟩]⟩
  , ⟨0x202000, [],
      [⟨Fl.STS_USED_BYTES, .ro, 0, false⟩]⟩
  , ⟨0x202004, [],
      [⟨Fl.STS_ECC_CORR, .ro, 0, false⟩, ⟨Fl.STS_ECC_UNCORR, .ro, 0, false⟩]⟩
  , ⟨0x202008, [],
      [⟨Fl.STS_ECC_ADDR_ADDR, .ro, 0, false⟩]⟩
  , ⟨0x20200c, [],
      [⟨Fl.STS_EVENT_CORR, .w1c, 0, false⟩, ⟨Fl.STS_EVENT_UNCORR, .w1c, 0, false⟩]⟩
  , ⟨0x202010, [],
      [⟨Fl.STS_CNT_CLR_CLEAR, .wo, 0, false⟩]⟩
  , ⟨0x202100, [(0x8, 128)],
      [⟨Fl.STS_BAND_BASE_BASE, .ro, 0, false⟩, ⟨Fl.STS_BAND_BASE_VALID, .ro, 0, false⟩]⟩
  , ⟨0x202104, [(0x8, 128)],
      [⟨Fl.STS_BAND_INFO_SIZE, .ro, 0, false⟩, ⟨Fl.STS_BAND_INFO_FN, .ro, 0, false⟩, ⟨Fl.STS_BAND_INFO_KIND, .ro, 0, false⟩, ⟨Fl.STS_BAND_INFO_PORT, .ro, 0, false⟩]⟩ ]

def acqTable : List RegD := acqTable0 ++ acqTable1

def engTable0 : List RegD :=
  [ ⟨0x300000, [(0x1000, 2)],
      [⟨Fl.E_STATUS_BUSY, .ro, 0, false⟩, ⟨Fl.E_STATUS_FENCED, .ro, 0, false⟩, ⟨Fl.E_STATUS_HELD, .ro, 0, false⟩, ⟨Fl.E_STATUS_FN, .ro, 0, false⟩, ⟨Fl.E_STATUS_STEP, .ro, 0, false⟩, ⟨Fl.E_STATUS_SLOT, .ro, 0, false⟩]⟩
  , ⟨0x300004, [(0x1000, 2)],
      [⟨Fl.E_JOB_STRIPE, .ro, 0, false⟩]⟩
  , ⟨0x300008, [(0x1000, 2)],
      [⟨Fl.E_JOB_TID_TID, .ro, 0, false⟩]⟩
  , ⟨0x30000c, [(0x1000, 2)],
      [⟨Fl.E_QUEUE_READY, .ro, 0, false⟩]⟩
  , ⟨0x300010, [(0x1000, 2)],
      [⟨Fl.E_LAST_CYCLES_CYCLES, .ro, 0, false⟩]⟩
  , ⟨0x300014, [(0x1000, 2)],
      [⟨Fl.E_MAX_CYCLES_CYCLES, .ro, 0, false⟩]⟩
  , ⟨0x300018, [(0x1000, 2)],
      [⟨Fl.E_MAX_STEP_STEP, .ro, 0, false⟩, ⟨Fl.E_MAX_STEP_FN, .ro, 0, false⟩]⟩
  , ⟨0x30001c, [(0x1000, 2)],
      [⟨Fl.E_JOBS_COUNT, .ro, 0, false⟩]⟩
  , ⟨0x300028, [(0x1000, 2)],
      [⟨Fl.E_ECC_LB_CORR, .ro, 0, false⟩, ⟨Fl.E_ECC_LB_UNCORR, .ro, 0, false⟩, ⟨Fl.E_ECC_WS_CORR, .ro, 0, false⟩, ⟨Fl.E_ECC_WS_UNCORR, .ro, 0, false⟩]⟩
  , ⟨0x30002c, [(0x1000, 2)],
      [⟨Fl.E_ECC_ADDR_ADDR, .ro, 0, false⟩, ⟨Fl.E_ECC_ADDR_MEM, .ro, 0, false⟩]⟩
  , ⟨0x300030, [(0x1000, 2)],
      [⟨Fl.E_EVENT_ECC_CORR, .w1c, 0, false⟩, ⟨Fl.E_EVENT_ECC_UNCORR, .w1c, 0, false⟩, ⟨Fl.E_EVENT_EMPTY, .w1c, 0, false⟩, ⟨Fl.E_EVENT_SERVICE, .w1c, 0, false⟩]⟩
  , ⟨0x300034, [(0x1000, 2)],
      [⟨Fl.E_CNT_CLR_CLEAR, .wo, 0, false⟩]⟩
  , ⟨0x300020, [(0x1000, 2)],
      [⟨Fl.E_BUSY_LO_CYCLES, .ro, 0, false⟩]⟩
  , ⟨0x300024, [(0x1000, 2)],
      [⟨Fl.E_BUSY_HI_CYCLES, .ro, 0, false⟩]⟩
  , ⟨0x302000, [],
      [⟨Fl.PST_STATUS_BUSY, .ro, 0, false⟩, ⟨Fl.PST_STATUS_FENCED, .ro, 0, false⟩, ⟨Fl.PST_STATUS_HELD, .ro, 0, false⟩, ⟨Fl.PST_STATUS_FN, .ro, 0, false⟩, ⟨Fl.PST_STATUS_STEP, .ro, 0, false⟩, ⟨Fl.PST_STATUS_SLOT, .ro, 0, false⟩]⟩
  , ⟨0x302004, [],
      [⟨Fl.PST_JOB_TID_TID, .ro, 0, false⟩]⟩
  , ⟨0x302008, [],
      [⟨Fl.PST_LAST_CYCLES_CYCLES, .ro, 0, false⟩]⟩
  , ⟨0x30200c, [],
      [⟨Fl.PST_JOBS_COUNT, .ro, 0, false⟩]⟩
  , ⟨0x302010, [],
      [⟨Fl.PST_CAND_OVF, .ro, 0, false⟩]⟩
  , ⟨0x302014, [],
      [⟨Fl.PST_EVENT_EMPTY, .w1c, 0, false⟩, ⟨Fl.PST_EVENT_CAND_OVF, .w1c, 0, false⟩, ⟨Fl.PST_EVENT_SERVICE, .w1c, 0, false⟩]⟩
  , ⟨0x302018, [],
      [⟨Fl.PST_CNT_CLR_CLEAR, .wo, 0, false⟩]⟩
  , ⟨0x303000, [(0x40, 8)],
      [⟨Fl.VRD_FN_CFG_INSTANCE, .ro, 0, false⟩, ⟨Fl.VRD_FN_CFG_VALID, .ro, 0, false⟩, ⟨Fl.VRD_FN_CFG_RULE_COUNT, .ro, 0, false⟩]⟩
  , ⟨0x303004, [(0x40, 8)],
      [⟨Fl.VRD_FN_DP_DECISION_POINT, .ro, 0, false⟩]⟩
  , ⟨0x303008, [(0x40, 8)],
      [⟨Fl.VRD_FN_LAST_CODE, .ro, 65, false⟩, ⟨Fl.VRD_FN_LAST_ISSUE, .ro, 0, false⟩]⟩ ]

def engTable1 : List RegD :=
  [ ⟨0x30300c, [(0x40, 8)],
      [⟨Fl.VRD_FN_LAST_TID_TID, .ro, 0, false⟩]⟩
  , ⟨0x303010, [(0x40, 8)],
      [⟨Fl.VRD_FN_SLACK_SLACK, .ro, 0, false⟩]⟩
  , ⟨0x303014, [(0x40, 8)],
      [⟨Fl.VRD_FN_MIN_SLACK_SLACK, .ro, 2147483647, false⟩]⟩
  , ⟨0x303018, [(0x40, 8)],
      [⟨Fl.VRD_FN_SLACK_LOW_THRESHOLD, .rws, 0, false⟩]⟩
  , ⟨0x30301c, [(0x40, 8)],
      [⟨Fl.VRD_FN_CNT0_ON_TIME, .ro, 0, false⟩, ⟨Fl.VRD_FN_CNT0_NO_MATCH, .ro, 0, false⟩]⟩
  , ⟨0x303020, [(0x40, 8)],
      [⟨Fl.VRD_FN_CNT1_DEG_DEFAULT, .ro, 0, false⟩, ⟨Fl.VRD_FN_CNT1_NONE, .ro, 0, false⟩]⟩
  , ⟨0x303024, [(0x40, 8)],
      [⟨Fl.VRD_FN_EVENT_VERDICT, .w1c, 0, false⟩, ⟨Fl.VRD_FN_EVENT_LATE, .w1c, 0, false⟩, ⟨Fl.VRD_FN_EVENT_NO_MATCH, .w1c, 0, false⟩, ⟨Fl.VRD_FN_EVENT_LOW_SLACK, .w1c, 0, false⟩, ⟨Fl.VRD_FN_EVENT_DEG_DEFAULT, .w1c, 0, false⟩]⟩
  , ⟨0x303028, [(0x40, 8)],
      [⟨Fl.VRD_FN_CNT_CLR_CLEAR, .wo, 0, false⟩]⟩
  , ⟨0x303400, [],
      [⟨Fl.VRD_HIT_CLR_INSTANCE, .wo, 0, false⟩]⟩
  , ⟨0x304000, [(0x100, 16), (0x4, 64)],
      [⟨Fl.VRD_HIT_COUNT, .ro, 0, false⟩]⟩ ]

def engTable : List RegD := engTable0 ++ engTable1

def dlvTable0 : List RegD :=
  [ ⟨0x400000, [(0x100, 128)],
      [⟨Fl.DLV_CTRL_ENABLE, .rws, 0, false⟩, ⟨Fl.DLV_CTRL_MODE, .rws, 0, false⟩, ⟨Fl.DLV_CTRL_IRQ_ON_RESULT, .rw, 0, false⟩]⟩
  , ⟨0x400004, [(0x100, 128)],
      [⟨Fl.DLV_STATUS_ENABLED, .ro, 0, false⟩, ⟨Fl.DLV_STATUS_GATED, .ro, 0, false⟩, ⟨Fl.DLV_STATUS_BP_SUSPENDED, .ro, 0, false⟩, ⟨Fl.DLV_STATUS_BOUND, .ro, 0, false⟩]⟩
  , ⟨0x400010, [(0x100, 128)],
      [⟨Fl.DLV_DESC_SIZE_LOG2, .rws, 7, false⟩]⟩
  , ⟨0x40001c, [(0x100, 128)],
      [⟨Fl.DLV_WIN_SIZE_KIB, .rws, 0, false⟩]⟩
  , ⟨0x400020, [(0x100, 128)],
      [⟨Fl.DLV_PROD_INDEX, .ro, 0, false⟩]⟩
  , ⟨0x400024, [(0x100, 128)],
      [⟨Fl.DLV_CONS_INDEX, .rw, 0, false⟩]⟩
  , ⟨0x400028, [(0x100, 128)],
      [⟨Fl.DLV_ALLOC_INDEX, .ro, 0, false⟩]⟩
  , ⟨0x40002c, [(0x100, 128)],
      [⟨Fl.DLV_WIN_WP_OFFSET, .ro, 0, false⟩]⟩
  , ⟨0x400030, [(0x100, 128)],
      [⟨Fl.DLV_FILTER_SIDE_MASK, .rws, 0, false⟩, ⟨Fl.DLV_FILTER_PORT_MASK, .rws, 0, false⟩, ⟨Fl.DLV_FILTER_CHANNEL_MASK, .rws, 0, false⟩, ⟨Fl.DLV_FILTER_OBJECTS, .rws, 0, false⟩]⟩
  , ⟨0x40003c, [(0x100, 128)],
      [⟨Fl.DLV_CROP_X_X0, .rws, 0, false⟩, ⟨Fl.DLV_CROP_X_WIDTH, .rws, 0, false⟩]⟩
  , ⟨0x400040, [(0x100, 128)],
      [⟨Fl.DLV_CROP_Y_Y0, .rws, 0, false⟩, ⟨Fl.DLV_CROP_Y_HEIGHT, .rws, 0, false⟩]⟩
  , ⟨0x400064, [(0x100, 128)],
      [⟨Fl.DLV_IRQ_COUNT, .rw, 1, false⟩, ⟨Fl.DLV_IRQ_TIME_US, .rw, 0, false⟩]⟩
  , ⟨0x400068, [(0x100, 128)],
      [⟨Fl.DLV_HOLD_MAX, .rw, 256, false⟩, ⟨Fl.DLV_HOLD_HELD, .ro, 0, false⟩]⟩
  , ⟨0x40006c, [(0x100, 128)],
      [⟨Fl.DLV_BP_LIMIT_US, .rw, 1000, false⟩]⟩
  , ⟨0x400070, [(0x100, 128)],
      [⟨Fl.DLV_EVENT_DROP, .w1c, 0, false⟩, ⟨Fl.DLV_EVENT_BP_TIMEOUT, .w1c, 0, false⟩, ⟨Fl.DLV_EVENT_TOO_BIG, .w1c, 0, false⟩, ⟨Fl.DLV_EVENT_HOLD_FULL, .w1c, 0, false⟩, ⟨Fl.DLV_EVENT_CONS_ERR, .w1c, 0, false⟩, ⟨Fl.DLV_EVENT_CONFIG, .w1c, 0, false⟩]⟩
  , ⟨0x400074, [(0x100, 128)],
      [⟨Fl.DLV_EVENT_EN_EN, .rw, 63, false⟩]⟩
  , ⟨0x400078, [(0x100, 128)],
      [⟨Fl.DLV_CNT_OBJ_COUNT, .ro, 0, false⟩]⟩
  , ⟨0x40007c, [(0x100, 128)],
      [⟨Fl.DLV_CNT_DROP_COUNT, .ro, 0, false⟩]⟩
  , ⟨0x400080, [(0x100, 128)],
      [⟨Fl.DLV_CNT_VOID_COUNT, .ro, 0, false⟩]⟩
  , ⟨0x40008c, [(0x100, 128)],
      [⟨Fl.DLV_CNT_CLR_CLEAR, .wo, 0, false⟩]⟩
  , ⟨0x400008, [(0x100, 128)],
      [⟨Fl.DLV_DESC_BASE_LO_ADDR, .rws, 0, false⟩]⟩
  , ⟨0x40000c, [(0x100, 128)],
      [⟨Fl.DLV_DESC_BASE_HI_ADDR, .rws, 0, false⟩]⟩
  , ⟨0x400014, [(0x100, 128)],
      [⟨Fl.DLV_WIN_BASE_LO_ADDR, .rws, 0, false⟩]⟩
  , ⟨0x400018, [(0x100, 128)],
      [⟨Fl.DLV_WIN_BASE_HI_ADDR, .rws, 0, false⟩]⟩ ]

def dlvTable1 : List RegD :=
  [ ⟨0x400034, [(0x100, 128)],
      [⟨Fl.DLV_VMASK_LO_VERDICT_MASK, .rws, 0, false⟩]⟩
  , ⟨0x400038, [(0x100, 128)],
      [⟨Fl.DLV_VMASK_HI_VERDICT_MASK, .rws, 0, false⟩]⟩
  , ⟨0x400084, [(0x100, 128)],
      [⟨Fl.DLV_BYTES_LO_BYTES, .ro, 0, false⟩]⟩
  , ⟨0x400088, [(0x100, 128)],
      [⟨Fl.DLV_BYTES_HI_BYTES, .ro, 0, false⟩]⟩
  , ⟨0x400044, [(0x100, 128), (0x4, 8)],
      [⟨Fl.DLV_CLASS_CLASS, .rws, 0, false⟩]⟩
  , ⟨0x408000, [(0x4, 256)],
      [⟨Fl.EVT_MAP_VECTOR, .rw, 0, false⟩, ⟨Fl.EVT_MAP_ENABLE, .rw, 0, false⟩]⟩
  , ⟨0x408400, [(0x4, 8)],
      [⟨Fl.EVT_SRC_ASSERTED, .ro, 0, false⟩]⟩
  , ⟨0x408500, [(0x4, 9)],
      [⟨Fl.EVT_VMASK_MASK, .rw, 0, false⟩]⟩
  , ⟨0x408540, [(0x4, 9)],
      [⟨Fl.EVT_VPEND_PEND, .ro, 0, false⟩]⟩
  , ⟨0x408580, [],
      [⟨Fl.EVT_PULSE_WAKE_DONE, .w1c, 0, false⟩, ⟨Fl.EVT_PULSE_HOSTLOSS, .w1c, 0, false⟩]⟩
  , ⟨0x408600, [],
      [⟨Fl.DLV_POOL_USED, .ro, 0, false⟩, ⟨Fl.DLV_POOL_PEAK, .ro, 0, false⟩]⟩ ]

def dlvTable : List RegD := dlvTable0 ++ dlvTable1

def bistTable0 : List RegD :=
  [ ⟨0x500000, [],
      [⟨Fl.BIST_STATUS_RUNNING, .ro, 0, false⟩, ⟨Fl.BIST_STATUS_PHASE, .ro, 0, false⟩, ⟨Fl.BIST_STATUS_REC_INTACT, .ro, 0, true⟩, ⟨Fl.BIST_STATUS_SHORT_BUDGET, .ro, 0, false⟩, ⟨Fl.BIST_STATUS_LOGIC_WAIT, .ro, 0, false⟩, ⟨Fl.BIST_STATUS_DONE, .ro, 0, false⟩, ⟨Fl.BIST_STATUS_PEAK_10MW, .ro, 0, false⟩]⟩
  , ⟨0x500004, [],
      [⟨Fl.BIST_CAP_CAP, .rw, 1400, false⟩]⟩
  , ⟨0x500008, [],
      [⟨Fl.BIST_BUDGET_US, .rw, 2000, false⟩]⟩
  , ⟨0x50001c, [],
      [⟨Fl.BIST_RETEST_SLICE, .rw, 0, false⟩, ⟨Fl.BIST_RETEST_GO, .wo, 0, false⟩]⟩
  , ⟨0x500020, [],
      [⟨Fl.BIST_RETEST_STATUS_BUSY, .ro, 0, false⟩, ⟨Fl.BIST_RETEST_STATUS_RESULT, .ro, 0, false⟩, ⟨Fl.BIST_RETEST_STATUS_REASON, .ro, 0, false⟩]⟩
  , ⟨0x500024, [],
      [⟨Fl.BIST_EVENT_DONE, .w1c, 0, false⟩, ⟨Fl.BIST_EVENT_FAIL, .w1c, 0, false⟩, ⟨Fl.BIST_EVENT_RETEST_DONE, .w1c, 0, false⟩, ⟨Fl.BIST_EVENT_FENCE_CHG, .w1c, 0, false⟩]⟩
  , ⟨0x500028, [],
      [⟨Fl.BIST_OPTIME_SECONDS, .ro, 0, true⟩]⟩
  , ⟨0x50002c, [],
      [⟨Fl.BIST_SAVE_UNCORR, .ro, 0, false⟩]⟩
  , ⟨0x500030, [],
      [⟨Fl.BIST_LAST_US_US, .ro, 0, true⟩]⟩
  , ⟨0x50000c, [],
      [⟨Fl.BIST_FENCE_LO_FENCE, .ro, 0, true⟩]⟩
  , ⟨0x500010, [],
      [⟨Fl.BIST_FENCE_HI_FENCE, .ro, 0, true⟩]⟩
  , ⟨0x500014, [],
      [⟨Fl.BIST_UNFIN_LO_UNFIN, .ro, 0, true⟩]⟩
  , ⟨0x500018, [],
      [⟨Fl.BIST_UNFIN_HI_UNFIN, .ro, 0, true⟩]⟩
  , ⟨0x500100, [(0x4, 48)],
      [⟨Fl.BIST_RESULT_RESULT, .ro, 0, true⟩, ⟨Fl.BIST_RESULT_FENCED, .ro, 0, true⟩, ⟨Fl.BIST_RESULT_TIME_US, .ro, 0, true⟩, ⟨Fl.BIST_RESULT_SEGMENT, .ro, 0, true⟩]⟩
  , ⟨0x500200, [(0x4, 54)],
      [⟨Fl.BIST_REC_WORD, .ro, 0, true⟩]⟩ ]

def bistTable : List RegD := bistTable0

def casTable0 : List RegD :=
  [ ⟨0x600000, [],
      [⟨Fl.CAS_STATUS_STATE, .ro, 0, false⟩, ⟨Fl.CAS_STATUS_ALIGNED, .ro, 0, false⟩, ⟨Fl.CAS_STATUS_CAUSE, .ro, 0, false⟩, ⟨Fl.CAS_STATUS_POSITION, .ro, 0, false⟩, ⟨Fl.CAS_STATUS_LENGTH, .ro, 0, false⟩, ⟨Fl.CAS_STATUS_VALID, .ro, 0, false⟩]⟩
  , ⟨0x600004, [],
      [⟨Fl.CAS_CTRL_AUTO, .rw, 1, false⟩, ⟨Fl.CAS_CTRL_RELINK, .rwg, 0, false⟩]⟩
  , ⟨0x600008, [],
      [⟨Fl.CAS_EVENT_LINK_UP, .w1c, 0, false⟩, ⟨Fl.CAS_EVENT_LINK_FAIL, .w1c, 0, false⟩, ⟨Fl.CAS_EVENT_INPUT_LOSS, .w1c, 0, false⟩, ⟨Fl.CAS_EVENT_RETURN_LOSS, .w1c, 0, false⟩, ⟨Fl.CAS_EVENT_DRIFT, .w1c, 0, false⟩, ⟨Fl.CAS_EVENT_TS_AHEAD, .w1c, 0, false⟩, ⟨Fl.CAS_EVENT_MSG_DROP, .w1c, 0, false⟩, ⟨Fl.CAS_EVENT_MSG_LOSS, .w1c, 0, false⟩, ⟨Fl.CAS_EVENT_FN_MISMATCH, .w1c, 0, false⟩, ⟨Fl.CAS_EVENT_EFM_LOW, .w1c, 0, false⟩]⟩
  , ⟨0x60000c, [],
      [⟨Fl.CAS_RP_RP, .ro, 0, false⟩]⟩
  , ⟨0x600010, [],
      [⟨Fl.CAS_RING_LINKUP, .ro, 0, false⟩, ⟨Fl.CAS_RING_NOW, .ro, 0, false⟩]⟩
  , ⟨0x600014, [],
      [⟨Fl.CAS_CORR_CORR, .ro, 0, false⟩]⟩
  , ⟨0x600018, [],
      [⟨Fl.CAS_TRIM_PS, .rwg, 0, false⟩]⟩
  , ⟨0x60001c, [],
      [⟨Fl.CAS_TS_AHEAD_CYCLES, .ro, 0, false⟩]⟩
  , ⟨0x600020, [],
      [⟨Fl.CAS_EFM_LAST, .ro, 0, false⟩, ⟨Fl.CAS_EFM_MIN, .ro, 255, false⟩]⟩
  , ⟨0x600024, [],
      [⟨Fl.CAS_EFM_LOW_THRESHOLD, .rw, 128, false⟩]⟩
  , ⟨0x600028, [],
      [⟨Fl.CAS_CNT_BAD, .ro, 0, false⟩, ⟨Fl.CAS_CNT_LOSS, .ro, 0, false⟩, ⟨Fl.CAS_CNT_MSG_LOSS, .ro, 0, false⟩]⟩
  , ⟨0x60002c, [],
      [⟨Fl.CAS_CNT_CLR_CLEAR, .wo, 0, false⟩]⟩
  , ⟨0x600030, [(0x4, 3)],
      [⟨Fl.CAS_F_STATUS_WORD, .ro, 0, false⟩, ⟨Fl.CAS_F_STATUS_PRESENT, .ro, 0, false⟩]⟩
  , ⟨0x600040, [(0x4, 3)],
      [⟨Fl.CAS_F_CORR_CORR, .ro, 0, false⟩]⟩ ]

def casTable : List RegD := casTable0

def jmirTable0 : List RegD :=
  [ ⟨0x0, [],
      [⟨Fl.MIR_FIELD_ID_PART, .ro, 9793, false⟩, ⟨Fl.MIR_FIELD_ID_MINOR, .ro, 0, false⟩, ⟨Fl.MIR_FIELD_ID_MAJOR, .ro, 1, false⟩]⟩
  , ⟨0x4, [],
      [⟨Fl.MIR_STATE_FAILSAFE, .ro, 1, false⟩, ⟨Fl.MIR_STATE_FS_CAUSE, .ro, 0, false⟩, ⟨Fl.MIR_STATE_DETECTOR, .ro, 0, false⟩]⟩
  , ⟨0x10, [],
      [⟨Fl.MIR_ATTN_ZEV_DROP, .w1c, 0, false⟩, ⟨Fl.MIR_ATTN_BLOCK, .w1c, 0, false⟩]⟩
  , ⟨0x14, [],
      [⟨Fl.MIR_BAD_BEATS_COUNT, .ro, 0, false⟩]⟩
  , ⟨0x20, [],
      [⟨Fl.MIR_PINS_MIRO, .ro, 0, false⟩, ⟨Fl.MIR_PINS_MIRI, .ro, 0, false⟩]⟩ ]

def jmirTable : List RegD := jmirTable0

def jpfiTable0 : List RegD :=
  [ ⟨0x1000, [(0x40, 4)],
      [⟨Fl.PFI_CFG_MODE, .ro, 0, false⟩, ⟨Fl.PFI_CFG_FILTER, .ro, 0, false⟩, ⟨Fl.PFI_CFG_REF_KIND, .ro, 0, false⟩, ⟨Fl.PFI_CFG_DIR_INVERT, .ro, 0, false⟩, ⟨Fl.PFI_CFG_TEETH, .ro, 0, false⟩]⟩
  , ⟨0x1004, [(0x40, 4)],
      [⟨Fl.PFI_POS_COUNT, .ro, 0, true⟩]⟩
  , ⟨0x1008, [(0x40, 4)],
      [⟨Fl.PFI_STAT_FRAC, .ro, 0, true⟩, ⟨Fl.PFI_STAT_DIR, .ro, 0, true⟩, ⟨Fl.PFI_STAT_STANDSTILL, .ro, 0, true⟩, ⟨Fl.PFI_STAT_SYNC, .ro, 0, true⟩]⟩
  , ⟨0x100c, [(0x40, 4)],
      [⟨Fl.PFI_SPEED_SPEED, .ro, 0, true⟩]⟩
  , ⟨0x1010, [(0x40, 4)],
      [⟨Fl.PFI_REF_POS_POS, .ro, 0, true⟩]⟩
  , ⟨0x1014, [(0x40, 4)],
      [⟨Fl.PFI_REF_CNT_COUNT, .ro, 0, true⟩]⟩
  , ⟨0x1018, [(0x40, 4)],
      [⟨Fl.PFI_REF_CHECK_PERIOD, .rw, 0, false⟩]⟩
  , ⟨0x101c, [(0x40, 4)],
      [⟨Fl.PFI_ERR_QUAD, .ro, 0, true⟩, ⟨Fl.PFI_ERR_OVERSPEED, .ro, 0, true⟩, ⟨Fl.PFI_ERR_TOOTH, .ro, 0, true⟩, ⟨Fl.PFI_ERR_REF, .ro, 0, true⟩]⟩
  , ⟨0x1020, [(0x40, 4)],
      [⟨Fl.PFI_EVENT_REF, .w1c, 0, false⟩, ⟨Fl.PFI_EVENT_QUAD, .w1c, 0, false⟩, ⟨Fl.PFI_EVENT_OVERSPEED, .w1c, 0, false⟩, ⟨Fl.PFI_EVENT_TOOTH, .w1c, 0, false⟩, ⟨Fl.PFI_EVENT_REF_ERR, .w1c, 0, false⟩]⟩
  , ⟨0x1024, [(0x40, 4)],
      [⟨Fl.PFI_ERR_CLR_CLEAR, .wo, 0, false⟩]⟩
  , ⟨0x2000, [(0x40, 2)],
      [⟨Fl.EMU_CFG_SOURCE_PFI, .ro, 255, false⟩]⟩
  , ⟨0x2004, [(0x40, 2)],
      [⟨Fl.EMU_RATIO_N, .rws, 1, false⟩, ⟨Fl.EMU_RATIO_M, .rws, 1, false⟩]⟩
  , ⟨0x2008, [(0x40, 2)],
      [⟨Fl.EMU_SLEW_SLEW, .rws, 10000000, false⟩]⟩
  , ⟨0x200c, [(0x40, 2)],
      [⟨Fl.EMU_ACCEL_ACCEL, .rws, 10000000, false⟩]⟩
  , ⟨0x2010, [(0x40, 2)],
      [⟨Fl.EMU_LAG_LIMIT_LIMIT, .rws, 4294967295, false⟩]⟩
  , ⟨0x2014, [(0x40, 2)],
      [⟨Fl.EMU_ZPERIOD_PERIOD, .rws, 0, false⟩]⟩
  , ⟨0x2018, [(0x40, 2)],
      [⟨Fl.EMU_CTRL_FS_RESUME, .rws, 0, false⟩, ⟨Fl.EMU_CTRL_RESYNC, .rws, 0, false⟩]⟩
  , ⟨0x201c, [(0x40, 2)],
      [⟨Fl.EMU_OUT_O, .ro, 0, true⟩]⟩
  , ⟨0x2020, [(0x40, 2)],
      [⟨Fl.EMU_LAG_LAG, .ro, 0, true⟩]⟩
  , ⟨0x2024, [(0x40, 2)],
      [⟨Fl.EMU_RATE_RATE, .ro, 0, false⟩]⟩
  , ⟨0x2028, [(0x40, 2)],
      [⟨Fl.EMU_STATUS_LAG_HIGH, .ro, 0, false⟩, ⟨Fl.EMU_STATUS_FROZEN, .ro, 1, false⟩, ⟨Fl.EMU_STATUS_DIR, .ro, 0, false⟩]⟩
  , ⟨0x202c, [(0x40, 2)],
      [⟨Fl.EMU_EVENT_LAG_EXCEEDED, .w1c, 0, false⟩, ⟨Fl.EMU_EVENT_LAG_SAT, .w1c, 0, false⟩, ⟨Fl.EMU_EVENT_RESYNCED, .w1c, 0, false⟩]⟩
  , ⟨0x2030, [(0x40, 2)],
      [⟨Fl.EMU_DISCARDED_COUNT, .ro, 0, true⟩]⟩
  , ⟨0x2800, [(0x4, 2)],
      [⟨Fl.PAS_CFG_SOURCE_PFI, .ro, 255, false⟩]⟩ ]

def jpfiTable1 : List RegD :=
  [ ⟨0x2810, [],
      [⟨Fl.PAS_PINS_PASS0, .ro, 0, false⟩, ⟨Fl.PAS_PINS_PASS1, .ro, 0, false⟩]⟩ ]

def jpfiTable : List RegD := jpfiTable0 ++ jpfiTable1

def jgateTable0 : List RegD :=
  [ ⟨0x3000, [(0x20, 4)],
      [⟨Fl.GHS_CFG_MAX_DEFERRAL_US, .ro, 0, false⟩, ⟨Fl.GHS_CFG_PWM_FREQ_HZ, .ro, 0, false⟩]⟩
  , ⟨0x3004, [(0x20, 4)],
      [⟨Fl.GHS_SENSE_ISNS_LIMIT_MA, .ro, 0, false⟩, ⟨Fl.GHS_SENSE_ISNS_SCALE, .rws, 10000, false⟩]⟩
  , ⟨0x3008, [(0x20, 4)],
      [⟨Fl.GHS_BLANK_BLANK_US, .rws, 10, false⟩]⟩
  , ⟨0x300c, [(0x20, 4)],
      [⟨Fl.GHS_ISNS_NOW, .ro, 0, false⟩, ⟨Fl.GHS_ISNS_PEAK, .ro, 0, false⟩]⟩
  , ⟨0x3010, [(0x20, 4)],
      [⟨Fl.GHS_STATUS_ON, .ro, 0, false⟩, ⟨Fl.GHS_STATUS_OC_LATCHED, .ro, 0, false⟩, ⟨Fl.GHS_STATUS_PEAK_BUSY, .ro, 0, false⟩]⟩
  , ⟨0x3014, [(0x20, 4)],
      [⟨Fl.GHS_EVENT_OC, .w1c, 0, false⟩, ⟨Fl.GHS_EVENT_DEFER_DROP, .w1c, 0, false⟩, ⟨Fl.GHS_EVENT_OC_CLEAR_FAIL, .w1c, 0, false⟩]⟩
  , ⟨0x3018, [(0x20, 4)],
      [⟨Fl.GHS_CTRL_OC_CLEAR, .wo, 0, false⟩]⟩
  , ⟨0x301c, [(0x20, 4)],
      [⟨Fl.GHS_CNT_DEFERRED, .ro, 0, false⟩, ⟨Fl.GHS_CNT_DEFER_DROP, .ro, 0, false⟩]⟩
  , ⟨0x3100, [(0x20, 8)],
      [⟨Fl.GLS_LIMIT_PEAK_MIN, .ro, 0, false⟩, ⟨Fl.GLS_LIMIT_PEAK_MAX, .ro, 0, false⟩, ⟨Fl.GLS_LIMIT_HOLD_DUTY_MAX, .ro, 0, false⟩]⟩
  , ⟨0x3104, [(0x20, 8)],
      [⟨Fl.GLS_SCALE_PEAK_SCALE, .rws, 128, false⟩, ⟨Fl.GLS_SCALE_HOLD_SCALE, .rws, 128, false⟩]⟩
  , ⟨0x3108, [(0x20, 8)],
      [⟨Fl.GLS_LATE_TOL_COUNTS, .rws, 0, false⟩]⟩
  , ⟨0x310c, [(0x20, 8)],
      [⟨Fl.GLS_STATUS_PHASE, .ro, 0, false⟩, ⟨Fl.GLS_STATUS_LAST_TREF, .ro, 0, false⟩, ⟨Fl.GLS_STATUS_PENDING, .ro, 0, false⟩]⟩
  , ⟨0x3110, [(0x20, 8)],
      [⟨Fl.GLS_CNT_FIRED, .ro, 0, false⟩, ⟨Fl.GLS_CNT_LATE, .ro, 0, false⟩, ⟨Fl.GLS_CNT_RETRIGGER, .ro, 0, false⟩]⟩
  , ⟨0x3114, [(0x20, 8)],
      [⟨Fl.GLS_DROP_LATE, .ro, 0, false⟩, ⟨Fl.GLS_DROP_OC, .ro, 0, false⟩, ⟨Fl.GLS_DROP_FULL_DUP, .ro, 0, false⟩, ⟨Fl.GLS_DROP_FLUSH_FS, .ro, 0, false⟩]⟩
  , ⟨0x3118, [(0x20, 8)],
      [⟨Fl.GLS_EVENT_FIRED, .w1c, 0, false⟩, ⟨Fl.GLS_EVENT_DEFERRED, .w1c, 0, false⟩, ⟨Fl.GLS_EVENT_DROPPED, .w1c, 0, false⟩]⟩
  , ⟨0x3200, [],
      [⟨Fl.GATE_FLUSH_GLS, .wo, 0, false⟩]⟩
  , ⟨0x3204, [],
      [⟨Fl.GATE_SCHED_PENDING, .ro, 0, false⟩, ⟨Fl.GATE_SCHED_FULL, .ro, 0, false⟩]⟩
  , ⟨0x3208, [],
      [⟨Fl.GATE_PINS_GHS, .ro, 0, false⟩, ⟨Fl.GATE_PINS_GLS, .ro, 0, false⟩]⟩
  , ⟨0x3400, [(0x4, 128)],
      [⟨Fl.GATE_STATE_OUTCOME, .ro, 0, false⟩, ⟨Fl.GATE_STATE_PROG, .ro, 0, false⟩, ⟨Fl.GATE_STATE_GLS, .ro, 0, false⟩, ⟨Fl.GATE_STATE_STAGED, .ro, 0, false⟩]⟩
  , ⟨0x4000, [],
      [⟨Fl.SER_STATUS_TX_LEVEL, .ro, 0, false⟩, ⟨Fl.SER_STATUS_RX_LEVEL, .ro, 0, false⟩, ⟨Fl.SER_STATUS_CREDIT, .ro, 64, false⟩]⟩
  , ⟨0x4004, [],
      [⟨Fl.SER_ERR_RX_DROP, .ro, 0, false⟩]⟩
  , ⟨0x5000, [],
      [⟨Fl.FSP_CFG_ROLE, .ro, 0, false⟩, ⟨Fl.FSP_CFG_SPI_MODE, .rw, 0, false⟩, ⟨Fl.FSP_CFG_CLK_KHZ, .rw, 1000, false⟩]⟩
  , ⟨0x5004, [],
      [⟨Fl.FSP_FRAME_FRAME_LEN, .rw, 0, false⟩, ⟨Fl.FSP_FRAME_CS_GAP, .rw, 2, false⟩, ⟨Fl.FSP_FRAME_FILL, .rw, 255, false⟩, ⟨Fl.FSP_FRAME_RX_ENABLE, .rw, 1, false⟩]⟩
  , ⟨0x5008, [],
      [⟨Fl.FSP_STATUS_ACTIVE, .ro, 0, false⟩, ⟨Fl.FSP_STATUS_WAIT, .ro, 0, false⟩, ⟨Fl.FSP_STATUS_CLK_KHZ, .ro, 0, false⟩]⟩ ]

def jgateTable1 : List RegD :=
  [ ⟨0x500c, [],
      [⟨Fl.FSP_ERR_PARTIAL, .ro, 0, false⟩, ⟨Fl.FSP_ERR_TX_PARTIAL, .ro, 0, false⟩, ⟨Fl.FSP_ERR_UNDERRUN, .ro, 0, false⟩, ⟨Fl.FSP_ERR_OVERRUN, .ro, 0, false⟩]⟩
  , ⟨0x5010, [],
      [⟨Fl.FSP_ERR_CLR_CLEAR, .wo, 0, false⟩]⟩
  , ⟨0x5014, [],
      [⟨Fl.FSP_FRAMES_COUNT, .ro, 0, false⟩]⟩
  , ⟨0x5018, [],
      [⟨Fl.FSP_EVENT_FRAME_END, .w1c, 0, false⟩, ⟨Fl.FSP_EVENT_ERR, .w1c, 0, false⟩]⟩ ]

def jgateTable : List RegD := jgateTable0 ++ jgateTable1

def jzlTable0 : List RegD :=
  [ ⟨0x6000, [(0x800, 2)],
      [⟨Fl.ZL_CFG_ENABLE, .ro, 0, false⟩, ⟨Fl.ZL_CFG_NODE_COUNT, .ro, 0, false⟩]⟩
  , ⟨0x6004, [(0x800, 2)],
      [⟨Fl.ZL_CTRL_DISCOVER, .rwg, 0, false⟩, ⟨Fl.ZL_CTRL_BIND_NEW, .wo, 0, false⟩, ⟨Fl.ZL_CTRL_AUTO_BIND, .rw, 0, false⟩, ⟨Fl.ZL_CTRL_SUPERVISE_MS, .rw, 0, false⟩]⟩
  , ⟨0x6008, [(0x800, 2)],
      [⟨Fl.ZL_STATUS_STATE, .ro, 0, false⟩, ⟨Fl.ZL_STATUS_BOUND, .ro, 0, false⟩, ⟨Fl.ZL_STATUS_TXN_BUSY, .ro, 0, false⟩, ⟨Fl.ZL_STATUS_INCR, .ro, 0, false⟩]⟩
  , ⟨0x600c, [(0x800, 2)],
      [⟨Fl.ZL_PRESENT_PRESENT, .ro, 0, false⟩]⟩
  , ⟨0x6010, [(0x800, 2)],
      [⟨Fl.ZL_EVENT_DISC_DONE, .w1c, 0, false⟩, ⟨Fl.ZL_EVENT_NEW_NODE, .w1c, 0, false⟩, ⟨Fl.ZL_EVENT_MISSING, .w1c, 0, false⟩, ⟨Fl.ZL_EVENT_UNLISTED, .w1c, 0, false⟩, ⟨Fl.ZL_EVENT_LINE_FULL, .w1c, 0, false⟩, ⟨Fl.ZL_EVENT_SEARCH_FAIL, .w1c, 0, false⟩, ⟨Fl.ZL_EVENT_STUCK, .w1c, 0, false⟩, ⟨Fl.ZL_EVENT_RELEASED, .w1c, 0, false⟩, ⟨Fl.ZL_EVENT_TXN_DONE, .w1c, 0, false⟩, ⟨Fl.ZL_EVENT_ERR, .w1c, 0, false⟩]⟩
  , ⟨0x6014, [(0x800, 2)],
      [⟨Fl.ZL_ERR_CRC, .ro, 0, false⟩, ⟨Fl.ZL_ERR_SYMBOL, .ro, 0, false⟩, ⟨Fl.ZL_ERR_NO_REPLY, .ro, 0, false⟩, ⟨Fl.ZL_ERR_GLITCH, .ro, 0, false⟩]⟩
  , ⟨0x6018, [(0x800, 2)],
      [⟨Fl.ZL_ERR_CLR_CLEAR, .wo, 0, false⟩]⟩
  , ⟨0x601c, [(0x800, 2)],
      [⟨Fl.ZL_ATTN_TS_TS, .ro, 0, false⟩]⟩
  , ⟨0x6020, [(0x800, 2)],
      [⟨Fl.ZL_ATTN_COUNT, .ro, 0, false⟩, ⟨Fl.ZL_ATTN_COLLIDED, .ro, 0, false⟩]⟩
  , ⟨0x6030, [(0x800, 2)],
      [⟨Fl.ZL_TXN_CMD_ADDR, .rw, 0, false⟩, ⟨Fl.ZL_TXN_CMD_CMD, .rw, 0, false⟩, ⟨Fl.ZL_TXN_CMD_LEN, .rw, 0, false⟩, ⟨Fl.ZL_TXN_CMD_START, .wo, 0, false⟩]⟩
  , ⟨0x6034, [(0x800, 2)],
      [⟨Fl.ZL_TXN_DATA0_NIB0_7, .rw, 0, false⟩]⟩
  , ⟨0x6038, [(0x800, 2)],
      [⟨Fl.ZL_TXN_DATA1_NIB8_14, .rw, 0, false⟩]⟩
  , ⟨0x603c, [(0x800, 2)],
      [⟨Fl.ZL_TXN_RESULT_CODE, .ro, 0, false⟩, ⟨Fl.ZL_TXN_RESULT_RX_LEN, .ro, 0, false⟩, ⟨Fl.ZL_TXN_RESULT_STATUS, .ro, 0, false⟩]⟩
  , ⟨0x6040, [(0x800, 2)],
      [⟨Fl.ZL_RX_DATA0_NIB, .ro, 0, false⟩]⟩
  , ⟨0x6044, [(0x800, 2)],
      [⟨Fl.ZL_RX_DATA1_NIB, .ro, 0, false⟩]⟩
  , ⟨0x6080, [(0x800, 2), (0x8, 24)],
      [⟨Fl.ZL_NODE_LO_FN_LO, .ro, 0, false⟩]⟩
  , ⟨0x6084, [(0x800, 2), (0x8, 24)],
      [⟨Fl.ZL_NODE_HI_FN_HI, .ro, 0, false⟩, ⟨Fl.ZL_NODE_HI_ROLE, .ro, 0, false⟩, ⟨Fl.ZL_NODE_HI_VALID, .ro, 0, false⟩, ⟨Fl.ZL_NODE_HI_PRESENT, .ro, 0, false⟩, ⟨Fl.ZL_NODE_HI_LISTED, .ro, 0, false⟩]⟩
  , ⟨0x6140, [(0x800, 2)],
      [⟨Fl.ZL_UNLISTED_LO_FN, .ro, 0, false⟩]⟩
  , ⟨0x6144, [(0x800, 2)],
      [⟨Fl.ZL_UNLISTED_HI_FN, .ro, 0, false⟩]⟩ ]

def jzlTable : List RegD := jzlTable0

/-- The descriptors of the BAR0 block an offset lies in (BAR0 block map, chapter 4). -/
def barBlock (off : Nat) : List RegD :=
  if off < 0x10000 then sysTable else
  if off < 0x20000 then chtTable else
  if off < 0x30000 then fcuTable else
  if off < 0x40000 then pcxTable else
  if off < 0x50000 then hzTable else
  if off < 0x100000 then [] else
  if off < 0x180000 then cpTable else
  if off < 0x200000 then lnTable else
  if off < 0x300000 then acqTable else
  if off < 0x400000 then engTable else
  if off < 0x500000 then dlvTable else
  if off < 0x600000 then bistTable else
  if off < 0x700000 then casTable else []

/-- The descriptors of the part of Jens's field address space an address lies in. -/
def fieldBlock (a : Nat) : List RegD :=
  if a < 0x1000 then jmirTable else
  if a < 0x3000 then jpfiTable else
  if a < 0x6000 then jgateTable else jzlTable

def barReg (off : Nat) : Option RegD := (barBlock off).find? (regHit · off)
def fieldReg (a : Nat) : Option RegD := (fieldBlock a).find? (regHit · a)

/-- Table 15-1: the reset value of FCU_REACTs, REACTION, ERR and ASSIGNED. -/
def reactReset (src : Nat) : Nat :=
  if src = 2 then 0x85 else if src ≤ 4 ∨ (8 ≤ src ∧ src ≤ 18) then 0x80 else 0

/-- Reset value of the register at a BAR0 offset; a kept field shows its value after power-on. (The fused fields SYS_UID and
CHT_STATUS.KEY_FUSED and ENFORCE are put in when the register is read.). DESIGN CHOICE, log entry 15. -/
def regReset (off : Nat) : Word :=
  if 0x20100 ≤ off ∧ off < 0x20200 then BitVec.ofNat 32 (reactReset ((off - 0x20100) / 4))
  else if off = Reg.SYS_RESET_CAUSE then 1
  else match barReg off with
    | some d => BitVec.ofNat 32 (regResetNat d)
    | none => 0

/-- Reset value of the register at a field address; PFIc_STAT shows STANDSTILL after power-on (Table 6-4). -/
def fieldReset (a : Nat) : Word :=
  match fieldReg a with
  | some d => if d.base = 0x1008 then 0x200 else BitVec.ofNat 32 (regResetNat d)
  | none => 0

end Sys2Proof.Machine
end

