-- ==== Sys2Proof/Machine/State.lean ====
section
/-! DEFINITION. The state of the LQ-2640 as plain data: both dies, the outside world as far as the block keeps a record of it, and the
queue of waiting commands. A status that a register shows has the register as its one home (`regs` for Nahar, `fregs` for Jens); the
structures hold what no register shows. -/
namespace Sys2Proof.Machine

/-! ## Access paths and time (chapters 0 to 2) -/

/-- What one access path holds (R4, R5): the high-word latch and the low-word shadow; and the model's own record of what the path's last
read returned. -/
structure PathState where
  latch : Word
  shadow : Option Word
  lastRead : Option Word
  /-- The bytes that the last BAR2 read of the path returned, and whether its completion was poisoned (R118). -/
  block : List Byte
  poisoned : Bool
  deriving DecidableEq, Repr

/-- Clocks and timestamps (chapter 2, sections 1 and 2). -/
structure Clock where
  /-- Nahar's timestamp (R45). -/
  ts : Nat
  /-- Jens's copy of the timestamp (R47). -/
  jts : Nat
  /-- SCLK runs. -/
  sclk : Bool
  /-- Timestamp at step 5 of Table 2-9, for PWR_BOOT_TIME. -/
  bootTs : Nat
  /-- SCLK cycles of operating time since the last whole second of BIST_OPTIME (R475). -/
  opFrac : Nat
  deriving DecidableEq, Repr

/-- Supply of Nahar as the reset controller sees it (R48, R49). -/
inductive Vh
  | below160 | between | good
  deriving DecidableEq, Repr

/-- Power, reset and boot (chapter 2). -/
structure Power where
  vh : Vh
  /-- OFF of Table 2-4 (PWR_STATE cannot be read there). -/
  off : Bool
  /-- Chip reset is held (R62). -/
  held : Bool
  /-- Every rail of Table 2-3 is at power good (R50). -/
  rails : Bool
  /-- REFSEL and LEAD have been sampled since chip reset (R38). -/
  strapped : Bool
  /-- Step of Table 2-9 last completed; 13 once RUN was reached. -/
  bootStep : Nat
  /-- Service level 1 has been reached since chip reset (R64). -/
  level1 : Bool
  /-- Step of Table 2-7 in progress, 0 outside PARK entry. -/
  parkStep : Nat
  /-- A wake source fired during PARK entry (R57). -/
  wakeHeld : Bool
  /-- A wake event has fired since entry into SLEEP or PARK (R56). -/
  woken : Bool
  /-- Reason of the safe state; 0 outside it (Table 15-2). -/
  safeCause : Nat
  /-- VF is power-good on Jens (R51), and Jens has been reset by it since it last trained (R63). -/
  vf : Bool
  vfPor : Bool
  /-- Horizon was UP when PARK was entered. -/
  hzBeforePark : Bool
  deriving DecidableEq, Repr

/-! ## PCI Express, messages, host memory (chapters 4 and 14) -/

/-- Data Link state of the PCI Express endpoint. -/
structure Pcie where
  /-- PERST_N is asserted. -/
  perst : Bool
  /-- Link training is in progress (R109). -/
  training : Bool
  linkUp : Bool
  msixEnable : Bool
  functionMask : Bool
  /-- The MSI-X table of BAR4, word by word (offset, value). -/
  msixTable : List (Nat × Word)
  /-- Pending-bit array of BAR4: the vectors pending, rising. -/
  pba : List Nat
  /-- Poisoned writes and unsupported requests reported so far (R121). -/
  poisoned : Nat
  unsupported : Nat
  deriving DecidableEq, Repr

/-- One MSI-X message written to the host. -/
structure MsixMsg where
  vector : Nat
  addr : Nat
  data : Word
  deriving DecidableEq, Repr

/-! ## Horizon (chapter 5) -/

/-- A gate command waiting on Nahar (R166). -/
structure GateCmd where
  tref : Nat
  prog : Nat
  fn : Nat
  slot : Nat
  deriving DecidableEq, Repr

/-- A staging message waiting on, or sent by, Nahar (R163, R169). -/
structure StageMsg where
  tref : Nat
  fn : Nat
  slot : Nat
  chan : Nat
  verdict : Nat
  lep : Nat
  /-- Words already sent in this attempt, 0 to 3. -/
  sent : Nat
  attempts : Nat
  /-- Beat index of the last word of this attempt (R168). -/
  lastIdx : Option Nat
  deriving DecidableEq, Repr

/-- A command whose acknowledgement is open (R168). -/
structure SentCmd where
  cmd : GateCmd
  first : Nat
  second : Bool
  deriving DecidableEq, Repr

/-- Who asked for a relay transaction. -/
inductive RelayOp
  | read | write
  deriving DecidableEq, Repr

/-- A relay transaction (R175, R177). -/
structure Relay where
  op : RelayOp
  /-- The path that waits for it; none for Nahar's own read of MIR_ATTN (R183). -/
  path : Option Path
  addr : Nat
  data : Word
  seq : Bool
  /-- Request bytes not yet launched. -/
  bytes : List Byte
  /-- The next byte launched begins the request. -/
  start : Bool
  attempt : Nat
  deriving DecidableEq, Repr

/-- A relay access waiting for the transaction in flight (R177). -/
structure RelayReq where
  op : RelayOp
  path : Option Path
  addr : Nat
  data : Word
  deriving DecidableEq, Repr

/-- Serial credit and group bookkeeping of one end (R172). -/
structure Credit where
  /-- Free space sampled at the phase-0 boundary of the group being sent. -/
  sample : Nat
  /-- Credit bits received of the current group, low pair first, and how many beats of it arrived intact. -/
  acc : Nat
  good : Nat
  /-- Indexes of the beats in which this end launched a byte, newest first (the last eight matter). -/
  launched : List Nat
  deriving DecidableEq, Repr

/-- A sample of a channel's high-water mark at a beat (R347). -/
structure HwmSample where
  idx : Nat
  hwm : Nat
  deriving DecidableEq, Repr

/-- Nahar's end of Horizon. -/
structure HzNahar where
  /-- Consecutive bad field-to-host beats while UP (R184). -/
  badRun : Nat
  trainStart : Nat
  /-- MIRI filter: per input, beats of the new level seen and the index of the first (R158). -/
  miriRun : Vector (Nat × Nat) 12
  /-- Replica and high-water mark per channel, 40 bits (R160). -/
  replica : Vector Nat 4
  hwm : Vector Nat 4
  samples : Vector (List HwmSample) 4
  gateQ : List GateCmd
  /-- The command of which the second copy is due in the next beat (R165). -/
  second : Option (GateCmd × Nat)
  sentQ : List SentCmd
  stageQ : List StageMsg
  serTx : List Byte
  serRx : List Byte
  credit : Credit
  relay : Option Relay
  relayWait : List RelayReq
  relaySeq : Bool
  /-- Response bytes collected, none outside a message. -/
  relayRx : Option (List Byte)
  /-- Upper half of a Zhombe event pair and the beat it came in (R181). -/
  zevHigh : Option (Nat × Nat)
  zevLast : Nat
  /-- ATTN was 1 in the last intact beat (R183). -/
  attn : Bool
  /-- Host-to-field beats launched and not yet delivered, oldest first, and one more than the index of the last launched (R143, R144). -/
  flight : List (Nat × BitVec 64)
  launchedTo : Nat
  /-- TREFs whose staging message is acknowledged (R167). -/
  staged : List Nat
  /-- STATE is DOWN because of a loss (R184). -/
  lost : Bool
  /-- Function and slot of transits the link has found without a gate command: they are flagged DEGRADED in this step (R167, R169, R170). -/
  unsent : List (Nat × Nat)
  deriving DecidableEq, Repr

/-! ## Jens (chapters 5 to 8) -/

/-- Position feedback channel (chapter 6); C, STAT, REF_POS and REF_CNT live in its registers. -/
structure Pfi where
  /-- Filtered levels. -/
  a : Bool
  b : Bool
  z : Bool
  /-- Timestamps and directions (true: backward) of the last counts since the restart, newest first, at most five (R196). -/
  hist : List (Nat × Bool)
  /-- Timestamp of the last count, for e and R193; none before the first. -/
  lastCount : Option Nat
  /-- Tone wheel: edge from which Ti is measured, regular period Tp in twelfths of a cycle, edges since the restart (R194). -/
  lastEdge : Option Nat
  tp : Option Nat
  edges : Nat
  /-- A count with Z = 0 has been made since the restart, and Z at the last count (R201). -/
  zArmed : Bool
  /-- Previous reference event: C and direction (R202). -/
  refPrev : Option (Nat × Bool)
  /-- Counts since the last reference event. -/
  sinceRef : Nat
  deriving DecidableEq, Repr

/-- Encoder emulator (chapter 6, section 5). -/
structure Emu where
  /-- Target T in units of 1/256 count, accumulator a, output count O, rate r. -/
  target : Int
  acc : Int
  out : Int
  rate : Int
  /-- Source position up to which T has followed (R205). -/
  srcPos : Nat
  /-- Phase accumulator and the timestamp up to which it has been advanced (R208). -/
  phase : Nat
  phaseTs : Nat
  deriving DecidableEq, Repr

/-- A pending or deferred firing (R222). -/
structure Firing where
  tref : Nat
  gls : Fin 8
  /-- Program parameters of the command's entry (R164). -/
  peakTime : Nat
  holdDuty : Nat
  holdUs : Nat
  /-- Fire position and position channel. -/
  fp : Nat
  chan : Nat
  late : Bool
  /-- GATE_STATE of the TREF still records this command (R225). -/
  recorded : Bool
  /-- Deadline of a deferred firing (R228); none while pending. -/
  deadline : Option Nat
  deriving DecidableEq, Repr

/-- The gate program a GLS is running (R215, R216). -/
structure Active where
  tref : Nat
  /-- First cycle after the last PEAK cycle. -/
  peakEnd : Nat
  /-- Hold length in cycles and effective duty. -/
  holdLen : Nat
  holdEff : Nat
  inHold : Bool
  deriving DecidableEq, Repr

/-- Staging entry of a TREF on Jens (R163). -/
structure StageEntry where
  tref : Nat
  chan : Nat
  verdict : Nat
  lep : Nat
  consumed : Bool
  deriving DecidableEq, Repr

/-- Field serial port (chapter 7, section 5). -/
structure Fsp where
  /-- FSP_CFG and FSP_FRAME as latched for the frame in progress (R232). -/
  cfg : Word
  frame : Word
  wordsLeft : Nat
  /-- Slave: byte being shifted out and whether it came from the FIFO (R236). -/
  shift : Byte
  fromFifo : Bool
  /-- Slave: FSCK is ignored until fail-safe ends and FSCS_N has been high (R239). -/
  deaf : Bool
  deriving DecidableEq, Repr

/-- The transaction a Zhombe line is running and of which a reply is awaited (R251, R270). -/
inductive ZlTxn
  /-- Host transaction, first attempt 0. -/
  | host (attempt : Nat)
  /-- PING of an address. -/
  | ping (addr : Nat)
  /-- ASSIGN after a selecting search pass: factory number and the address given. -/
  | assign (fn : Nat) (addr : Nat)
  deriving DecidableEq, Repr

/-- A node the ZHOMBE section lists (R81). -/
structure ZlNode where
  addr : Nat
  role : Nat
  fn : Nat
  deriving DecidableEq, Repr

/-- Zhombe line (chapter 8); state, node records and events live in its registers. -/
structure ZlLine where
  /-- Nodes the committed Chart lists. -/
  listed : List ZlNode
  txn : Option ZlTxn
  /-- ZLl_TXN_CMD, _DATA0 and _DATA1 of the host transaction in progress (R269). -/
  txnCmd : Word
  txnData : Word × Word
  /-- Nibbles of the last master frame sent, CRC included (R246, R248). -/
  lastFrame : List Nat
  /-- Discovery running (true: full), and passes failed for the node being sought (R260). -/
  discovery : Option Bool
  passFails : Nat
  /-- Request held during a discovery (true: full) (R262). -/
  heldReq : Option Bool
  scanDue : Bool
  /-- Host transaction waiting for the line, with its attempt (R269). -/
  hostDue : Option Nat
  /-- Supervision PING waiting, and the addresses the sweep of R272 has still to PING. -/
  pingDue : Option Nat
  sweep : List Nat
  /-- Next address of supervision, and consecutive failed PINGs per address (R268). -/
  nextPing : Nat
  fails : Vector Nat 24
  /-- The line was in DISCOVERY when it stuck (R272). -/
  resumeDisc : Bool
  deriving DecidableEq, Repr

/-- How Jens drives one mirrored output (FIELD MIRO record). -/
structure MiroMap where
  source : Nat
  index : Nat
  safe : Bool
  deriving DecidableEq, Repr

/-- Jens, the field die. -/
structure Jens where
  badRun : Nat
  /-- Word of the MIRO bits of the last intact beat. -/
  miro : BitVec 12
  /-- Synchronised levels of the MIRI pins at the last beat boundary (R157). -/
  miri : BitVec 12
  /-- Drive of each MIRO as last replayed; SOURCE 0 and low before (Table 5-10). -/
  miroMap : Vector MiroMap 12
  /-- Causes of fail-safe in force (Table 5-10): not trained, loss, FS_HOLD, keep-alive, detector. -/
  fsUntrained : Bool
  fsLoss : Bool
  fsHold : Bool
  fsKeep : Bool
  fsDetector : Bool
  /-- Jens sends training beats after a loss (R185). -/
  sendsTraining : Bool
  /-- Words of a staging message received in order so far (R163). -/
  stageRx : List (Nat × Nat)
  staging : List StageEntry
  /-- Field-to-host beats launched and not yet delivered, and one more than the index of the last launched. -/
  flight : List (Nat × BitVec 64)
  launchedTo : Nat
  /-- Field beats that carry GS_ACK (R168). -/
  ackDue : List Nat
  serTx : List Byte
  serRx : List Byte
  credit : Credit
  relayRx : Option (List Byte)
  /-- Last request executed: SEQ and its response bytes (R176). -/
  relayLast : Option (Bool × List Byte)
  /-- Response bytes to launch, and whether the next begins the response. -/
  relayTx : List Byte
  relayTxStart : Bool
  zevQ : List Nat
  /-- Event being sent and halves sent (R181). -/
  zevCur : Option (Nat × Nat)
  zevToggle : Bool
  pfi : Vector Pfi 4
  emu : Vector Emu 2
  firings : List Firing
  active : Vector (Option Active) 8
  /-- End of comparator blanking per pair (R230). -/
  blankEnd : Vector Nat 4
  /-- Gate-program table: field byte address and byte (R161). -/
  gateTable : List Host.Cell
  fsp : Fsp
  zl : Vector ZlLine 2
  deriving DecidableEq, Repr

/-! ## The committed Chart (chapter 3) -/

/-- A section of the committed Chart: its table entry (Table 3-2) and its bytes. -/
structure Section where
  typ : Nat
  inst : Nat
  offset : Nat
  length : Nat
  crc : Nat
  data : List Nat
  deriving DecidableEq, Repr

/-- The committed Chart: header fields, sections in table order. -/
structure Chart where
  length : Nat
  tag : Nat
  signed : Bool
  sections : List Section
  deriving DecidableEq, Repr

/-! ## Camera lanes and ports (chapters 9 and 10) -/

/-- A lane; state, counts and the accepted taps live in its registers. -/
structure Lane where
  /-- The proposed set in force in a trial epoch (R298). -/
  trial : Option Taps
  /-- The next epoch is forced measure-only (R298). -/
  forced : Bool
  /-- The first whole epoch in ACTIVE has not begun. -/
  fresh : Bool
  /-- Timestamp of the request, and of the last start of the NO_LOCK limit (R296, R302). -/
  start : Nat
  lockFrom : Nat
  deriving DecidableEq, Repr

/-- A trigger as the TRIGGER message carries it (R320). -/
structure Trigger where
  line : Nat
  pos : Nat
  tid : Nat
  first : Bool
  late : Bool
  deriving DecidableEq, Repr

/-- A trigger whose lines are awaited (R322): channels not yet accepted, the cycle its timeout runs from, and the
function and line number of the transit. -/
structure Awaited where
  trig : Trigger
  chans : List Nat
  since : Nat
  fn : Nat
  k : Nat
  deriving DecidableEq, Repr

/-- A LINE message in the line FIFO (R323), as it goes to the band; `tid` is its transit. -/
structure FifoLine where
  tid : Nat
  fn : Nat
  k : Nat
  ch : Nat
  pixels : List Byte
  deriving DecidableEq, Repr

/-- A head-control transaction (R325). -/
structure HeadTxn where
  write : Bool
  addr : Nat
  data : Word
  tag : Nat
  attempt : Nat
  /-- Sent on TX0; a request waits while TX0 resettles (R340). -/
  sent : Bool
  deriving DecidableEq, Repr

/-- A queued trigger with what acquisition awaits for it (R340). -/
abbrev QueuedTrigger := Awaited

/-- A camera port; state and counts live in its registers. -/
structure Port where
  /-- Timestamp of the start of the attempt (R332), and of the entry into OUT. -/
  start : Nat
  /-- Attempts since the last start (R333), and the attempt has failed and waits for its retry. -/
  attempts : Nat
  waiting : Bool
  /-- Timestamp of the last TRIGGER issued (R357). -/
  lastTrig : Option Nat
  /-- Per RX lane: consecutive valid TS2 blocks and their PREC (R332), any valid training word seen. -/
  blocks : Vector Nat 3
  prec : Vector (Option Bool) 3
  seen : Vector Bool 3
  /-- Every data lane has met step 5 of Table 10-7; marker SEQ 0 has come on every data lane (step 6). -/
  step5 : Bool
  marked : Vector Bool 3
  /-- SEQ expected at the next marker per lane, and marker errors in a row (R317). -/
  seq : Vector Nat 3
  errRun : Vector Nat 3
  /-- The port was IN_SERVICE since its training, for PORT_REJOIN. -/
  wasOut : Bool
  /-- Triggers waiting while TX0 resettles, oldest first (R340). -/
  queue : List QueuedTrigger
  awaited : List Awaited
  fifo : List FifoLine
  hc : Option HeadTxn
  /-- Words of the last message sent on TX0 (the model's own record of the output). -/
  lastTx : List Nat
  deriving DecidableEq, Repr

/-! ## Transits, bands, jobs and objects (chapters 11 to 14) -/

/-- A transit's lines on one port (R353 to R357). -/
structure Capture where
  port : Nat
  /-- LTG_Pn_TRIM as it stood when the transit opened. -/
  trim : Int
  /-- Lines below this number have been triggered, skipped or passed over. -/
  next : Nat
  /-- Line 0 has fallen due: the generator serves this transit. -/
  started : Bool
  /-- A TRIGGER has been issued (FIRST of R356). -/
  first : Bool
  /-- The span began before the port entered IN_SERVICE (R338). -/
  barred : Bool
  /-- The capture ended before its last line (R339, R353). -/
  ended : Bool
  /-- Next stripe of the transit that takes a slot of the line band (R363). -/
  jnext : Nat
  /-- POS of each trigger issued, by line; lines triggered late; rows that hold FILL for a missing line. -/
  trigs : List (Nat × Nat)
  late : List Nat
  miss : List (Nat × Nat)
  /-- Decimated rows written so far (R367). -/
  dec : Nat
  deriving DecidableEq, Repr

/-- The summary a global-average, argmax or top-K step builds up (R400 to R402). -/
structure Summary where
  step : Nat
  kind : Nat
  channels : Nat
  /-- Image pixels taken in. -/
  pixels : Nat
  sum : List Int
  count : List Nat
  peak : List Int
  /-- Candidates seen, and the K best so far (score, x, y, class). -/
  cand : Nat
  entries : List (Int × Nat × Nat × Nat)
  deriving DecidableEq, Repr

/-- The verdict of a transit (R410, R411). -/
structure Verdict where
  code : Nat
  slack : Int
  top : Option (Nat × Int)
  deriving DecidableEq, Repr

structure Transit where
  fn : Nat
  slot : Nat
  tid : Nat
  /-- Timestamps at which LEP and TEP are to be interpolated (R347 to R349), and their values. -/
  lepAt : Option Nat
  lep : Option Nat
  tepAt : Option Nat
  tep : Option Nat
  degraded : Bool
  reversed : Bool
  /-- The decision point was reached first (R34). -/
  late : Bool
  /-- It is given no gate command (R25, R32). -/
  noGate : Bool
  caps : List Capture
  /-- Jobs completed, per step of the program. -/
  jobs : List Nat
  sums : List Summary
  /-- The result exists, at this timestamp (R405). -/
  result : Option Nat
  verdict : Option Verdict
  /-- ISSUE of R410. -/
  issue : Nat
  /-- The decision cycle has passed, and the gated rings that accept the transit (R416). -/
  decided : Bool
  accepts : List Nat
  closed : Bool
  deriving DecidableEq, Repr

/-- A reader of a band (R365). -/
inductive Reader
  | decimator
  | delivery
  | step (k : Nat)
  deriving DecidableEq, Repr

/-- A stripe that holds a slot of a band (R363, R364, R386). -/
structure Stripe where
  b : Nat
  fn : Nat
  tid : Nat
  /-- Stripe number within the transit. -/
  j : Nat
  /-- Channel rows not yet written (row, channel); for an activation or decimated stripe, rows with channel 0. -/
  left : List (Nat × Nat)
  complete : Bool
  /-- Marked last. -/
  last : Bool
  readers : List Reader
  /-- Timestamp of the cycle in which it became complete. -/
  ts : Nat
  deriving DecidableEq, Repr

/-- A band of the stripe store, in allocation order (R362, R372). -/
structure Band where
  fn : Nat
  /-- 0 line; 1 decimated; 2 activation. -/
  kind : Nat
  /-- Port, or band number of the program. -/
  idx : Nat
  /-- Byte address and bytes. -/
  base : Nat
  size : Nat
  /-- Row pitch in bytes: one channel row of a line band, one row of any other. -/
  pitch : Nat
  /-- Running stripe counter B. -/
  b : Nat
  stripes : List Stripe
  deriving DecidableEq, Repr

/-- A job on an engine or the PST (R381, R403). -/
structure Job where
  fn : Nat
  tid : Nat
  step : Nat
  j : Nat
  start : Nat
  /-- Its output is discarded (R387, R394). -/
  discard : Bool
  deriving DecidableEq, Repr

/-- An object made for a ring (R413, R414). -/
structure DlvObj where
  ring : Nat
  image : Bool
  fn : Nat
  tid : Nat
  port : Nat
  ch : Nat
  firstLine : Nat
  lines : Nat
  width : Nat
  x0 : Nat
  /-- POS of the trigger of the first line; none when it was never triggered. -/
  pos : Option Nat
  ts : Nat
  lateLines : Bool
  fillRows : Bool
  /-- Store address of the first pixel of each row, and the stripe the object was made from. -/
  rows : List Nat
  stripe : Nat
  payload : List Byte
  deriving DecidableEq, Repr

/-- An object with a descriptor that has not been consumed (R418). -/
structure Placed where
  index : Nat
  off : Nat
  length : Nat
  next : Nat
  /-- The object, while its descriptor has not been published (R416, R423). -/
  obj : Option DlvObj
  /-- It is held for its transit's decision cycle. -/
  held : Bool
  /-- It was rejected: it is published as VOID. -/
  void : Bool
  deriving DecidableEq, Repr

/-- What a ring holds beside its registers. -/
structure Ring where
  placed : List Placed
  /-- An object was dropped since the last published descriptor (R419), and the transits of which one was dropped (FLAGS.DROPS). -/
  drops : Bool
  dropTids : List Nat
  /-- Objects published per transit (OBJ_INDEX). -/
  objCount : List (Nat × Nat)
  /-- U of R431 and the publication cycle of the oldest descriptor it counts. -/
  u : Nat
  uSince : Nat
  deriving DecidableEq, Repr

/-- Delivery (chapter 14). -/
structure Delivery where
  rings : Vector Ring 128
  /-- Accepted objects not yet written, in the order in which they were made. -/
  queue : List DlvObj
  /-- Ring served last, and the ring whose object holds the input, with the timestamp since when (R427). -/
  lastRing : Nat
  held : Option (Nat × Nat)
  deriving DecidableEq, Repr

/-- What a function holds beside its registers. -/
structure FnRun where
  /-- Timestamps of START and of the entry into DRAINING (R26). -/
  start : Nat
  drain : Nat
  /-- Causes of START_FAIL unmet in bring-up, with the cycle each period began in (R30). -/
  unmet : List (Nat × Nat)
  /-- Timestamp of the last line-timer tick. -/
  lastTick : Nat
  /-- The weight digest has been checked in this bring-up (R88). -/
  hashed : Bool
  deriving DecidableEq, Repr

/-- An OPEN (kind 1) or TEP (kind 2) message of the cascade (R487). -/
structure CasMsg where
  kind : Nat
  fn : Nat
  mseq : Nat
  chan : Nat
  tid : Nat
  pos : Nat
  /-- Copies sent. -/
  sent : Nat
  deriving DecidableEq, Repr

/-- The cascade lane's receiver and transmitter (R484); states are numbered as LNx_STATE.STATE numbers them. -/
structure CasLane where
  rx : Nat
  tx : Nat
  /-- Phase lock; a training block has given the comma and a LANE that names the upstream position (R490). -/
  locked : Bool
  comma : Bool
  /-- Bad headers in a row (R489). -/
  badHeads : Nat
  /-- Adaptation, as for a camera lane (R291, R297, R298). -/
  ctle : Nat
  taps : Taps
  base : Nat
  trial : Option Taps
  forced : Bool
  fresh : Bool
  /-- Offset calibration failed (R305). -/
  calFail : Bool
  deriving DecidableEq, Repr

/-- The cascade port (chapter 17); state and counts live in its registers. -/
structure Cascade where
  lane : CasLane
  /-- A link-up attempt is in progress (R492). -/
  attempt : Bool
  /-- Timestamp up to which the lead's frames have been launched (R485). -/
  frameTs : Nat
  /-- RP last reported by positions 1 to 3 (R488). -/
  rps : Vector Nat 3
  /-- Follower: cascade replica and its high-water mark, 40 bits (R493). -/
  replica : Vector Nat 4
  hwm : Vector Nat 4
  /-- Lead: messages waiting, oldest first, and the next MSEQ (R487). -/
  queue : List CasMsg
  mseq : Nat
  /-- Follower: the last two MSEQ applied, newest first (R497). -/
  applied : List Nat
  badRun : Nat
  /-- Good frames in a row at the lead in MEASURE, and the sum of D_RING over them (Table 17-2, step 4). -/
  goodRun : Nat
  ringSum : Nat
  /-- Returned frames in a row without every status word (R500). -/
  missRun : Nat
  /-- Timestamp of the start of link-up, and of the last failure or loss (R490). -/
  start : Nat
  failed : Nat
  corrValid : Bool
  fseq : Nat
  /-- Follower: samples due (apply cycle, channel, value) and messages due (R493, R497). -/
  dueSamples : List (Nat × Nat × Nat)
  dueMsgs : List (Nat × CasMsg)
  /-- Words of the last frame put on CAS_OUT (the model's own record of the output). -/
  lastOut : List Nat
  deriving DecidableEq, Repr

/-- A memory: the bytes written in this life of it; a byte nothing has written is free (DESIGN CHOICE, log entry 2). -/
structure Memory where
  epoch : Nat
  cells : List Host.Cell
  deriving DecidableEq, Repr

/-! ## Loading, SPI ports, self-test (chapters 3, 4 and 16) -/

/-- A COMMIT in progress (R97 to R101); CHT_STATUS shows the session and BUSY. -/
structure CommitRun where
  scope : Nat
  start : Nat
  /-- It is the boot COMMIT (no path, no session). -/
  boot : Bool
  /-- Fault sources of the block resets taken while it runs (R101). -/
  broken : List Nat
  deriving DecidableEq, Repr

/-- A word of a READ frame that was not read in time: its SPI address, whether it is the first word of the last READ frame, and whether the
memory has an uncorrectable error there (R118, R132). -/
structure SpiLate where
  addr : Nat
  first : Bool
  ecc : Bool
  deriving DecidableEq, Repr

/-- The service SPI slave (R128 to R134). -/
structure Spi where
  /-- Write FIFO: 32-bit SPI address and data, oldest first. -/
  wfifo : List (Nat × Word)
  /-- RSTAT and data of the last READ's first word (R130, R132). -/
  rstat : Nat
  rdata : Word
  /-- Reads still outstanding, oldest first (R132). -/
  late : List SpiLate
  /-- The oldest of them is with the relay. -/
  relayed : Bool
  /-- Output bytes of the last frame (the model's own record of the output). -/
  out : List Nat
  deriving DecidableEq, Repr

/-- A host flash operation in progress (R141). -/
structure FlashOp where
  op : Nat
  addr : Nat
  len : Nat
  data : List Byte
  deriving DecidableEq, Repr

/-- What a write of the self-test record to flash is about (R140). -/
inductive RecordJob
  /-- A new slot at this flash address, with its sequence number, after an erase or not; the record. -/
  | slot (addr seq : Nat) (erase : Bool) (bytes : List Nat)
  /-- The quick-start rewrite: byte address and value (R69). -/
  | quick (addr value : Nat)
  deriving DecidableEq, Repr

/-- The boot SPI master (section 5 of chapter 4). -/
structure Bsp where
  op : Option FlashOp
  record : Option RecordJob
  /-- From the directory at boot: record area, passing slot (offset, image length), subsystem IDs. -/
  recordArea : Option Nat
  slot : Option (Nat × Nat)
  subsys : Nat × Nat
  flash : Memory
  deriving DecidableEq, Repr

/-- A slice under test (R463 to R470): its start, and the cycle of a wake after which it stops at its next
boundary. -/
structure SliceRun where
  slice : Nat
  start : Nat
  stop : Option Nat
  deriving DecidableEq, Repr

/-- The self-test controller (chapter 16); PHASE, results and the fence map live in its registers. -/
structure Bist where
  /-- Slices not yet started, in order: the memory queue and the logic queue (the quick test has one queue). -/
  memQ : List Nat
  logQ : List Nat
  running : List SliceRun
  cap : Nat
  budget : Nat
  /-- Start of the test, and of the last slice started. -/
  start : Nat
  lastStart : Option Nat
  /-- First failure: slice, segment, word offset; and how many slices failed (FAIL_INFO). -/
  failed : Option (Nat × Nat × Nat)
  failCount : Nat
  /-- A wake ended the test (ABORTED). -/
  aborted : Bool
  /-- Results of this test by slice (Table 16-3); unlisted is NOT_RUN. -/
  results : List (Nat × Nat)
  /-- Record in force found at boot (R68): its bytes, and the cleared QUICK_MAP bits if it came from flash. -/
  inForce : Option (List Nat × Nat)
  /-- Lanes calibrated at boot step 12: 0 to 11 the camera receive lanes, 12 the cascade lane. -/
  calDone : List Nat
  deriving DecidableEq, Repr

/-- Bits inverted in the collector's copies since reset (R450): copy 0 A, 1 B, 2 FCU_STATUS. -/
structure Upset where
  copy : Fin 3
  byte : Nat
  bits : Byte
  parity : Bool
  deriving DecidableEq, Repr

/-! ## The machine -/

/-- The state. -/
structure State where
  /-- Nahar's registers by BAR0 offset; an unlisted register holds its reset value. -/
  regs : List (Nat × Word)
  /-- Jens's registers by field address. -/
  fregs : List (Nat × Word)
  /-- Nahar's shadow of the RW, RWS and RWG fields of Jens (R180). -/
  shadow : List (Nat × Word)
  pciePath : PathState
  spiPath : PathState
  clk : Clock
  pw : Power
  pcie : Pcie
  /-- MSI-X messages written to the host, oldest first (the model's own record of the output). -/
  sent : List MsixMsg
  /-- The committed Chart (R22, R102); none before the first COMMIT. -/
  chart : Option Chart
  hz : HzNahar
  jens : Jens
  lanes : Vector Lane 16
  ports : Vector Port 4
  /-- The COMMIT in progress, and the PWR_CMD held for it or for a retest (R101, R480). -/
  commit : Option CommitRun
  heldPwr : Nat
  spi : Spi
  bsp : Bsp
  bist : Bist
  /-- What is wrong in the collector's copies (R450). -/
  upsets : List Upset
  /-- Ends of the block resets in progress, by fault source (R443). -/
  blockResets : List (Nat × Nat)
  /-- Reactions of the fault collector due in this cycle, in ascending source order (R441). -/
  react : List Nat
  /-- Count of the watchdog, in SCLK cycles, and the timeout and warning latched with it (R458, R461). -/
  wdtCount : Nat
  wdtTimeout : Nat
  wdtWarn : Nat
  wdtWarned : Bool
  fns : Vector FnRun 8
  /-- Open transits in order of opening, and closed ones that a queued object or a stripe still names. -/
  transits : List Transit
  gone : List Transit
  bands : List Band
  /-- Job running on the MCE, the ELE and the PST. -/
  running : Vector (Option Job) 3
  dlv : Delivery
  cas : Cascade
  /-- Memory of the host as delivery writes it. -/
  hostMem : List Host.Cell
  /-- Stripe store, weight store, Chart store, MCE and ELE line buffers, tag and descriptor RAM (Table 4-4). -/
  sts : Memory
  ws : Memory
  cht : Memory
  mceLb : Memory
  eleLb : Memory
  tdr : Memory
  /-- The model's own counter of free values (DESIGN CHOICE, log entry 3). -/
  freeCtr : Nat
  /-- Commands waiting, first in first out. -/
  pending : List Instr
  deriving DecidableEq, Repr

/-- The outcomes in which the block stops instead of answering a next state. -/
inductive Fault
  /-- Raised by no command: the spec gives every command of the table an effect. Safe. -/
  | unreachable
  deriving DecidableEq, Repr

inductive Refusal
  /-- The command has no meaning in this model yet; raised by the arm of `exec` that carries its mnemonic. Safe. -/
  | notModelled (mnemonic : String)
  deriving DecidableEq, Repr

/-! ## Reset -/

/-- A position channel after the power-on reset of Jens: no count yet. -/
def pfiReset : Pfi := ⟨false, false, false, [], none, none, none, 0, false, none, 0⟩

def emuReset : Emu := ⟨0, 0, 0, 0, 0, 0, 0⟩

def zlReset : ZlLine :=
  ⟨[], none, 0, (0, 0), [], none, 0, none, false, none, none, [], 0, Vector.replicate 24 0, false⟩

/-- Serial credit: an empty FIFO of 64 bytes at the far end. -/
def creditReset : Credit := ⟨64, 0, 0, []⟩

/-- Jens after its power-on reset: fail-safe, no training yet (R51, Table 5-10). DESIGN CHOICE, log entry 11. -/
def jensReset : Jens :=
  { badRun := 0, miro := 0, miri := 0, miroMap := Vector.replicate 12 ⟨0, 0, false⟩, fsUntrained := true, fsLoss := false, fsHold := false,
    fsKeep := false, fsDetector := false, sendsTraining := false, stageRx := [], staging := [], flight := [], launchedTo := 0, ackDue := [],
    serTx := [], serRx := [], credit := creditReset, relayRx := none, relayLast := none, relayTx := [], relayTxStart := false, zevQ := [],
    zevCur := none, zevToggle := false, pfi := Vector.replicate 4 pfiReset, emu := Vector.replicate 2 emuReset, firings := [],
    active := Vector.replicate 8 none, blankEnd := Vector.replicate 4 0, gateTable := [],
    fsp := ⟨0, 0, 0, 0, false, false⟩, zl := Vector.replicate 2 zlReset }

/-- Nahar's end of Horizon after chip reset. PRESUMED, log entry 63. -/
def hzReset : HzNahar :=
  { badRun := 0, trainStart := 0, miriRun := Vector.replicate 12 (0, 0), replica := Vector.replicate 4 0, hwm := Vector.replicate 4 0,
    samples := Vector.replicate 4 [], gateQ := [], second := none, sentQ := [], stageQ := [], serTx := [], serRx := [],
    credit := creditReset, relay := none, relayWait := [], relaySeq := false, relayRx := none, zevHigh := none, zevLast := 0x1F,
    attn := false, flight := [], launchedTo := 0, staged := [], lost := false, unsent := [] }

def laneReset : Lane := ⟨none, false, false, 0, 0⟩

def portReset : Port :=
  { start := 0, attempts := 0, waiting := false, lastTrig := none, blocks := Vector.replicate 3 0, prec := Vector.replicate 3 none,
    seen := Vector.replicate 3 false, step5 := false, marked := Vector.replicate 3 false, seq := Vector.replicate 3 0,
    errRun := Vector.replicate 3 0, wasOut := false, queue := [], awaited := [], fifo := [], hc := none, lastTx := [] }

def casLaneReset : CasLane := ⟨0, 0, false, false, 0, 8, ⟨0, 0, 0, 0, 0, 128⟩, 0, none, false, false, false⟩

def casReset : Cascade :=
  { lane := casLaneReset, attempt := false, frameTs := 0, rps := Vector.replicate 3 0, replica := Vector.replicate 4 0, hwm := Vector.replicate 4 0, queue := [], mseq := 0, applied := [], badRun := 0, goodRun := 0,
    ringSum := 0, missRun := 0, start := 0, failed := 0, corrValid := false, fseq := 0, dueSamples := [], dueMsgs := [], lastOut := [] }

def pathReset : PathState := ⟨0, none, none, [], false⟩

/-- The endpoint with its configuration space at its reset values (R110), its link down. -/
def pcieReset (perst : Bool) : Pcie :=
  ⟨perst, false, false, false, false, [], [], 0, 0⟩

def bistReset : Bist :=
  { memQ := [], logQ := [], running := [], cap := 0, budget := 0, start := 0, lastStart := none, failed := none, failCount := 0,
    aborted := false, results := [], inForce := none, calDone := [] }

def ringReset : Ring := ⟨[], false, [], [], 0, 0⟩

def bspReset (flash : Memory) : Bsp := ⟨none, none, none, none, (0, 0), flash⟩

/-- The machine right after the power-on chip reset has ended (R45, R48): every Nahar rail is at power good (step 2 of Table 2-9), the boot
sequence waits for step 3, and nothing is queued. Registers hold their reset values; VF has not risen and PERST_N is asserted
(DESIGN CHOICE, log entries 10 and 11). -/
def State.reset : State :=
  { regs := [], fregs := [], shadow := [], pciePath := pathReset, spiPath := pathReset,
    clk := ⟨0, 0, false, 0, 0⟩,
    pw := { vh := .good, off := false, held := false, rails := true, strapped := false, bootStep := 2, level1 := false, parkStep := 0,
            wakeHeld := false, woken := false, safeCause := 0, vf := false, vfPor := true, hzBeforePark := false },
    pcie := pcieReset true, sent := [], chart := none, hz := hzReset, jens := jensReset, lanes := Vector.replicate 16 laneReset,
    ports := Vector.replicate 4 portReset, commit := none, heldPwr := 0,
    spi := ⟨[], 0x80, 0, [], false, []⟩,
    bsp := bspReset ⟨0, []⟩,
    bist := bistReset, upsets := [], blockResets := [], react := [], wdtCount := 0, wdtTimeout := 0, wdtWarn := 0, wdtWarned := false,
    fns := Vector.replicate 8 ⟨0, 0, [], 0, false⟩, transits := [], gone := [], bands := [], running := Vector.replicate 3 none,
    dlv := ⟨Vector.replicate 128 ringReset, [], 0, none⟩, cas := casReset, hostMem := [],
    sts := ⟨0, []⟩, ws := ⟨0, []⟩, cht := ⟨0, []⟩, mceLb := ⟨0, []⟩, eleLb := ⟨0, []⟩, tdr := ⟨0, []⟩, freeCtr := 0, pending := [] }

end Sys2Proof.Machine
end

