-- ==== Sys2Proof/Machine/Ops.lean ====
section
/-! DEFINITION. Named operations over registers and time. -/
namespace Sys2Proof.Machine

/-! ## Fields of a word -/

def getF (w : Word) (f : Fld) : Nat := w.toNat / 2 ^ f.lsb % 2 ^ f.width

def putF (w : Word) (f : Fld) (v : Nat) : Word :=
  BitVec.ofNat 32 (w.toNat - getF w f * 2 ^ f.lsb + v % 2 ^ f.width * 2 ^ f.lsb)

def ofBool (b : Bool) : Nat := if b then 1 else 0

namespace State

/-! ## Registers of Nahar -/

def reg (s : State) (a : Nat) : Word := cellsGet regReset s.regs a
def setReg (s : State) (a : Nat) (v : Word) : State := { s with regs := cellsSet regReset s.regs a v }
def get (s : State) (a : Nat) (f : Fld) : Nat := getF (s.reg a) f
def put (s : State) (a : Nat) (f : Fld) (v : Nat) : State := s.setReg a (putF (s.reg a) f v)
def flag (s : State) (a : Nat) (f : Fld) : Bool := s.get a f != 0
def putFlag (s : State) (a : Nat) (f : Fld) (b : Bool) : State := s.put a f (ofBool b)
/-- A count that saturates at the top of its field. -/
def bumpBy (s : State) (a : Nat) (f : Fld) (n : Nat) : State := s.put a f (min (s.get a f + n) (2 ^ f.width - 1))
def bump (s : State) (a : Nat) (f : Fld) : State := s.bumpBy a f 1
/-- A count that wraps. -/
def wrapBy (s : State) (a : Nat) (f : Fld) (n : Nat) : State := s.put a f (s.get a f + n)
/-- The device sets bit `i` of a field. -/
def setBit (s : State) (a : Nat) (f : Fld) (i : Nat) : State := s.put a f (s.get a f ||| 2 ^ i)
def clearBit (s : State) (a : Nat) (f : Fld) (i : Nat) : State :=
  if (s.get a f).testBit i then s.put a f (s.get a f - 2 ^ i) else s
def bit (s : State) (a : Nat) (f : Fld) (i : Nat) : Bool := (s.get a f).testBit i
def putBit (s : State) (a : Nat) (f : Fld) (i : Nat) (b : Bool) : State :=
  if b then s.setBit a f i else s.clearBit a f i
/-- A register pair read as 64 bits. -/
def pair (s : State) (lo hi : Nat) : Nat := (s.reg lo).toNat + 2 ^ 32 * (s.reg hi).toNat
def setPair (s : State) (lo hi v : Nat) : State :=
  (s.setReg lo (BitVec.ofNat 32 v)).setReg hi (BitVec.ofNat 32 (v / 2 ^ 32))

/-! ## Registers of Jens -/

def jreg (s : State) (a : Nat) : Word := cellsGet fieldReset s.fregs a
def setJreg (s : State) (a : Nat) (v : Word) : State := { s with fregs := cellsSet fieldReset s.fregs a v }
def jget (s : State) (a : Nat) (f : Fld) : Nat := getF (s.jreg a) f
def jput (s : State) (a : Nat) (f : Fld) (v : Nat) : State := s.setJreg a (putF (s.jreg a) f v)
def jflag (s : State) (a : Nat) (f : Fld) : Bool := s.jget a f != 0
def jputFlag (s : State) (a : Nat) (f : Fld) (b : Bool) : State := s.jput a f (ofBool b)
def jbump (s : State) (a : Nat) (f : Fld) : State := s.jput a f (min (s.jget a f + 1) (2 ^ f.width - 1))
def jwrap (s : State) (a : Nat) (f : Fld) (n : Nat) : State := s.jput a f (s.jget a f + n)
def jsetBit (s : State) (a : Nat) (f : Fld) (i : Nat) : State := s.jput a f (s.jget a f ||| 2 ^ i)
def jclearBit (s : State) (a : Nat) (f : Fld) (i : Nat) : State :=
  if (s.jget a f).testBit i then s.jput a f (s.jget a f - 2 ^ i) else s

def shadowReg (s : State) (a : Nat) : Word := cellsGet fieldReset s.shadow a
def setShadow (s : State) (a : Nat) (v : Word) : State := { s with shadow := cellsSet fieldReset s.shadow a v }

/-! ## Paths -/

def pathOf (s : State) : Path → PathState
  | .pcie => s.pciePath
  | .spi => s.spiPath

def setPath (s : State) (p : Path) (x : PathState) : State :=
  match p with
  | .pcie => { s with pciePath := x }
  | .spi => { s with spiPath := x }

/-! ## Power state and time -/

def pwState (s : State) : Nat := s.get Reg.PWR_STATE Fl.PWR_STATE_STATE
def isBoot (s : State) : Bool := s.pwState == 1
def isRun (s : State) : Bool := s.pwState == 2
def isSleep (s : State) : Bool := s.pwState == 3
def isPark (s : State) : Bool := s.pwState == 4
def isSafe (s : State) : Bool := s.pwState == 5
def parkEntry (s : State) : Bool := s.get Reg.PWR_STATE Fl.PWR_STATE_PHASE == 1
def parkExit (s : State) : Bool := s.get Reg.PWR_STATE Fl.PWR_STATE_PHASE == 2
/-- Out of chip reset, powered, level 1 reached: the device answers on its register paths (R64). -/
def alive (s : State) : Bool := s.pw.level1 && !s.pw.held && !s.pw.off

/-- Operating time accumulates from the timestamp in RUN, SLEEP and PARK (section 6.3 of chapter 2). -/
def addOpTime (s : State) (d : Nat) : State :=
  if s.isRun || s.isSleep || s.isPark then
    let n := s.clk.opFrac + d
    { (s.wrapBy Reg.BIST_OPTIME Fl.BIST_OPTIME_SECONDS (n / 500000000)) with clk := { s.clk with opFrac := n % 500000000 } }
  else s

/-! ### Frames of a cascade lead (R485 to R487): one at every timestamp that is a multiple of 80 -/

/-- The lead launches frames: link-up has reached the frame phase. -/
def casLeads (s : State) : Bool :=
  s.get Reg.CAS_STATUS Fl.CAS_STATUS_LENGTH != 0 && s.get Reg.CAS_STATUS Fl.CAS_STATUS_POSITION == 0 &&
    (s.get Reg.CAS_STATUS Fl.CAS_STATUS_STATE == 2 || s.get Reg.CAS_STATUS Fl.CAS_STATUS_STATE == 3)

/-- `n` 16-bit words of a number, highest first. -/
def words16 (n v : Nat) : List Nat := (List.range n).map fun i => v / 2 ^ (16 * (n - 1 - i)) % 2 ^ 16

/-- A message slot (R487). -/
def CasMsg.words (m : CasMsg) : List Nat :=
  (m.kind * 2 ^ 14 + m.fn * 2 ^ 11 + m.mseq * 2 ^ 3 + m.chan * 2) :: words16 2 m.tid ++ words16 2 m.pos

/-- R486: VALID and the sample of channel `c`. -/
def casSample (s : State) (c : Fin 4) : Nat :=
  let ok := s.get Reg.HZ_STATUS Fl.HZ_STATUS_STATE == 5 && s.jget (Reg.PFI_CFG c) Fl.PFI_CFG_MODE != 0
  2 ^ 47 * ofBool ok + s.hz.replica[c]

/-- The words of the frame of timestamp `ts` (Table 17-1). -/
def casFrameWords (s : State) (ts : Nat) (msgs : List CasMsg) : List Nat :=
  let slots := msgs.flatMap CasMsg.words
  let body := (0xA180 + 2 ^ 11 * ofBool s.cas.corrValid + s.cas.fseq) :: words16 4 ts ++
    ((List.finRange 4).flatMap fun c => words16 3 (s.casSample c)) ++ slots ++ List.replicate (23 - slots.length) 0 ++
    ((List.range 3).map fun k => s.get (Reg.CAS_F_CORR k) Fl.CAS_F_CORR_CORR) ++ List.replicate 81 0
  body ++ [hcrc body]

/-- The next frame is launched; each message goes into two successive frames. -/
def casFrame (s : State) : State :=
  let ts := 80 * (s.cas.frameTs / 80 + 1)
  let now := s.cas.queue.take 4
  let again := now.filterMap fun m => if m.sent = 0 then some { m with sent := 1 } else none
  { s with cas := { s.cas with frameTs := ts, fseq := (s.cas.fseq + 1) % 64, queue := again ++ s.cas.queue.drop 4,
                               lastOut := s.casFrameWords ts now } }

def casFrames : Nat → State → State
  | 0, s => s
  | n + 1, s => casFrames n s.casFrame

/-- The frames of the timestamps before `t`. A full queue has been sent twice over after 17 frames; of a longer run the frames between
are alike but for FSEQ and TS. -/
def casLaunch (s : State) (t : Nat) : State :=
  if s.casLeads then
    let n := (t - 1) / 80 - s.cas.frameTs / 80
    if n ≤ 18 then casFrames n s
    else
      let s := casFrames 17 s
      casFrames 1 { s with cas := { s.cas with frameTs := 80 * ((t - 1) / 80 - 1), fseq := (s.cas.fseq + (n - 18)) % 64 } }
  else s

/-- `d` SCLK cycles of 2 ns pass (R44, R45, R458); none pass while SCLK is absent. -/
def tick (s : State) (d : Nat) : State :=
  if s.clk.sclk && d != 0 then
    let s := (s.casLaunch (s.clk.ts + d)).addOpTime d
    let s := { s with clk := { s.clk with ts := s.clk.ts + d, jts := s.clk.jts + d } }
    if s.flag Reg.WDT_CTRL Fl.WDT_CTRL_ENABLE then { s with wdtCount := s.wdtCount + d } else s
  else s

/-- The cycle whose timestamp is `t`; time never goes backwards (R45). DESIGN CHOICE, log entry 16. -/
def atTime (s : State) (t : Nat) : State := s.tick (t - s.clk.ts)

/-- Timestamp as the 64-bit register pair shows it. -/
def ts64 (s : State) : Nat := s.clk.ts % 2 ^ 64

end State

end Sys2Proof.Machine
end

