-- ==== Sys2Proof/Machine/Chart.lean ====
section
/-! DEFINITION. Reading the committed Chart: sections, fields and what other chapters derive from them (chapters 1, 3, 5 and 11). -/
namespace Sys2Proof.Machine

/-! ## Little-endian fields of a run of bytes (R70) -/

def u8 (l : List Nat) (i : Nat) : Nat := l.getD i 0
def u16 (l : List Nat) (i : Nat) : Nat := u8 l i + 2 ^ 8 * u8 l (i + 1)
def u32 (l : List Nat) (i : Nat) : Nat := u16 l i + 2 ^ 16 * u16 l (i + 2)
def u64 (l : List Nat) (i : Nat) : Nat := u32 l i + 2 ^ 32 * u32 l (i + 4)
def s8 (l : List Nat) (i : Nat) : Int := signed 8 (u8 l i)
def s16 (l : List Nat) (i : Nat) : Int := signed 16 (u16 l i)
def s32 (l : List Nat) (i : Nat) : Int := signed 32 (u32 l i)

namespace Chart

def find (c : Chart) (typ inst : Nat) : Option Section := c.sections.find? fun x => x.typ == typ && x.inst == inst
def sec (c : Chart) (typ inst : Nat) : List Nat := match c.find typ inst with | some x => x.data | none => []
def has (c : Chart) (typ inst : Nat) : Bool := (c.find typ inst).isSome

/-! ### FUNCTION n (Table 3-10) -/

def fn (c : Chart) (n : Nat) : List Nat := c.sec 0x10 n
def fnDefined (c : Chart) (n : Nat) : Bool := c.has 0x10 n
def functions (c : Chart) : List Nat := (List.range 8).filter c.fnDefined
def fnPorts (c : Chart) (n : Nat) : List Nat := (List.range 4).filter fun p => (u8 (c.fn n) 1).testBit p
def fnProgram (c : Chart) (n : Nat) : Option Nat := if c.fnDefined n && u8 (c.fn n) 7 != 0xFF then some (u8 (c.fn n) 7) else none
def fnVerdict (c : Chart) (n : Nat) : Option Nat := if c.fnDefined n && u8 (c.fn n) 8 != 0xFF then some (u8 (c.fn n) 8) else none
def fnOwnsGls (c : Chart) (n j : Nat) : Bool := (u8 (c.fn n) 9).testBit j
/-- R85: the owner of a GLS owns its high side. -/
def fnOwnsGhs (c : Chart) (n k : Nat) : Bool := c.fnOwnsGls n (2 * k) || c.fnOwnsGls n (2 * k + 1)
def fnRing (c : Chart) (n r : Nat) : Bool := (u8 (c.fn n) (0x20 + r / 8)).testBit (r % 8)
/-- Route records of a function: (source, sink). -/
def fnRoutes (c : Chart) (n : Nat) : List (Nat × Nat) :=
  (List.range (u8 (c.fn n) 0x0D)).map fun i => (u8 (c.fn n) (0x40 + 4 * i), u8 (c.fn n) (0x41 + 4 * i))
/-- Every route with its function, in route index order (R84). -/
def routes (c : Chart) : List (Nat × Nat × Nat) := c.functions.flatMap fun n => (c.fnRoutes n).map fun r => (n, r.1, r.2)

/-- The functions that own a section of function scope (Table 3-3). -/
def owners (c : Chart) (typ inst : Nat) : List Nat :=
  c.functions.filter fun n =>
    if typ = 0x03 ∨ typ = 0x04 then (u8 (c.fn n) 1).testBit inst
    else if typ = 0x10 then n == inst
    else if typ = 0x11 then c.fnProgram n == some inst
    else if typ = 0x12 then (match c.fnProgram n with | some p => u8 (c.sec 0x11 p) 0 == inst | none => false)
    else if typ = 0x13 then c.fnVerdict n == some inst
    else false

/-- Function scope of a section type (Table 3-3). -/
def functionScope (typ : Nat) : Bool := [0x03, 0x04, 0x10, 0x11, 0x12, 0x13].contains typ

/-! ### VERDICT v (R90, Tables 3-11 and 3-12) -/

def ruleCount (c : Chart) (v : Nat) : Nat := u8 (c.sec 0x13 v) 4
/-- Byte offset of the gate program of rule `p`, 64 for the default. -/
def gateOffset (p : Nat) : Nat := if p = 64 then 8 else 24 + 32 * p + 16
/-- The 16 bytes of entry 65 v + p of the gate-program table (R161). -/
def gateProgram (c : Chart) (v p : Nat) : List Nat :=
  if c.has 0x13 v && (p == 64 || decide (p < c.ruleCount v)) then ((c.sec 0x13 v).drop (gateOffset p)).take 16
  else 0xFF :: List.replicate 15 0
/-- Some gate program of the section names a gate (R163). -/
def verdictHasGate (c : Chart) (v : Nat) : Bool :=
  ((64 :: List.range (c.ruleCount v)).any fun p => u8 (c.gateProgram v p) 0 != 0xFF)

end Chart

namespace State

def chartOk (s : State) : Bool := s.chart.isSome
def sec (s : State) (typ inst : Nat) : List Nat := match s.chart with | some c => c.sec typ inst | none => []
def hasSec (s : State) (typ inst : Nat) : Bool := match s.chart with | some c => c.has typ inst | none => false
def fnSec (s : State) (n : Nat) : List Nat := s.sec 0x10 n
def chartFns (s : State) : List Nat := match s.chart with | some c => c.functions | none => []

/-! ### Functions -/

def fnState (s : State) (n : Nat) : Nat := s.get (Reg.SYS_FN_STATE n) Fl.SYS_FN_STATE_STATE
def fnDefined (s : State) (n : Nat) : Bool := s.fnState n != 7
def fnStopped (s : State) (n : Nat) : Bool := s.fnState n == 0 || s.fnState n == 7
def fnIdle (s : State) (n : Nat) : Bool := s.fnState n == 1
def fnArmed (s : State) (n : Nat) : Bool := s.fnState n == 2
def fnRunning (s : State) (n : Nat) : Bool := s.fnState n == 3
def fnDraining (s : State) (n : Nat) : Bool := s.fnState n == 4
def allStopped (s : State) : Bool := (List.range 8).all s.fnStopped
def fnPorts (s : State) (n : Nat) : List Nat := match s.chart with | some c => c.fnPorts n | none => []
def fnReqLevel (s : State) (n : Nat) : Nat := u8 (s.fnSec n) 0
def fnTrigger (s : State) (n : Nat) : Nat := u8 (s.fnSec n) 2
def fnLineTimer (s : State) (n : Nat) : Bool := s.fnTrigger n == 0x10
def fnOpenSource (s : State) (n : Nat) : Nat := u8 (s.fnSec n) 3
def fnOpenIndex (s : State) (n : Nat) : Nat := u8 (s.fnSec n) 4
def fnOpenEdge (s : State) (n : Nat) : Nat := u8 (s.fnSec n) 5
def fnStripeLines (s : State) (n : Nat) : Nat := u8 (s.fnSec n) 6
def fnProgram (s : State) (n : Nat) : Option Nat := match s.chart with | some c => c.fnProgram n | none => none
def fnVerdict (s : State) (n : Nat) : Option Nat := match s.chart with | some c => c.fnVerdict n | none => none
def routes (s : State) : List (Nat × Nat × Nat) := match s.chart with | some c => c.routes | none => []
/-- DEDUCED, log entry 65. -/
def decisionPoint (s : State) (n : Nat) : Nat := match s.fnVerdict n with | some v => u32 (s.sec 0x13 v) 0 | none => 0

/-! ### PORT and LANE (Tables 3-6 and 3-7) -/

def portSec (s : State) (p : Nat) : List Nat := s.sec 0x03 p
def portChannels (s : State) (p : Nat) : Nat := u8 (s.portSec p) 1
def portPixels (s : State) (p : Nat) : Nat := u16 (s.portSec p) 2
def portMeridian (s : State) (p : Nat) : Int := s32 (s.portSec p) 0x0C
/-- Functions that name port `p`; OWNERSHIP allows one (R19). -/
def portFn (s : State) (p : Nat) : Option Nat := s.chartFns.find? fun n => (u8 (s.fnSec n) 1).testBit p
def laneEntry (s : State) (p r b : Nat) : Nat := u8 (s.sec 0x04 p) (4 * r + b)

/-! ### FIELD (Table 3-8) -/

def field (s : State) : List Nat := s.sec 0x05 0

end State

end Sys2Proof.Machine
end

