-- ==== Sys2Proof/Machine/Events.lean ====
section
/-! DEFINITION. Event sources and vectors (chapter 14, section 9) and the latching of fault sources (chapter 15, sections 2 to 4). -/
namespace Sys2Proof.Machine

namespace State

/-! ## Fault collector: what FCU_STATUS and FCU_REACT give -/

/-- The source numbers Table 15-1 assigns. -/
def fcuAssigned : List Nat := [0, 1, 2, 3, 4, 8, 9, 10, 11, 12, 13, 14, 15, 16, 17, 18]

def fcuStatus (s : State) : Nat := s.pair Reg.FCU_STATUS_LO Reg.FCU_STATUS_HI
def fcuLatched (s : State) (src : Nat) : Bool := s.fcuStatus.testBit src
def reaction (s : State) (src : Nat) : Nat := s.get (Reg.FCU_REACT src) Fl.FCU_REACT_REACTION

/-- Some latched source has its ERR bit set (R445). -/
def fcuErr (s : State) : Bool :=
  fcuAssigned.any fun i => s.fcuLatched i && s.flag (Reg.FCU_REACT i) Fl.FCU_REACT_ERR

/-- R448: the trap is asserted. -/
def trap (s : State) : Bool :=
  s.isSafe || fcuAssigned.any fun i => s.fcuLatched i && s.reaction i == 1

/-- R442: some latched source has reaction INT or BLOCK. -/
def fcuInterrupt (s : State) : Bool :=
  fcuAssigned.any fun i => s.fcuLatched i && (s.reaction i == 0 || s.reaction i == 2)

/-- FCU_TRAP.TRAP_SRC. -/
def trapSource (s : State) : Nat :=
  (fcuAssigned.find? fun i => s.fcuLatched i && s.reaction i == 1).getD 0xFF

/-- ERR_N is asserted (R64, R445). -/
def errAsserted (s : State) : Bool := !s.alive || s.isSafe || s.fcuErr

/-- TRAP_N is asserted (R64, R448). -/
def trapAsserted (s : State) : Bool := s.alive && s.trap

/-! ## Sources -/

/-- R432, Table 14-6: source `n` is asserted. -/
def srcAsserted (s : State) (n : Nat) : Bool :=
  if n < 8 then s.bit Reg.SYS_FN_EVENT ⟨0, 24⟩ n || s.bit Reg.SYS_FN_EVENT ⟨0, 24⟩ (8 + n) || s.bit Reg.SYS_FN_EVENT ⟨0, 24⟩ (16 + n)
  else if n < 16 then s.reg (Reg.ACQ_FN_EVENT (n - 8)) != 0
  else if n < 24 then s.reg (Reg.VRD_FN_EVENT (n - 16)) != 0
  else if n < 40 then s.reg (Reg.LN_EVENT (n - 24)) != 0
  else if n < 44 then s.reg (Reg.CP_EVENT (n - 40)) != 0
  else if n < 48 then s.reg (Reg.LTG_P_EVENT (n - 44)) != 0
  else if n = 48 then s.reg Reg.STS_EVENT != 0
  else if n = 49 then s.reg (Reg.E_EVENT 0) != 0
  else if n = 50 then s.reg (Reg.E_EVENT 1) != 0
  else if n = 51 then s.reg Reg.PST_EVENT != 0
  else if n = 52 then s.flag Reg.CHT_EVENT Fl.CHT_EVENT_DONE
  else if n = 53 then s.flag Reg.CHT_EVENT Fl.CHT_EVENT_FAILED
  else if n = 54 then s.reg Reg.PWR_WAKE_CAUSE != 0
  else if n = 55 then s.flag Reg.EVT_PULSE Fl.EVT_PULSE_WAKE_DONE
  else if n = 56 then s.flag Reg.PWR_STATE Fl.PWR_STATE_CMD_REFUSED || s.flag Reg.PWR_STATE Fl.PWR_STATE_PARK_ABORTED
  else if n = 57 then s.flag Reg.CLK_EVENT Fl.CLK_EVENT_LOCK_LOST
  else if n = 58 then s.flag Reg.PCX_AEL_COUNT Fl.PCX_AEL_COUNT_EVENT
  else if n = 59 then s.flag Reg.SSP_AEL_COUNT Fl.SSP_AEL_COUNT_EVENT
  else if n = 60 then s.reg Reg.PCX_LINK_EVENT != 0
  else if n = 61 then s.flag Reg.EVT_PULSE Fl.EVT_PULSE_HOSTLOSS
  else if n = 62 then s.flag Reg.BSP_EVENT Fl.BSP_EVENT_DONE
  else if 64 ≤ n ∧ n ≤ 73 then s.bit Reg.HZ_EVENT ⟨0, 10⟩ (n - 64)
  else if 74 ≤ n ∧ n ≤ 85 then
    s.bit Reg.HZ_MIRI_RISE Fl.HZ_MIRI_RISE_RISE (n - 74) || s.bit Reg.HZ_MIRI_FALL Fl.HZ_MIRI_FALL_FALL (n - 74)
  else if n = 96 then s.fcuInterrupt
  else if n = 97 then s.reg Reg.WDT_EVENT != 0
  else if n = 98 then s.reg Reg.BIST_EVENT != 0
  else if n = 99 then s.reg Reg.CAS_EVENT != 0
  else false

/-- The registers that hold the bits of source `n`, as a test on an offset (R433, R434). -/
def srcRegs (n : Nat) : List Nat :=
  if n < 8 then [Reg.SYS_FN_EVENT]
  else if n < 16 then [Reg.ACQ_FN_EVENT (n - 8)]
  else if n < 24 then [Reg.VRD_FN_EVENT (n - 16)]
  else if n < 40 then [Reg.LN_EVENT (n - 24)]
  else if n < 44 then [Reg.CP_EVENT (n - 40)]
  else if n < 48 then [Reg.LTG_P_EVENT (n - 44)]
  else if n = 48 then [Reg.STS_EVENT]
  else if n = 49 then [Reg.E_EVENT 0]
  else if n = 50 then [Reg.E_EVENT 1]
  else if n = 51 then [Reg.PST_EVENT]
  else if n = 52 ∨ n = 53 then [Reg.CHT_EVENT]
  else if n = 54 then [Reg.PWR_WAKE_CAUSE]
  else if n = 55 ∨ n = 61 then [Reg.EVT_PULSE]
  else if n = 56 then [Reg.PWR_STATE]
  else if n = 57 then [Reg.CLK_EVENT]
  else if n = 58 then [Reg.PCX_AEL_COUNT]
  else if n = 59 then [Reg.SSP_AEL_COUNT]
  else if n = 60 then [Reg.PCX_LINK_EVENT]
  else if n = 62 then [Reg.BSP_EVENT]
  else if 64 ≤ n ∧ n ≤ 73 then [Reg.HZ_EVENT]
  else if 74 ≤ n ∧ n ≤ 85 then [Reg.HZ_MIRI_RISE, Reg.HZ_MIRI_FALL]
  else if n = 96 then [Reg.FCU_STATUS_LO, Reg.FCU_STATUS_HI]
  else if n = 97 then [Reg.WDT_EVENT]
  else if n = 98 then [Reg.BIST_EVENT]
  else if n = 99 then [Reg.CAS_EVENT]
  else []

/-! ## Vectors (R435) -/

/-- An MSI-X table word holds 0 until written, but the Mask bit of an entry is 1 (PCI Express Base Specification; PRESUMED, log entry 4). -/
def msixReset (off : Nat) : Word := if off % 16 = 12 then 1 else 0

def msixWord (s : State) (off : Nat) : Word := cellsGet msixReset s.pcie.msixTable off
def entryMasked (s : State) (v : Nat) : Bool := (s.msixWord (16 * v + 12)).getLsbD 0

def insertRising (n : Nat) : List Nat → List Nat
  | [] => [n]
  | m :: r => if n < m then n :: m :: r else if n = m then m :: r else m :: insertRising n r

/-- The message of vector `v` is written to the host. -/
def sendVector (s : State) (v : Nat) : State :=
  { s with sent := s.sent ++
      [⟨v, (s.msixWord (16 * v)).toNat + 2 ^ 32 * (s.msixWord (16 * v + 4)).toNat, s.msixWord (16 * v + 8)⟩] }

/-- MSI-X Enable and Bus Master Enable are 1, the PCI Express function is not in D3hot (PCI Express Base Specification; PRESUMED, log entry 31), and the
safe state does not withhold the vector (R435, R455). -/
def vectorSendable (s : State) (v : Nat) : Bool :=
  s.pcie.msixEnable && s.flag Reg.PCX_LINK Fl.PCX_LINK_BME && s.get Reg.PCX_LINK Fl.PCX_LINK_DSTATE != 3 && (!s.isSafe || v == 0)

def vpend (s : State) (v : Nat) (b : Bool) : State := s.putBit (Reg.EVT_VPEND (v / 32)) Fl.EVT_VPEND_PEND (v % 32) b
def vmasked (s : State) (v : Nat) : Bool := s.bit (Reg.EVT_VMASK (v / 32)) Fl.EVT_VMASK_MASK (v % 32)

/-- A vector whose mask bit is clear is offered to the endpoint (R435). -/
def offerVector (s : State) (v : Nat) : State :=
  if s.vectorSendable v then
    if s.pcie.functionMask || s.entryMasked v then { s with pcie := { s.pcie with pba := insertRising v s.pcie.pba } }
    else s.sendVector v
  else s.vpend v true

/-- R435: vector `v` fires. -/
def fireVector (s : State) (v : Nat) : State :=
  if 263 < v then s
  else if s.vmasked v then s.vpend v true
  else s.offerVector v

/-- The vector a source is mapped to, if its ENABLE is set and it names one (R433, R434). -/
def srcVector (s : State) (n : Nat) : Option Nat :=
  if s.flag (Reg.EVT_MAP n) Fl.EVT_MAP_ENABLE && s.get (Reg.EVT_MAP n) Fl.EVT_MAP_VECTOR != 0
  then some (s.get (Reg.EVT_MAP n) Fl.EVT_MAP_VECTOR) else none

/-- Sources whose map entry has been written, read off the register file. -/
def mappedSources (s : State) : List Nat :=
  s.regs.filterMap fun c => if 0x408000 ≤ c.1 ∧ c.1 < 0x408400 then some ((c.1 - 0x408000) / 4) else none

/-- Rings of which an EVENT bit is set, read off the register file. -/
def ringsWithEvents (s : State) : List Nat :=
  s.regs.filterMap fun c => if 0x400000 ≤ c.1 ∧ c.1 < 0x408000 ∧ c.1 % 0x100 = 0x70 then some ((c.1 - 0x400000) / 0x100) else none

/-- A ring's error vector is asserted (R431). DEDUCED, log entry 36. -/
def ringError (s : State) (r : Nat) : Bool :=
  s.get (Reg.DLV_EVENT r) ⟨0, 6⟩ &&& s.get (Reg.DLV_EVENT_EN r) Fl.DLV_EVENT_EN_EN != 0

/-- The vectors that fire because a source became asserted between `s` and `s'` (R431, R433, R436). -/
def risen (s s' : State) : List Nat :=
  (if s'.trapAsserted && !s.trapAsserted then [0] else []) ++
  (s'.mappedSources.filterMap fun n => if s'.srcAsserted n && !s.srcAsserted n then s'.srcVector n else none) ++
  (s'.ringsWithEvents.filterMap fun r => if s'.ringError r && !s.ringError r then some (9 + 2 * r) else none)

/-- Each vector once, in the order in which it first occurs. -/
def firstOnly : List Nat → List Nat
  | [] => []
  | v :: r => v :: (firstOnly r).filter (· != v)

/-- What a command leaves, after the vectors of the sources it asserted have fired, each of them once. DEDUCED, log entry 106. -/
def fireRisen (s s' : State) : State := (firstOnly (risen s s')).foldl fireVector s'

/-- A write to register `off` leaves its sources asserted: they fire again (R433). -/
def refire (s : State) (off : Nat) : State :=
  let ring := if 0x400000 ≤ off ∧ off < 0x408000 ∧ off % 0x100 = 0x70 then
      (if s.ringError ((off - 0x400000) / 0x100) then [9 + 2 * ((off - 0x400000) / 0x100)] else []) else []
  ((s.mappedSources.filterMap fun n => if (srcRegs n).contains off && s.srcAsserted n then s.srcVector n else none) ++ ring).foldl
    fireVector s

/-- Every pending vector that can now be sent is sent, in ascending number (R435). -/
def flushVectors (s : State) : State :=
  (List.range 264).foldl (fun s v =>
    if s.bit (Reg.EVT_VPEND (v / 32)) Fl.EVT_VPEND_PEND (v % 32) && !s.vmasked v && s.vectorSendable v
    then (s.vpend v false).offerVector v else s) s

/-- Messages held in the pending-bit array whose masks are now clear are sent, in ascending number. -/
def flushPba (s : State) : State :=
  s.pcie.pba.foldl (fun s v =>
    if s.vectorSendable v && !s.pcie.functionMask && !s.entryMasked v
    then { s with pcie := { s.pcie with pba := s.pcie.pba.filter (· != v) } }.sendVector v else s) s

/-! ## Latching a fault source (R440) -/

/-- FCU_STATUS takes source `src`; its reaction is due when the bit goes from 0 to 1 (R441). -/
def latch (s : State) (src : Nat) : State :=
  if s.fcuLatched src then s
  else
    let s1 := if s.fcuStatus = 0 then
        (s.setReg Reg.FCU_FIRST (BitVec.ofNat 32 (src + 2 ^ 31))).setPair Reg.FCU_FIRST_TS_LO Reg.FCU_FIRST_TS_HI s.ts64
      else s
    let s2 := s1.setPair Reg.FCU_STATUS_LO Reg.FCU_STATUS_HI (s.fcuStatus ||| 2 ^ src)
    { s2 with react := insertRising src s2.react }

/-- An edge source is raised for one cycle (R440). -/
def raise (s : State) (src : Nat) : State :=
  if s.alive && fcuAssigned.contains src then (s.bump (Reg.FCU_CNT src) Fl.FCU_CNT_COUNT).latch src else s

def fcuRaw (s : State) (src : Nat) : Bool :=
  (s.pair Reg.FCU_RAW_LO Reg.FCU_RAW_HI).testBit src

/-- A level source is asserted or deasserted (R440). -/
def level (s : State) (src : Nat) (on : Bool) : State :=
  let raw := s.pair Reg.FCU_RAW_LO Reg.FCU_RAW_HI
  let s1 := if on && !raw.testBit src then
      let s0 := s.setPair Reg.FCU_RAW_LO Reg.FCU_RAW_HI (raw ||| 2 ^ src)
      if s.alive then s0.bump (Reg.FCU_CNT src) Fl.FCU_CNT_COUNT else s0
    else if !on && raw.testBit src then s.setPair Reg.FCU_RAW_LO Reg.FCU_RAW_HI (raw - 2 ^ src)
    else s
  if on && s.alive then s1.latch src else s1

end State

end Sys2Proof.Machine
end

