-- ==== Sys2Proof/Machine/Pfi.lean ====
section
/-! DEFINITION. Position feedback on Jens (chapter 6, sections 1 to 3): counting, interpolation, speed, references and errors. -/
namespace Sys2Proof.Machine

/-- The difference of two values modulo `2 ^ w`, read as a signed number (R199). -/
def sdiff (w a b : Nat) : Int := signed w (a + 2 ^ w - b % 2 ^ w)

namespace State

def modJens (s : State) (f : Jens → Jens) : State := { s with jens := f s.jens }

def pfi (s : State) (c : Fin 4) : Pfi := s.jens.pfi[c]
def setPfi (s : State) (c : Fin 4) (x : Pfi) : State := { s with jens := { s.jens with pfi := s.jens.pfi.set c x } }

def pfiMode (s : State) (c : Fin 4) : Nat := s.jget (Reg.PFI_CFG c) Fl.PFI_CFG_MODE
def pfiCount (s : State) (c : Fin 4) : Nat := (s.jreg (Reg.PFI_POS c)).toNat
def pfiBack (s : State) (c : Fin 4) : Bool := s.jflag (Reg.PFI_STAT c) Fl.PFI_STAT_DIR
def pfiStandstill (s : State) (c : Fin 4) : Bool := s.jflag (Reg.PFI_STAT c) Fl.PFI_STAT_STANDSTILL
def pfiSync (s : State) (c : Fin 4) : Bool := s.jflag (Reg.PFI_STAT c) Fl.PFI_STAT_SYNC
def pfiTeeth (s : State) (c : Fin 4) : Nat := s.jget (Reg.PFI_CFG c) Fl.PFI_CFG_TEETH
def pfiRefKind (s : State) (c : Fin 4) : Nat := s.jget (Reg.PFI_CFG c) Fl.PFI_CFG_REF_KIND

/-- Period estimate T in twelfths of a cycle, so that a quarter and a (k + 1)-th of an interval are exact (R194, R196). -/
def pfiPeriod12 (s : State) (c : Fin 4) : Option Nat :=
  if s.pfiStandstill c then none
  else if s.pfiMode c = 2 then (s.pfi c).tp
  else match (s.pfi c).hist with
    | [x0, x1, x2, x3, x4] =>
      if x0.2 == x1.2 && x1.2 == x2.2 && x2.2 == x3.2 then some (3 * (x0.1 - x4.1)) else some (12 * (x0.1 - x1.1))
    | x0 :: x1 :: _ => some (12 * (x0.1 - x1.1))
    | _ => none

/-- e: SCLK cycles since the last count. -/
def pfiElapsed (s : State) (c : Fin 4) : Nat := s.clk.jts - (s.pfi c).lastCount.getD s.clk.jts

/-- The fraction f (R196, R198). -/
def pfiFrac (s : State) (c : Fin 4) : Nat :=
  if s.pfiStandstill c then s.jget (Reg.PFI_STAT c) Fl.PFI_STAT_FRAC
  else match s.pfiPeriod12 c with
    | none => 0
    | some t => min 255 (256 * 12 * s.pfiElapsed c / t)

/-- The 40-bit position (R196). -/
def pfiPosition (s : State) (c : Fin 4) : Nat :=
  if s.pfiBack c then (256 * s.pfiCount c + 2 ^ 40 - s.pfiFrac c) % 2 ^ 40 else (256 * s.pfiCount c + s.pfiFrac c) % 2 ^ 40

/-- k + 1 when the next edge is expected to close the gap of a synchronised tone wheel, else 1 (R197). -/
def pfiGap (s : State) (c : Fin 4) : Nat :=
  let k := s.pfiRefKind c
  if s.pfiMode c = 2 ∧ s.pfiSync c ∧ 1 ≤ k ∧ k ≤ 3 ∧ (s.pfi c).sinceRef + (k + 1) = s.pfiTeeth c then k + 1 else 1

/-- SPEED (R197). -/
def pfiSpeed (s : State) (c : Fin 4) : Nat :=
  match s.pfiPeriod12 c with
  | none => 0
  | some t =>
    let g := s.pfiGap c
    let e := s.pfiElapsed c
    let v := if t * g ≥ 12 * e then 500000 * 65536 * 12 / t else 500000 * 65536 * g / e
    min v 0xFFFFFFFF

/-! ## Errors and references -/

/-- MIR_ATTN takes bit `i` (R183, R240). -/
def attnBit (s : State) (i : Nat) : State := s.setJreg Reg.MIR_ATTN (s.jreg Reg.MIR_ATTN ||| BitVec.ofNat 32 (2 ^ i))

/-- R203: an error of channel `c` is counted, sets its event bit and bit 8 + c of MIR_ATTN. -/
def pfiError (s : State) (c : Fin 4) (cnt ev : Fld) : State :=
  ((s.jbump (Reg.PFI_ERR c) cnt).jput (Reg.PFI_EVENT c) ev 1).attnBit (8 + c.val)

def refError (s : State) (c : Fin 4) : State := s.pfiError c Fl.PFI_ERR_REF Fl.PFI_EVENT_REF_ERR

/-- R201: REF_POS, REF_CNT and EVENT.REF. -/
def captureRef (s : State) (c : Fin 4) : State :=
  ((s.setJreg (Reg.PFI_REF_POS c) (s.jreg (Reg.PFI_POS c))).jwrap (Reg.PFI_REF_CNT c) Fl.PFI_REF_CNT_COUNT 1).jput
    (Reg.PFI_EVENT c) Fl.PFI_EVENT_REF 1

/-- R202: the distance from the reference event before is not the one REF_CHECK gives. -/
def refWrong (s : State) (c : Fin 4) (back : Bool) : Bool :=
  let chk := (s.jreg (Reg.PFI_REF_CHECK c)).toNat
  match (s.pfi c).refPrev with
  | some (pos, dir) => chk != 0 && dir == back && (sdiff 32 (s.pfiCount c) pos).natAbs != chk
  | none => false

def modPfi (s : State) (c : Fin 4) (f : Pfi → Pfi) : State := s.setPfi c (f (s.pfi c))

/-- Reference event of a quadrature channel and its check (R201, R202). -/
def quadRef (s : State) (c : Fin 4) (back : Bool) : State :=
  let s := s.captureRef c
  let s := if s.refWrong c back then s.refError c else s
  s.modPfi c fun x => { x with refPrev := some (s.pfiCount c, back) }

/-- What a reference event says of the counts since the one before (R202). -/
def toneCheck (s : State) (c : Fin 4) : State :=
  match (s.pfi c).refPrev with
  | none => s
  | some _ =>
    if (s.pfi c).sinceRef = s.pfiTeeth c then s.jput (Reg.PFI_STAT c) Fl.PFI_STAT_SYNC 1
    else (s.refError c).jput (Reg.PFI_STAT c) Fl.PFI_STAT_SYNC 0

/-- Reference event of a tone wheel: SYNC and its check (R202). -/
def toneRef (s : State) (c : Fin 4) : State :=
  let s := (s.captureRef c).toneCheck c
  s.modPfi c fun x => { x with refPrev := some (s.pfiCount c, false), sinceRef := 0 }

/-- C and STAT after `n` counts (R196, R198). -/
def countRegs (s : State) (c : Fin 4) (back : Bool) (n : Nat) : State :=
  let cnt := if back then s.pfiCount c + 2 ^ 32 - n else s.pfiCount c + n
  let s := s.setJreg (Reg.PFI_POS c) (BitVec.ofNat 32 cnt)
  let s := s.jputFlag (Reg.PFI_STAT c) Fl.PFI_STAT_DIR back
  (s.jput (Reg.PFI_STAT c) Fl.PFI_STAT_STANDSTILL 0).jput (Reg.PFI_STAT c) Fl.PFI_STAT_FRAC 0

/-- R193: a count made now would follow the one before within 20 cycles. -/
def overspeed (s : State) (c : Fin 4) : Bool :=
  match (s.pfi c).lastCount with
  | some t => decide (s.clk.jts - t < 20)
  | none => false

/-- `n` counts made at once in one direction (R192 to R196): C, DIR, standstill, overspeed. -/
def makeCounts (s : State) (c : Fin 4) (back : Bool) (n : Nat) : State :=
  let tooFast := s.overspeed c
  let s := (s.countRegs c back n).modPfi c fun x =>
    { x with hist := ((s.clk.jts, back) :: x.hist).take 5, lastCount := some s.clk.jts, sinceRef := x.sinceRef + n }
  if tooFast then s.pfiError c Fl.PFI_ERR_OVERSPEED Fl.PFI_EVENT_OVERSPEED else s

/-- State index of (A, B) (R192). -/
def quadIndex (a b : Bool) : Nat := if a then (if b then 2 else 1) else (if b then 3 else 0)

/-- A quadrature count, and the reference event it may be (R192, R201). -/
def quadCount (s : State) (c : Fin 4) (back z : Bool) : State :=
  let s := s.makeCounts c back 1
  if !z then s.modPfi c fun x => { x with zArmed := true }
  else if (s.pfi c).zArmed then (s.modPfi c fun x => { x with zArmed := false }).quadRef c back
  else s

/-- R192: the filtered levels of channel `c` become `a`, `b`, `z`. -/
def quadEdge (s : State) (c : Fin 4) (a b z : Bool) : State :=
  let d := (quadIndex a b + 4 - quadIndex (s.pfi c).a (s.pfi c).b) % 4
  let s := s.modPfi c fun x => { x with a := a, b := b, z := z }
  if s.pfiMode c ≠ 1 then s
  else if d = 2 then s.pfiError c Fl.PFI_ERR_QUAD Fl.PFI_EVENT_QUAD
  else if d = 0 then s
  else s.quadCount c ((d == 3) != s.jflag (Reg.PFI_CFG c) Fl.PFI_CFG_DIR_INVERT) z

/-- TEETH + 1 counts have passed without a reference event (R202). -/
def missingRef (s : State) (c : Fin 4) (before : Nat) : State :=
  if before < s.pfiTeeth c + 1 ∧ s.pfiTeeth c + 1 ≤ (s.pfi c).sinceRef
  then (s.refError c).jput (Reg.PFI_STAT c) Fl.PFI_STAT_SYNC 0 else s

/-- A tooth edge that counts `n`, with the period it leaves. -/
def toothCount (s : State) (c : Fin 4) (n : Nat) (tp : Option Nat) : State :=
  let s := s.makeCounts c (s.jflag (Reg.PFI_CFG c) Fl.PFI_CFG_DIR_INVERT) n
  s.modPfi c fun x => { x with lastEdge := some s.clk.jts, tp := tp, edges := x.edges + 1, a := true }

/-- A tooth edge that counts 1 and is no reference event. -/
def tooth (s : State) (c : Fin 4) (tp : Option Nat) : State := (s.toothCount c 1 tp).missingRef c (s.pfi c).sinceRef

/-- R194: the tooth edges that the interval since the last one spans, to the nearest whole number. -/
def toothSpan (s : State) (c : Fin 4) (tp : Nat) : Nat :=
  (24 * (s.clk.jts - (s.pfi c).lastEdge.getD s.clk.jts) + tp) / (2 * tp)

/-- R194, R195: a tooth edge of a channel with a regular period. -/
def toothClass (s : State) (c : Fin 4) (tp : Nat) : State :=
  let k := s.pfiRefKind c
  let ti := s.clk.jts - (s.pfi c).lastEdge.getD s.clk.jts
  if k = 4 then
    if 16 * ti < tp then (s.modPfi c fun x => { x with a := true }).toneRef c else s.tooth c (some (12 * ti))
  else if s.toothSpan c tp = 1 then s.tooth c (some (12 * ti))
  else if s.toothSpan c tp = k + 1 then (s.toothCount c (k + 1) (some (12 * ti / (k + 1)))).toneRef c
  else ((s.tooth c (some (12 * ti))).pfiError c Fl.PFI_ERR_TOOTH Fl.PFI_EVENT_TOOTH).jput (Reg.PFI_STAT c) Fl.PFI_STAT_SYNC 0

/-- R194, R195: a rising edge of filtered A on a tone-wheel channel. -/
def toothEdge (s : State) (c : Fin 4) : State :=
  if s.pfiMode c ≠ 2 then s.modPfi c fun x => { x with a := true }
  else match (s.pfi c).tp with
    | none =>
      s.tooth c (if (s.pfi c).edges = 0 then none else some (12 * (s.clk.jts - (s.pfi c).lastEdge.getD s.clk.jts)))
    | some tp => s.toothClass c tp

/-- R198: 2^24 cycles have passed since the last count; the counts before give no period any more (DEDUCED, log entry 34). DEDUCED, log entry 23. -/
def standstill (s : State) (c : Fin 4) : State :=
  if s.pfiStandstill c || s.pfiElapsed c < 2 ^ 24 then s
  else
    let f := s.pfiFrac c
    let s := (s.jput (Reg.PFI_STAT c) Fl.PFI_STAT_FRAC f).jput (Reg.PFI_STAT c) Fl.PFI_STAT_STANDSTILL 1
    s.modPfi c fun x => { x with hist := [], tp := none, edges := 0, lastEdge := none }

/-- R200: a channel whose configuration changes keeps C and restarts f, T, SYNC and reference checking. -/
def pfiRestart (s : State) (c : Fin 4) : State :=
  let s := (s.jput (Reg.PFI_STAT c) Fl.PFI_STAT_FRAC 0).jput (Reg.PFI_STAT c) Fl.PFI_STAT_SYNC 0
  s.modPfi c fun x =>
    { x with hist := [], lastEdge := none, tp := none, edges := 0, zArmed := false, refPrev := none, sinceRef := 0 }

end State

end Sys2Proof.Machine
end

