-- ==== Sys2Proof/Machine/Emulator.lean ====
section
/-! DEFINITION. Encoder emulators and pass-through on Jens (chapter 6, sections 5 and 6). -/
namespace Sys2Proof.Machine

namespace State

def emu (s : State) (e : Fin 2) : Emu := s.jens.emu[e]
def setEmu (s : State) (e : Fin 2) (x : Emu) : State := { s with jens := { s.jens with emu := s.jens.emu.set e x } }

def emuN (s : State) (e : Fin 2) : Nat := s.jget (Reg.EMU_RATIO e) Fl.EMU_RATIO_N
def emuM (s : State) (e : Fin 2) : Nat := s.jget (Reg.EMU_RATIO e) Fl.EMU_RATIO_M

/-- The source channel, if SOURCE_PFI names one. -/
def emuSource (s : State) (e : Fin 2) : Option (Fin 4) :=
  let n := s.jget (Reg.EMU_CFG e) Fl.EMU_CFG_SOURCE_PFI
  if h : n < 4 then some ⟨n, h⟩ else none

def emuSourcePos (s : State) (e : Fin 2) : Nat :=
  match s.emuSource e with
  | some c => s.pfiPosition c
  | none => (s.emu e).srcPos

/-- A 64-bit integer part: T is held at its limit when L saturates (R205). -/
def emuLagMax : Int := 2 ^ 63 * 256

/-- R205: the emulator as its source's movement since the last update leaves it. The steps of the rule add up, so it is taken at once. -/
def emuMoved (s : State) (e : Fin 2) : Emu :=
  let x := s.emu e
  let pos := s.emuSourcePos e
  let a := x.acc + sdiff 40 pos x.srcPos * (s.emuN e : Int)
  let q := a.fdiv (s.emuM e)
  { x with target := x.target + q, acc := a - q * s.emuM e, srcPos := pos }

/-- L would saturate. -/
def emuSaturates (s : State) (e : Fin 2) : Bool :=
  decide (emuLagMax ≤ (((s.emuMoved e).target - 256 * (s.emu e).out).natAbs : Int))

/-- R205: T follows the source; it holds when L saturates. -/
def emuFollow (s : State) (e : Fin 2) : State :=
  if s.emuSaturates e then
    ((s.setEmu e { s.emu e with srcPos := s.emuSourcePos e }).jput (Reg.EMU_EVENT e) Fl.EMU_EVENT_LAG_SAT 1).attnBit (12 + e.val)
  else s.setEmu e (s.emuMoved e)

/-- Lag L in units of 1/256 count. -/
def emuLag (s : State) (e : Fin 2) : Int := (s.emu e).target - 256 * (s.emu e).out

/-- R210: LAG_HIGH, and what its rise sets. -/
def emuLagCheck (s : State) (e : Fin 2) : State :=
  let high := decide ((s.emuLag e).natAbs > 256 * (s.jreg (Reg.EMU_LAG_LIMIT e)).toNat)
  let was := s.jflag (Reg.EMU_STATUS e) Fl.EMU_STATUS_LAG_HIGH
  let s := s.jputFlag (Reg.EMU_STATUS e) Fl.EMU_STATUS_LAG_HIGH high
  if high && !was then (s.jput (Reg.EMU_EVENT e) Fl.EMU_EVENT_LAG_EXCEEDED 1).attnBit (12 + e.val) else s

def emuUpdate (s : State) (e : Fin 2) : State := (s.emuFollow e).emuLagCheck e

/-- Both emulators follow their sources up to the present cycle. -/
def emuUpdateAll (s : State) : State := (s.emuUpdate 0).emuUpdate 1

def emuFrozen (s : State) (e : Fin 2) : Bool := s.jflag (Reg.EMU_STATUS e) Fl.EMU_STATUS_FROZEN

/-- The phase accumulator runs up to the present cycle (R208), held below its overflow, which EMU_COUNT_EMIT takes. -/
def emuStep (r : Int) : Nat := r.natAbs * 2 ^ 32 / 500000000

def emuClamp (lo hi v : Int) : Int := max lo (min hi v)

/-- Speed of the source in units of 1 000 / 65 536 counts/s, with its direction; 0 without a source. -/
def emuSpeed (s : State) (e : Fin 2) : Int :=
  match s.emuSource e with
  | some c => if s.pfiBack c then -(s.pfiSpeed c : Int) else s.pfiSpeed c
  | none => 0

/-- R207, steps 1 and 2: rc = v + 1 000 × L over the denominator `65536 × M`. -/
def emuRcNum (s : State) (e : Fin 2) : Int := s.emuSpeed e * 1000 * s.emuN e + 1000 * s.emuLag e * 256 * s.emuM e
def emuRcDen (s : State) (e : Fin 2) : Nat := 65536 * s.emuM e

/-- R207, steps 1 to 3: the rate wanted. -/
def emuAim (s : State) (e : Fin 2) : Int :=
  let fl := (s.emuRcNum e).fdiv (s.emuRcDen e)
  let rc := if (s.emuRcNum e).fmod (s.emuRcDen e) = 0 then fl
    else if Config.emuRoundUp (s.emuRcNum e) (s.emuRcDen e) then fl + 1 else fl
  let slew : Int := s.jget (Reg.EMU_SLEW e) Fl.EMU_SLEW_SLEW
  emuClamp (-slew) slew rc

/-- R207, steps 4 and 5: the next rate. -/
def emuRamp (s : State) (e : Fin 2) : Int :=
  let was := (s.emu e).rate
  let acc : Int := s.jget (Reg.EMU_ACCEL e) Fl.EMU_ACCEL_ACCEL
  let r := was + emuClamp (-acc) acc (s.emuAim e - was)
  if (was > 0 ∧ r < 0) ∨ (was < 0 ∧ r > 0) then 0 else r

/-- The phase accumulator as it has run up to the present cycle (R208). -/
def emuRun (s : State) (e : Fin 2) : Nat := (s.emu e).phase + emuStep (s.emu e).rate * (s.clk.jts - (s.emu e).phaseTs)

/-- R207: the rate is recomputed at a whole microsecond. -/
def emuRate (s : State) (e : Fin 2) : State :=
  let s := s.emuUpdate e
  if s.emuFrozen e then s
  else s.setEmu e { s.emu e with rate := s.emuRamp e, phase := min (s.emuRun e) (2 ^ 32 - 1), phaseTs := s.clk.jts }

/-- R208: O after one more count in the direction of r, and whether that count would pass the target. -/
def emuNext (x : Emu) : Int := if x.rate > 0 then x.out + 1 else x.out - 1
def emuHeld (x : Emu) : Bool :=
  if x.rate > 0 then decide (emuNext x > x.target.fdiv 256) else decide (emuNext x < -((-x.target).fdiv 256))

/-- R208, R209: the accumulator overflows; one count is emitted unless it would pass the target. -/
def emuEmit (s : State) (e : Fin 2) : State :=
  let s := s.emuUpdate e
  let x := s.emu e
  if s.emuFrozen e || x.rate == 0 || s.emuRun e < 2 ^ 32 then s
  else if emuHeld x then s.setEmu e { x with phase := 2 ^ 32 - 1, phaseTs := s.clk.jts }
  else
    let t := s.setEmu e { x with out := emuNext x, phase := s.emuRun e % 2 ^ 32, phaseTs := s.clk.jts }
    (t.jputFlag (Reg.EMU_STATUS e) Fl.EMU_STATUS_DIR (decide (x.rate < 0))).emuLagCheck e

/-- The whole counts of the lag are dropped (R211, R212). -/
def emuDrop (s : State) (e : Fin 2) : State :=
  let s := s.emuFollow e
  let x := s.emu e
  let frac := x.target.fmod 256
  let dropped := (s.emuLag e).fdiv 256
  let s := s.setEmu e { x with target := 256 * x.out + frac }
  let n := s.jget (Reg.EMU_DISCARDED e) Fl.EMU_DISCARDED_COUNT
  let s := s.jput (Reg.EMU_DISCARDED e) Fl.EMU_DISCARDED_COUNT (min (n + dropped.natAbs) 0xFFFFFFFF)
  (s.jput (Reg.EMU_EVENT e) Fl.EMU_EVENT_RESYNCED 1).emuLagCheck e

/-- R211: fail-safe freezes the emulator. -/
def emuFreeze (s : State) (e : Fin 2) : State :=
  let s := s.emuUpdate e
  (s.setEmu e { s.emu e with rate := 0, phase := 0, phaseTs := s.clk.jts }).jput (Reg.EMU_STATUS e) Fl.EMU_STATUS_FROZEN 1

/-- R211: on leaving fail-safe the emulator runs again from r = 0. -/
def emuThaw (s : State) (e : Fin 2) : State :=
  if s.emuFrozen e then
    let s := s.jput (Reg.EMU_STATUS e) Fl.EMU_STATUS_FROZEN 0
    let s := s.emuUpdate e
    let s := s.setEmu e { s.emu e with rate := 0, phase := 0, phaseTs := s.clk.jts }
    if s.jflag (Reg.EMU_CTRL e) Fl.EMU_CTRL_FS_RESUME then s.emuDrop e else s
  else s

/-- R206: a write of N or M that takes effect sets a to 0 and keeps T and O. -/
def emuRatio (s : State) (e : Fin 2) (v : Word) : State :=
  let s := s.emuUpdate e
  let s := s.setJreg (Reg.EMU_RATIO e) v
  s.setEmu e { s.emu e with acc := 0 }

/-- R206: a COMMIT that changes SOURCE_PFI sets T to 256 × O and a to 0. -/
def emuSetSource (s : State) (e : Fin 2) (src : Nat) : State :=
  if s.jget (Reg.EMU_CFG e) Fl.EMU_CFG_SOURCE_PFI = src then s
  else
    let s := s.jput (Reg.EMU_CFG e) Fl.EMU_CFG_SOURCE_PFI src
    let x := s.emu e
    s.setEmu e { x with target := 256 * x.out, acc := 0, srcPos := s.emuSourcePos e }

/-- Levels of an emulator's A, B and Z pins (R209). -/
def emuPins (s : State) (e : Fin 2) : Bool × Bool × Bool :=
  let o := (s.emu e).out
  let m := o.emod 4
  let zp := (s.jreg (Reg.EMU_ZPERIOD e)).toNat
  (m == 1 || m == 2, m == 2 || m == 3, zp != 0 && o.emod zp == 0)

/-- Levels of a pass-through output's A, B and Z pins (R213). DEDUCED, log entry 120. -/
def passPins (s : State) (p : Fin 2) : Bool × Bool × Bool :=
  let n := s.jget (Reg.PAS_CFG p) Fl.PAS_CFG_SOURCE_PFI
  if h : n < 4 then ((s.pfi ⟨n, h⟩).a, (s.pfi ⟨n, h⟩).b, (s.pfi ⟨n, h⟩).z) else (false, false, false)

end State

end Sys2Proof.Machine
end

