-- ==== Sys2Proof/Machine/Gates.lean ====
section
/-! DEFINITION. Gate predrivers on Jens (chapter 7, sections 1 to 4): scheduling, phases, the shared high side, overcurrent. -/
namespace Sys2Proof.Machine

namespace State

/-- The pair a GLS belongs to, and its partner (section 1.1 of chapter 7). -/
def glsPair (j : Fin 8) : Fin 4 := ⟨j.val / 2, by omega⟩
def glsPartner (j : Fin 8) : Fin 8 := ⟨if j.val % 2 = 0 then j.val + 1 else j.val - 1, by split <;> omega⟩

def active (s : State) (j : Fin 8) : Option Active := s.jens.active[j]
def setActive (s : State) (j : Fin 8) (a : Option Active) : State := { s with jens := { s.jens with active := s.jens.active.set j a } }
def setFirings (s : State) (l : List Firing) : State := { s with jens := { s.jens with firings := l } }

def inPeak (s : State) (j : Fin 8) : Bool :=
  match s.active j with
  | some a => !a.inHold
  | none => false

def glsDeferred (s : State) (j : Fin 8) : Bool := s.jens.firings.any fun f => f.gls == j && f.deadline.isSome

/-- GLSj_STATUS.PHASE (R215, R221). -/
def glsPhase (s : State) (j : Fin 8) : Nat :=
  match s.active j with
  | some a => if a.inHold then 2 else 1
  | none => if s.glsDeferred j then 3 else 0

/-- GHSk is on while either GLS of its pair is in PEAK or HOLD (R215). -/
def ghsOn (s : State) (k : Fin 4) : Bool :=
  (s.active ⟨2 * k.val, by omega⟩).isSome || (s.active ⟨2 * k.val + 1, by omega⟩).isSome

/-- R220: level of a GLS in the present cycle. -/
def glsOn (s : State) (j : Fin 8) : Bool :=
  match s.active j with
  | none => false
  | some a =>
    if a.inHold then
      let f := s.jget (Reg.GHS_CFG (glsPair j)) Fl.GHS_CFG_PWM_FREQ_HZ
      let p := 500000000 / f
      let h := p * a.holdEff / 256
      let c := s.clk.jts % p
      let start := if j.val % 2 = 0 then 0 else p / 2
      decide ((c + p - start) % p < h)
    else true

/-- The outcomes of GATE_STATE (Table 7-6). -/
inductive GateOutcome
  | pending | deferred | fired | firedLate | dropLate | dropDefer | dropOc | dropFull | dropDup | dropFlush | dropFailsafe
  deriving DecidableEq, Repr

def GateOutcome.code : GateOutcome → Nat
  | .pending => 1 | .deferred => 2 | .fired => 3 | .firedLate => 4 | .dropLate => 5 | .dropDefer => 6
  | .dropOc => 7 | .dropFull => 8 | .dropDup => 9 | .dropFlush => 10 | .dropFailsafe => 11

def setOutcome (s : State) (tref : Nat) (o : GateOutcome) : State := s.jput (Reg.GATE_STATE tref) Fl.GATE_STATE_OUTCOME o.code

/-- The outcome of a firing, in GATE_STATE while that still records its command (R225). -/
def recordOutcome (s : State) (f : Firing) (o : GateOutcome) : State := if f.recorded then s.setOutcome f.tref o else s

/-- The counts and attention bits of a drop (R222, R224, R226, R240). -/
def countDrop (s : State) (j : Fin 8) (o : GateOutcome) : State :=
  let s := s.jput (Reg.GLS_EVENT j) Fl.GLS_EVENT_DROPPED 1
  match o with
  | .dropLate => (s.jbump (Reg.GLS_DROP j) Fl.GLS_DROP_LATE).attnBit 21
  | .dropOc => (s.jbump (Reg.GLS_DROP j) Fl.GLS_DROP_OC).attnBit 21
  | .dropFull =>
    ((s.jbump (Reg.GLS_DROP j) Fl.GLS_DROP_FULL_DUP).jbump Reg.GATE_SCHED Fl.GATE_SCHED_FULL).attnBit 21
  | .dropDup => (s.jbump (Reg.GLS_DROP j) Fl.GLS_DROP_FULL_DUP).attnBit 21
  | .dropDefer =>
    let k := glsPair j
    ((s.jbump (Reg.GHS_CNT k) Fl.GHS_CNT_DEFER_DROP).jput (Reg.GHS_EVENT k) Fl.GHS_EVENT_DEFER_DROP 1).attnBit 20
  | .dropFlush | .dropFailsafe => s.jbump (Reg.GLS_DROP j) Fl.GLS_DROP_FLUSH_FS
  | _ => s

def dropFiring (s : State) (f : Firing) (o : GateOutcome) : State := (s.recordOutcome f o).countDrop f.gls o

/-- Drop every firing `p` picks, with outcome `o`. -/
def dropWhere (s : State) (p : Firing → Bool) (o : GateOutcome) : State :=
  let gone := s.jens.firings.filter p
  gone.foldl (fun s f => s.dropFiring f o) (s.setFirings (s.jens.firings.filter (!p ·)))

/-- R226: SCLK cycles a firing may wait. -/
def deferLimit (s : State) (j : Fin 8) : Nat := 500 * s.jget (Reg.GHS_CFG (glsPair j)) Fl.GHS_CFG_MAX_DEFERRAL_US

/-- R228: a retrigger of `j` moves the end of its peak; the partner's deferred firings whose deadline it passes are dropped. -/
def recheckDeferred (s : State) (j : Fin 8) (peakEnd : Nat) : State :=
  s.dropWhere (fun f => f.gls == glsPartner j && (match f.deadline with | some d => decide (d < peakEnd) | none => false)) .dropDefer

/-- R216, R221: the program a firing starts in cycle `now`: peak and hold duty scaled and held within their limits. -/
def programOf (s : State) (f : Firing) (now : Nat) : Active :=
  let lim := fun fl => s.jget (Reg.GLS_LIMIT f.gls) fl
  let peakEff := min (lim Fl.GLS_LIMIT_PEAK_MAX)
    (max (lim Fl.GLS_LIMIT_PEAK_MIN) (f.peakTime * s.jget (Reg.GLS_SCALE f.gls) Fl.GLS_SCALE_PEAK_SCALE / 128))
  let holdEff := min (lim Fl.GLS_LIMIT_HOLD_DUTY_MAX) (f.holdDuty * s.jget (Reg.GLS_SCALE f.gls) Fl.GLS_SCALE_HOLD_SCALE / 128)
  ⟨f.tref, now + 50000 * peakEff, 500 * f.holdUs, holdEff, false⟩

/-- R230: comparator blanking of the pair from cycle `now`. -/
def blankFrom (s : State) (k : Fin 4) (now : Nat) : State :=
  s.modJens fun j => { j with blankEnd := j.blankEnd.set k (now + 500 * s.jget (Reg.GHS_BLANK k) Fl.GHS_BLANK_BLANK_US) }

/-- The registers that show a start (R221, R229, R240). -/
def startCounts (s : State) (f : Firing) (retrigger : Bool) : State :=
  let j := f.gls
  let s := s.jput (Reg.GHS_ISNS (glsPair j)) Fl.GHS_ISNS_PEAK 0
  let s := s.jput (Reg.GLS_STATUS j) Fl.GLS_STATUS_LAST_TREF f.tref
  let s := s.jwrap (Reg.GLS_CNT j) Fl.GLS_CNT_FIRED 1
  let s := if f.late then s.jbump (Reg.GLS_CNT j) Fl.GLS_CNT_LATE else s
  let s := if retrigger then s.jbump (Reg.GLS_CNT j) Fl.GLS_CNT_RETRIGGER else s
  s.jput (Reg.GLS_EVENT j) Fl.GLS_EVENT_FIRED 1

/-- R216, R221: the firing starts its peak in cycle `now`, ending the program in progress. -/
def startPeak (s : State) (f : Firing) (now : Nat) : State :=
  let a := s.programOf f now
  let retrigger := (s.active f.gls).isSome
  let s := ((s.setActive f.gls (some a)).recordOutcome f (if f.late then .firedLate else .fired)).blankFrom (glsPair f.gls) now
  let s := s.startCounts f retrigger
  if retrigger then s.recheckDeferred f.gls a.peakEnd else s

/-- Integer count of a position channel. -/
def chanCount (s : State) (c : Nat) : Nat := if h : c < 4 then s.pfiCount ⟨c, h⟩ else 0

/-- R218, R219: a pending firing is due. -/
def firingDue (s : State) (f : Firing) : Bool :=
  f.deadline.isNone && (f.late || decide (0 ≤ sdiff 32 (s.chanCount f.chan) f.fp))

/-- The due firing of GLS `j` with the lowest fire position (R222). -/
def nextDue (s : State) (j : Fin 8) : Option Firing :=
  (s.jens.firings.filter fun f => f.gls == j && s.firingDue f).foldl
    (fun b f => match b with
      | none => some f
      | some g => if sdiff 32 f.fp g.fp < 0 then some f else some g) none

/-- R218, R226: the due firing of GLS `j` enters PEAK or DEFERRED, or is dropped. -/
def fireDue (s : State) (j : Fin 8) : State :=
  match s.nextDue j with
  | none => s
  | some f =>
    let now := s.clk.jts
    let rest := s.jens.firings.erase f
    let peak := match s.active (glsPartner j) with
      | some a => if !a.inHold && now < a.peakEnd then some a.peakEnd else none
      | none => none
    match peak with
    | none => (s.setFirings rest).startPeak f now
    | some e =>
      if e - now ≤ s.deferLimit j then
        let s := s.setFirings (rest ++ [{ f with deadline := some (now + s.deferLimit j) }])
        let s := s.recordOutcome f .deferred
        (s.jbump (Reg.GHS_CNT (glsPair j)) Fl.GHS_CNT_DEFERRED).jput (Reg.GLS_EVENT j) Fl.GLS_EVENT_DEFERRED 1
      else (s.setFirings rest).dropFiring f .dropDefer

/-- R227: of two firings of a pair due in one cycle, the even GLS starts first. -/
def gateFire (s : State) (j : Fin 8) : State :=
  if j.val % 2 = 1 then (s.fireDue (glsPartner j)).fireDue j else s.fireDue j

/-- R226, R530: the peak of `j` has ended in cycle `e`; the partner's deferred firings start one per cycle, those past their deadline are
dropped. -/
def startDeferred (s : State) (l : List Firing) (e : Nat) : State :=
  match l with
  | [] => s
  | f :: r =>
    let s := s.setFirings (s.jens.firings.erase f)
    match f.deadline with
    | some d => if d < e then (s.dropFiring f .dropDefer).startDeferred r e else (s.startPeak f e).startDeferred r (e + 1)
    | none => s.startDeferred r e

def peakEnd (s : State) (j : Fin 8) : State :=
  match s.active j with
  | none => s
  | some a =>
    if a.inHold || s.clk.jts < a.peakEnd then s
    else
      let s := s.setActive j (if a.holdEff = 0 ∨ a.holdLen = 0 then none else some { a with inHold := true })
      s.startDeferred (s.jens.firings.filter fun f => f.gls == glsPartner j && f.deadline.isSome) a.peakEnd

/-- The hold has lasted HOLD_TIME_US: the GLS returns to IDLE (R216, R220). -/
def holdEnd (s : State) (j : Fin 8) : State :=
  match s.active j with
  | none => s
  | some a => if a.inHold && a.peakEnd + a.holdLen ≤ s.clk.jts then s.setActive j none else s

/-- R223: GATE_FLUSH. -/
def gateFlush (s : State) (mask : Nat) : State :=
  s.dropWhere (fun f => mask.testBit f.gls.val) .dropFlush

def ocLatched (s : State) (k : Fin 4) : Bool := s.jflag (Reg.GHS_STATUS k) Fl.GHS_STATUS_OC_LATCHED

/-- R230: a PEAK or HOLD of the pair is ended by overcurrent. -/
def ocAbort (s : State) (j : Fin 8) : State :=
  if (s.active j).isSome then
    ((s.setActive j none).jbump (Reg.GLS_DROP j) Fl.GLS_DROP_OC).jput (Reg.GLS_EVENT j) Fl.GLS_EVENT_DROPPED 1
  else s

/-- R230: ISNSk has stood above the threshold for 1 µs outside blanking. -/
def overcurrent (s : State) (k : Fin 4) : State :=
  let lim := s.jget (Reg.GHS_SENSE k) Fl.GHS_SENSE_ISNS_LIMIT_MA
  let scale := s.jget (Reg.GHS_SENSE k) Fl.GHS_SENSE_ISNS_SCALE
  if lim = 0 ∨ scale ≤ lim ∨ s.clk.jts < s.jens.blankEnd[k] then s
  else
    let e : Fin 8 := ⟨2 * k.val, by omega⟩
    let o : Fin 8 := ⟨2 * k.val + 1, by omega⟩
    let s := (s.ocAbort e).ocAbort o
    let s := s.dropWhere (fun f => glsPair f.gls == k && f.deadline.isSome) .dropOc
    let s := s.jput (Reg.GHS_STATUS k) Fl.GHS_STATUS_OC_LATCHED 1
    (s.jput (Reg.GHS_EVENT k) Fl.GHS_EVENT_OC 1).attnBit (16 + k.val)

/-- R231: OC_CLEAR, with ISNSk below the threshold or not in that cycle. -/
def ocClear (s : State) (k : Fin 4) (below : Bool) : State :=
  if below then s.jput (Reg.GHS_STATUS k) Fl.GHS_STATUS_OC_LATCHED 0
  else s.jput (Reg.GHS_EVENT k) Fl.GHS_EVENT_OC_CLEAR_FAIL 1

/-- R229, R510: a sample of ISNSk, given in microvolts at the pad. -/
def isnsSample (s : State) (k : Fin 4) (uv : Nat) : State :=
  let code := if 2500000 ≤ uv then 1023 else 1023 * uv / 2500000
  let ma := code * s.jget (Reg.GHS_SENSE k) Fl.GHS_SENSE_ISNS_SCALE / 1023
  let s := s.jput (Reg.GHS_ISNS k) Fl.GHS_ISNS_NOW ma
  if s.inPeak ⟨2 * k.val, by omega⟩ || s.inPeak ⟨2 * k.val + 1, by omega⟩
  then s.jput (Reg.GHS_ISNS k) Fl.GHS_ISNS_PEAK (max ma (s.jget (Reg.GHS_ISNS k) Fl.GHS_ISNS_PEAK)) else s

/-- R224: fail-safe discards every firing and ends every peak and hold; it clears the overcurrent latches (R231). -/
def gatesFailsafe (s : State) : State :=
  let s := s.dropWhere (fun _ => true) .dropFailsafe
  let s := (List.finRange 8).foldl (fun s j =>
      if (s.active j).isSome then
        ((s.setActive j none).jbump (Reg.GLS_DROP j) Fl.GLS_DROP_FLUSH_FS).jput (Reg.GLS_EVENT j) Fl.GLS_EVENT_DROPPED 1
      else s) s
  (List.finRange 4).foldl (fun s k => s.jput (Reg.GHS_STATUS k.val) Fl.GHS_STATUS_OC_LATCHED 0) s

/-! ## Commands from Nahar (R163, R164, R219, R222, R225) -/

def gateByte (s : State) (a : Nat) : Nat := (cellsGet (fun _ => (0 : Byte)) s.jens.gateTable a).toNat
def gateU32 (s : State) (a : Nat) : Nat :=
  s.gateByte a + 2 ^ 8 * s.gateByte (a + 1) + 2 ^ 16 * s.gateByte (a + 2) + 2 ^ 24 * s.gateByte (a + 3)

/-- Field address of gate-program entry 65 × v + p (R161). -/
def gateEntry (v p : Nat) : Nat := 0x8000 + 16 * (65 * v + p)

def stageEntry (s : State) (tref : Nat) : Option StageEntry := s.jens.staging.find? (·.tref == tref)

/-- R163: Jens records a staging entry; it replaces the entry of its TREF. -/
def stageRecord (s : State) (e : StageEntry) : State :=
  ({ s with jens := { s.jens with staging := e :: s.jens.staging.filter (·.tref != e.tref) } }).jput
    (Reg.GATE_STATE e.tref) Fl.GATE_STATE_STAGED 1

/-- R222, R219: the tests of an accepted command; fail-safe discards it (Table 5-10). -/
def commandOutcome (s : State) (f : Firing) : GateOutcome :=
  let late := sdiff 32 (s.chanCount f.chan) f.fp
  if s.jflag Reg.MIR_STATE Fl.MIR_STATE_FAILSAFE then .dropFailsafe
  else if 64 ≤ s.jens.firings.length then .dropFull
  else if s.ocLatched (glsPair f.gls) then .dropOc
  else if s.jens.firings.any (fun g => g.gls == f.gls && g.fp == f.fp) then .dropDup
  else if 0 ≤ late then
    if late ≤ s.jget (Reg.GLS_LATE_TOL f.gls) Fl.GLS_LATE_TOL_COUNTS then .firedLate else .dropLate
  else .pending

/-- R164: an intact gate command. -/
def gateCommand (s : State) (tref prog : Nat) : State :=
  match s.stageEntry tref with
  | none => s
  | some e =>
    if e.consumed then s
    else
      let a := gateEntry e.verdict prog
      let g := s.gateByte a
      let s := s.modJens fun j => { j with staging := j.staging.map fun x => if x.tref == tref then { x with consumed := true } else x }
      if h : g < 8 then
        let f : Firing := ⟨tref, ⟨g, h⟩, s.gateByte (a + 1), s.gateByte (a + 2), s.gateU32 (a + 8),
          (e.lep + s.gateU32 (a + 4)) % 2 ^ 32, e.chan, false, true, none⟩
        let o := s.commandOutcome f
        let s := s.setFirings (s.jens.firings.map fun x => if x.tref == tref then { x with recorded := false } else x)
        let s := (s.jput (Reg.GATE_STATE tref) Fl.GATE_STATE_PROG prog).jput (Reg.GATE_STATE tref) Fl.GATE_STATE_GLS g
        match o with
        | .pending => (s.setFirings (s.jens.firings ++ [f])).setOutcome tref .pending
        | .firedLate => (s.setFirings (s.jens.firings ++ [{ f with late := true }])).setOutcome tref .pending
        | o => s.dropFiring f o
      else s

end State

end Sys2Proof.Machine
end

