-- ==== Sys2Proof/Machine/Fsp.lean ====
section
/-! DEFINITION. Field serial port on Jens (chapter 7, section 5). -/
namespace Sys2Proof.Machine

namespace State

def failsafe (s : State) : Bool := s.jflag Reg.MIR_STATE Fl.MIR_STATE_FAILSAFE

def setFsp (s : State) (x : Fsp) : State := { s with jens := { s.jens with fsp := x } }
def setJserRx (s : State) (l : List Byte) : State := { s with jens := { s.jens with serRx := l } }
def setJserTx (s : State) (l : List Byte) : State := { s with jens := { s.jens with serTx := l } }

def fspRole (s : State) : Nat := s.jget Reg.FSP_CFG Fl.FSP_CFG_ROLE
def fspActive (s : State) : Bool := s.jflag Reg.FSP_STATUS Fl.FSP_STATUS_ACTIVE
/-- Fields of FSP_FRAME as latched for the frame in progress (R232). -/
def fspLen (s : State) : Nat := getF s.jens.fsp.frame Fl.FSP_FRAME_FRAME_LEN
def fspRx (s : State) : Bool := getF s.jens.fsp.frame Fl.FSP_FRAME_RX_ENABLE != 0

/-- A count of FSP_ERR rises (R240). -/
def fspError (s : State) (f : Fld) : State :=
  ((s.jbump Reg.FSP_ERR f).jput Reg.FSP_EVENT Fl.FSP_EVENT_ERR 1).attnBit 22

/-- FSCS_N rises: a frame has ended (R233, R234, R237). -/
def fspFrameEnd (s : State) : State :=
  let s := (s.jput Reg.FSP_STATUS Fl.FSP_STATUS_ACTIVE 0).jput Reg.FSP_STATUS Fl.FSP_STATUS_WAIT 0
  (s.jwrap Reg.FSP_FRAMES Fl.FSP_FRAMES_COUNT 1).jput Reg.FSP_EVENT Fl.FSP_EVENT_FRAME_END 1

/-- R233: master clock divider and the frequency in effect, in kHz. -/
def fspDivider (khz : Nat) : Nat := 2 * ((250000 + khz - 1) / khz)

/-- The settings take effect while FSCS_N is high (R232). -/
def fspLatch (s : State) : State :=
  let s := s.setFsp { s.jens.fsp with cfg := s.jreg Reg.FSP_CFG, frame := s.jreg Reg.FSP_FRAME }
  s.jput Reg.FSP_STATUS Fl.FSP_STATUS_CLK_KHZ (500000 / fspDivider (s.jget Reg.FSP_CFG Fl.FSP_CFG_CLK_KHZ))

/-- R235: the master holds at a word boundary because the transmit FIFO has no room. -/
def fspWait (s : State) : State :=
  s.jputFlag Reg.FSP_STATUS Fl.FSP_STATUS_WAIT
    (s.fspActive && s.fspLen == 0 && !s.jens.serRx.isEmpty && s.fspRx && decide (64 ≤ s.jens.serTx.length))

/-- R234: a master frame starts. -/
def fspFrameStart (s : State) : State :=
  if s.fspRole ≠ 1 ∨ s.fspActive ∨ s.failsafe then s
  else
    let len := s.jget Reg.FSP_FRAME Fl.FSP_FRAME_FRAME_LEN
    let rxEn := s.jflag Reg.FSP_FRAME Fl.FSP_FRAME_RX_ENABLE
    let ready := if len = 0 then !s.jens.serRx.isEmpty
      else decide (len ≤ s.jens.serRx.length) && (!rxEn || decide (s.jens.serTx.length + len ≤ 64))
    if ready then
      let s := s.fspLatch
      ((s.setFsp { s.jens.fsp with wordsLeft := len }).jput Reg.FSP_STATUS Fl.FSP_STATUS_ACTIVE 1).fspWait
    else s

/-- R234, R235: a master word completes, with the byte shifted in. -/
def fspMasterWord (s : State) (rx : Byte) : State :=
  match s.jens.serRx with
  | [] => s
  | b :: rest =>
    if s.fspRole ≠ 1 ∨ !s.fspActive ∨ (s.fspRx ∧ 64 ≤ s.jens.serTx.length) then s
    else
      let s := (s.setJserRx rest).setFsp { s.jens.fsp with shift := b, fromFifo := true }
      let s := if s.fspRx then s.setJserTx (s.jens.serTx ++ [rx]) else s
      if s.fspLen = 0 then s.fspWait
      else
        let s := s.setFsp { s.jens.fsp with wordsLeft := s.jens.fsp.wordsLeft - 1 }
        if s.jens.fsp.wordsLeft = 0 then s.fspFrameEnd else s

/-- R234: no byte has arrived for CS_GAP word times. -/
def fspGap (s : State) : State :=
  if s.fspRole = 1 ∧ s.fspActive ∧ s.fspLen = 0 ∧ s.jens.serRx.isEmpty then s.fspFrameEnd else s

/-- R236: the byte the next slave word shifts out. DEDUCED, log entry 78. -/
def fspChoose (s : State) : State :=
  match s.jens.serRx with
  | b :: _ => s.setFsp { s.jens.fsp with shift := b, fromFifo := true }
  | [] => s.setFsp { s.jens.fsp with shift := BitVec.ofNat 8 (getF s.jens.fsp.frame Fl.FSP_FRAME_FILL), fromFifo := false }

/-- The external device asserts FSCS_N; in fail-safe the port ignores FSCK until it has risen again (R239). DEDUCED, log entry 109. -/
def fspSelect (s : State) : State :=
  if s.fspRole ≠ 2 ∨ s.fspActive then s
  else
    let s := s.fspLatch
    ((s.setFsp { s.jens.fsp with deaf := s.failsafe }).fspChoose).jput Reg.FSP_STATUS Fl.FSP_STATUS_ACTIVE 1

/-- R236, R237: a slave word completes. -/
def fspSlaveWord (s : State) (rx : Byte) : State :=
  if s.fspRole ≠ 2 ∨ !s.fspActive ∨ s.failsafe ∨ s.jens.fsp.deaf then s
  else
    let s := if s.jens.fsp.fromFifo then s.setJserRx (s.jens.serRx.drop 1) else s.fspError Fl.FSP_ERR_UNDERRUN
    let s := if !s.fspRx then s
      else if s.jens.serTx.length < 64 then s.setJserTx (s.jens.serTx ++ [rx]) else s.fspError Fl.FSP_ERR_OVERRUN
    s.fspChoose

/-- R237, R238: FSCS_N rises after `bits` sampling edges of an incomplete word. -/
def fspDeselect (s : State) (bits : Nat) : State :=
  if s.fspRole ≠ 2 ∨ !s.fspActive then s
  else
    let s := if bits = 0 ∨ s.failsafe ∨ s.jens.fsp.deaf then s
      else
        let s := s.fspError Fl.FSP_ERR_PARTIAL
        if s.jens.fsp.fromFifo then (s.setJserRx (s.jens.serRx.drop 1)).fspError Fl.FSP_ERR_TX_PARTIAL
        else s.fspError Fl.FSP_ERR_UNDERRUN
    s.fspFrameEnd

/-- R239: a master raises FSCS_N after the word in progress; a slave ignores FSCK until it has been deselected. -/
def fspFailsafe (s : State) : State :=
  if s.fspRole = 1 then (s.jput Reg.FSP_STATUS Fl.FSP_STATUS_ACTIVE 0).jput Reg.FSP_STATUS Fl.FSP_STATUS_WAIT 0
  else s.setFsp { s.jens.fsp with deaf := true }

end State

end Sys2Proof.Machine
end

