-- ==== Sys2Proof/Machine/Zhombe.lean ====
section
/-! DEFINITION. The Zhombe lines on Jens (chapter 8). -/
namespace Sys2Proof.Machine

/-! ## Frames (sections 2 and 3) -/

/-- One byte through a CRC-8 without reflection, most significant bit first. -/
def crc8Byte (poly : Nat) (crc b : Nat) : Nat :=
  (List.range 8).foldl (fun c _ => if 128 ≤ c then (c * 2 % 256) ^^^ poly else c * 2) (crc ^^^ b)

/-- CRC-8 over bytes. -/
def crc8 (poly init : Nat) (l : List Nat) : Nat := l.foldl (crc8Byte poly) init

/-- R248: nibbles packed two to a byte, first nibble high, an odd one filled with 0. -/
def packNibbles : List Nat → List Nat
  | [] => []
  | [a] => [16 * a]
  | a :: b :: r => (16 * a + b) :: packNibbles r

def zlCrc (nibbles : List Nat) : Nat := crc8 0x07 0 (packNibbles nibbles)

/-- R246: the nibbles of a frame, CRC included. -/
def zlFrame (addr cmd : Nat) (data : List Nat) : List Nat :=
  let body := [addr / 16 % 16, addr % 16, cmd % 16, data.length % 16] ++ data
  body ++ [zlCrc body / 16, zlCrc body % 16]

/-- R244: one period decoded against P_cal; `none` is a symbol error. -/
def zlNibble (pcal p : Nat) : Option Nat :=
  let v := (144 * (p : Int) - 21 * pcal).fdiv (6 * pcal)
  if 0 ≤ v ∧ v ≤ 15 ∧ 5 * (72 * (p : Int) - (12 + 3 * v) * pcal).natAbs ≤ 6 * pcal then some v.toNat else none

/-- A decoded frame. -/
structure ZlFrame where
  addr : Nat
  cmd : Nat
  data : List Nat
  deriving DecidableEq, Repr

/-- What a reply decodes to. -/
inductive ZlDecode
  | frame (f : ZlFrame)
  | symbol
  | crc
  deriving DecidableEq, Repr

/-- R244, R246, R248, R252: periods and low widths of a frame, in SCLK cycles; the first period is CAL. -/
def zlDecode (periods lows : List Nat) : ZlDecode :=
  match periods with
  | [] => .symbol
  | pcal :: ps =>
    if pcal < 25200 ∨ 46800 < pcal ∨ lows.any (fun l => 72 * l < 2 * pcal || 8 * pcal < 72 * l) then .symbol
    else match ps.mapM (zlNibble pcal) with
      | none => .symbol
      | some ns =>
        match ns with
        | a :: b :: c :: n :: rest =>
          if rest.length ≠ n + 2 then .symbol
          else
            let body := [a, b, c, n] ++ rest.take n
            let crc := zlCrc body
            if rest.drop n = [crc / 16, crc % 16] then .frame ⟨16 * a + b, c, rest.take n⟩ else .crc
        | _ => .symbol

/-- Reply length that Table 8-5 gives. -/
def zlReplyLen (cmd : Nat) : Nat := if cmd = 1 then 14 else if cmd = 2 ∨ cmd = 3 then 5 else 1

/-- LEN of a host frame that Table 8-5 gives. -/
def zlSendLen (cmd : Nat) : Nat := if cmd = 4 then 6 else if cmd = 2 ∨ cmd = 3 then 2 else 0

/-- Result of a search pass (R258). -/
inductive ZlPass
  | empty
  | failed
  | found (fn : Nat)
  deriving DecidableEq, Repr

/-- R257, R258: bits from 47 down; each step gives whether R0 and R1 read low. -/
def zlSearch : Nat → Nat → List (Bool × Bool) → ZlPass
  | 0, fn, _ => .found fn
  | n + 1, _, [] => if n = 47 then .empty else .failed
  | n + 1, fn, (z, o) :: r =>
    if !z && !o then (if n = 47 then .empty else .failed)
    else zlSearch n (2 * fn + ofBool (!z)) r

namespace State

def zl (s : State) (l : Fin 2) : ZlLine := s.jens.zl[l]
def setZl (s : State) (l : Fin 2) (x : ZlLine) : State := { s with jens := { s.jens with zl := s.jens.zl.set l x } }
def modZl (s : State) (l : Fin 2) (f : ZlLine → ZlLine) : State := s.setZl l (f (s.zl l))

def zlState (s : State) (l : Fin 2) : Nat := s.jget (Reg.ZL_STATUS l) Fl.ZL_STATUS_STATE
def setZlState (s : State) (l : Fin 2) (v : Nat) : State := s.jput (Reg.ZL_STATUS l) Fl.ZL_STATUS_STATE v
def zlRunning (s : State) (l : Fin 2) : Bool := s.zlState l == 2 || s.zlState l == 3

/-! ## Events to Nahar (R181, R182) -/

/-- R182: an event enters the queue of eight, or is dropped. -/
def queueZev (s : State) (v : Nat) : State :=
  if s.failsafe then s
  else if s.jens.zevQ.length < 8 then
    s.modJens fun j => { j with zevQ := j.zevQ ++ [v + 128 * ofBool (!j.zevToggle)], zevToggle := !j.zevToggle }
  else s.attnBit 0

/-- R267, R276: bit `c` of ZLl_EVENT with its line status event and attention bit. -/
def zlEvent (s : State) (l : Fin 2) (c : Nat) : State :=
  let s := s.jsetBit (Reg.ZL_EVENT l) ⟨0, 10⟩ c
  let s := if c < 8 then s.queueZev (c + 32 * l.val + 64) else s
  if [2, 3, 4, 5, 6].contains c then s.attnBit (24 + l.val) else s

def zlError (s : State) (l : Fin 2) (f : Fld) : State := (s.jbump (Reg.ZL_ERR l) f).zlEvent l 9

/-! ## Node records -/

def nodeFn (s : State) (l : Fin 2) (a : Nat) : Nat :=
  (s.jreg (Reg.ZL_NODE_LO l a)).toNat + 2 ^ 32 * s.jget (Reg.ZL_NODE_HI l a) Fl.ZL_NODE_HI_FN_HI
def nodeValid (s : State) (l : Fin 2) (a : Nat) : Bool := s.jflag (Reg.ZL_NODE_HI l a) Fl.ZL_NODE_HI_VALID
def nodeListed (s : State) (l : Fin 2) (a : Nat) : Bool := s.jflag (Reg.ZL_NODE_HI l a) Fl.ZL_NODE_HI_LISTED
def boundAddrs (s : State) (l : Fin 2) : List Nat := (List.range 24).filter fun a => s.nodeValid l a

def setNode (s : State) (l : Fin 2) (a fn role : Nat) (valid present listed : Bool) : State :=
  let hi := fn / 2 ^ 32 % 2 ^ 16 + 2 ^ 16 * (role % 8) + 2 ^ 24 * ofBool valid + 2 ^ 25 * ofBool present + 2 ^ 26 * ofBool listed
  let s := (s.setJreg (Reg.ZL_NODE_LO l a) (BitVec.ofNat 32 fn)).setJreg (Reg.ZL_NODE_HI l a) (BitVec.ofNat 32 hi)
  let s := if present then s.jsetBit (Reg.ZL_PRESENT l) Fl.ZL_PRESENT_PRESENT a
    else s.jclearBit (Reg.ZL_PRESENT l) Fl.ZL_PRESENT_PRESENT a
  s.jput (Reg.ZL_STATUS l) Fl.ZL_STATUS_BOUND (s.boundAddrs l).length

/-- R268: the PRESENT bit of an address. -/
def setPresent (s : State) (l : Fin 2) (a : Nat) (b : Bool) : State :=
  let s := s.jputFlag (Reg.ZL_NODE_HI l a) Fl.ZL_NODE_HI_PRESENT b
  if b then s.jsetBit (Reg.ZL_PRESENT l) Fl.ZL_PRESENT_PRESENT a else s.jclearBit (Reg.ZL_PRESENT l) Fl.ZL_PRESENT_PRESENT a

/-- A node is treated as missing (R268). -/
def nodeMissing (s : State) (l : Fin 2) (a : Nat) : State := (s.setPresent l a false).zlEvent l 2

/-! ## Discovery (section 5) -/

def zlSend (s : State) (l : Fin 2) (addr cmd : Nat) (data : List Nat) : State :=
  s.modZl l fun z => { z with lastFrame := zlFrame addr cmd data }

/-- R261, steps 1 and 2 of a full discovery, and the start of either kind. -/
def startDiscovery (s : State) (l : Fin 2) (full : Bool) : State :=
  let s := s.modZl l fun z => { z with discovery := some full, passFails := 0 }
  let s := s.jputFlag (Reg.ZL_STATUS l) Fl.ZL_STATUS_INCR (!full)
  if full then
    let s := (s.zlSend l 0xFF 0xF []).setZlState l 2
    let s := (List.range 24).foldl (fun s a => s.setNode l a 0 0 false false false) s
    (s.zl l).listed.foldl (fun s n => s.setNode l n.addr n.fn n.role false false true) s
  else s

/-- R262: a discovery is asked for; it is held while one runs. -/
def requestDiscovery (s : State) (l : Fin 2) (full : Bool) : State :=
  match (s.zl l).discovery with
  | some _ => s.modZl l fun z => { z with heldReq := some (full || z.heldReq == some true) }
  | none => s.startDiscovery l full

/-- R261: the discovery ends; each listed node not found is reported MISSING. -/
def endDiscovery (s : State) (l : Fin 2) : State :=
  let s := s.zlSend l 0xFF 0x7 [1]
  let s := s.modZl l fun z => { z with discovery := none, passFails := 0 }
  let s := s.jput (Reg.ZL_STATUS l) Fl.ZL_STATUS_INCR 0
  let s := if s.zlState l = 2 then s.setZlState l 3 else s
  let s := s.zlEvent l 0
  let s := ((List.range 24).filter fun a => s.nodeListed l a && !s.nodeValid l a).foldl (fun s a => s.nodeMissing l a) s
  match (s.zl l).heldReq with
  | some full => (s.modZl l fun z => { z with heldReq := none }).startDiscovery l full
  | none => s

/-- R260: a search pass has failed. -/
def passFailed (s : State) (l : Fin 2) : State :=
  if 2 ≤ (s.zl l).passFails then (s.zlEvent l 5).endDiscovery l
  else s.modZl l fun z => { z with passFails := z.passFails + 1 }

/-- Table 8-6: the address a selected node is given; 0xFD makes it QUIET. -/
def assignAddr (s : State) (l : Fin 2) (fn : Nat) : Nat :=
  match (s.zl l).listed with
  | [] =>
    match (List.range 24).find? fun a => s.nodeValid l a && s.nodeFn l a == fn with
    | some a => a
    | none => ((List.range 24).find? fun a => !s.nodeValid l a).getD 0xFD
  | ns => ((ns.find? (·.fn == fn)).map (·.addr)).getD 0xFD

/-- ASSIGN was answered: the binding is recorded (R259). -/
def bindNode (s : State) (l : Fin 2) (fn addr : Nat) : State :=
  let s := s.modZl l fun z => { z with passFails := 0 }
  if addr = 0xFD then
    if (s.zl l).listed.isEmpty then s.zlEvent l 4
    else
      let s := (s.setJreg (Reg.ZL_UNLISTED_LO l) (BitVec.ofNat 32 fn)).setJreg (Reg.ZL_UNLISTED_HI l) (BitVec.ofNat 32 (fn / 2 ^ 32 % 2 ^ 16))
      s.zlEvent l 3
  else
    let n := (s.zl l).listed.find? (·.addr == addr)
    s.setNode l addr fn ((n.map (·.role)).getD 0) true true n.isSome

/-! ## Scan (section 6) -/

/-- R265, R266: the 24 slots of a scan. -/
def zlScan (s : State) (l : Fin 2) (slots : BitVec 24) : State :=
  let s := s.modZl l fun z => { z with scanDue := false }
  if slots = 0 then
    let s := s.zlEvent l 1
    if s.jflag (Reg.ZL_CTRL l) Fl.ZL_CTRL_AUTO_BIND then s.requestDiscovery l false else s
  else ((List.range 24).filter fun a => slots.getLsbD a).foldl (fun s a => s.queueZev (a + 32 * l.val)) s

/-- A transaction that is given up goes back to wait for the line. -/
def zlAbandon (s : State) (l : Fin 2) : State :=
  s.modZl l fun z => match z.txn with
    | some (.host n) => { z with txn := none, hostDue := some n }
    | some (.ping a) => { z with txn := none, pingDue := some a }
    | some (.assign _ _) => { z with txn := none }
    | none => z

/-- R264, R265: an attention and the scan it starts. DEDUCED, log entry 76. -/
def zlAttention (s : State) (l : Fin 2) (collided : Bool) (slots : BitVec 24) : State :=
  if !s.zlRunning l || (!collided && (s.zl l).txn.isSome) then s
  else
    let s := if collided then (s.zlAbandon l).jbump (Reg.ZL_ATTN l) Fl.ZL_ATTN_COLLIDED else s
    let s := s.jwrap (Reg.ZL_ATTN l) Fl.ZL_ATTN_COUNT 1
    (s.setJreg (Reg.ZL_ATTN_TS l) (BitVec.ofNat 32 s.clk.jts)).zlScan l slots

/-! ## Host transactions and supervision (section 7) -/

def zlNibbles (d : Word × Word) (n : Nat) : List Nat :=
  (List.range n).map fun i => getF (if i < 8 then d.1 else d.2) ⟨4 * (i % 8), 4⟩

/-- ADDR and CMD of the host transaction in progress. -/
def zlTxnAddr (s : State) (l : Fin 2) : Nat := getF (s.zl l).txnCmd Fl.ZL_TXN_CMD_ADDR
def zlTxnCmd (s : State) (l : Fin 2) : Nat := getF (s.zl l).txnCmd Fl.ZL_TXN_CMD_CMD

/-- The host transaction ends (R269). -/
def zlTxnDone (s : State) (l : Fin 2) (code : Nat) : State :=
  let s := (s.jput (Reg.ZL_TXN_RESULT l) Fl.ZL_TXN_RESULT_CODE code).jput (Reg.ZL_STATUS l) Fl.ZL_STATUS_TXN_BUSY 0
  s.zlEvent l 8

/-- R269: ZLl_TXN_CMD written with START = 1; the other fields of the register already hold what was written. DEDUCED, log entry 61. -/
def zlTxnStart (s : State) (l : Fin 2) : State :=
  let addr := s.jget (Reg.ZL_TXN_CMD l) Fl.ZL_TXN_CMD_ADDR
  let cmd := s.jget (Reg.ZL_TXN_CMD l) Fl.ZL_TXN_CMD_CMD
  let len := s.jget (Reg.ZL_TXN_CMD l) Fl.ZL_TXN_CMD_LEN
  let busy := s.jflag (Reg.ZL_STATUS l) Fl.ZL_STATUS_TXN_BUSY
  if busy || s.zlState l != 3 || decide (4 < cmd) || (decide (23 < addr) && addr != 0xFF) || (addr == 0xFF && cmd != 4) ||
      len != zlSendLen cmd
  then s.jput (Reg.ZL_TXN_RESULT l) Fl.ZL_TXN_RESULT_CODE 6
  else
    let s := (s.jput (Reg.ZL_TXN_RESULT l) Fl.ZL_TXN_RESULT_CODE 1).jput (Reg.ZL_STATUS l) Fl.ZL_STATUS_TXN_BUSY 1
    s.modZl l fun z => { z with hostDue := some 0, txnCmd := s.jreg (Reg.ZL_TXN_CMD l),
                                txnData := (s.jreg (Reg.ZL_TXN_DATA0 l), s.jreg (Reg.ZL_TXN_DATA1 l)) }

def zlSendHost (s : State) (l : Fin 2) (attempt : Nat) : State :=
  let addr := s.zlTxnAddr l
  let cmd := s.zlTxnCmd l
  let data := zlNibbles (s.zl l).txnData (zlSendLen cmd)
  let s := (s.zlSend l addr cmd data).modZl l fun z => { z with hostDue := none }
  if addr = 0xFF then s.zlTxnDone l 2 else s.modZl l fun z => { z with txn := some (.host attempt) }

def zlSendPing (s : State) (l : Fin 2) (a : Nat) : State :=
  (s.zlSend l a 0 []).modZl l fun z => { z with txn := some (.ping a) }

/-- R270: the line is free; the pending transaction of highest priority starts. -/
def zlDispatch (s : State) (l : Fin 2) (slots : List (Bool × Bool)) (scan : BitVec 24) : State :=
  let z := s.zl l
  if !s.zlRunning l || z.txn.isSome then s
  else match z.sweep with
    | a :: r => (s.modZl l fun z => { z with sweep := r }).zlSendPing l a
    | [] =>
      if z.scanDue then s.zlScan l scan
      else if z.discovery.isSome then
        let s := s.zlSend l 0xFF 5 []
        match zlSearch 48 0 slots with
        | .empty => s.endDiscovery l
        | .failed => s.passFailed l
        | .found fn =>
          let a := s.assignAddr l fn
          (s.zlSend l 0xFE 6 [a / 16, a % 16]).modZl l fun z => { z with txn := some (.assign fn a) }
      else match z.hostDue with
        | some n => s.zlSendHost l n
        | none => match z.pingDue with
          | some a => (s.modZl l fun z => { z with pingDue := none }).zlSendPing l a
          | none => s

/-- R268: the supervision period has passed. -/
def zlSupervise (s : State) (l : Fin 2) : State :=
  if s.jget (Reg.ZL_CTRL l) Fl.ZL_CTRL_SUPERVISE_MS = 0 || !s.zlRunning l then s
  else
    let b := s.boundAddrs l
    let n := (s.zl l).nextPing
    match ((b.filter (n ≤ ·)) ++ (b.filter (· < n))).head? with
    | none => s
    | some a => s.modZl l fun z => { z with pingDue := some a, nextPing := a + 1 }

/-- An attempt of the running transaction got no good reply; `none` code means no edge came (R250, R260, R268, R269). -/
def zlAttemptFailed (s : State) (l : Fin 2) (code : Nat) : State :=
  match (s.zl l).txn with
  | none => s
  | some (.assign _ _) => (s.modZl l fun z => { z with txn := none }).passFailed l
  | some (.ping a) =>
    let s := s.modZl l fun z => { z with txn := none }
    if h : a < 24 then
      let n := (s.zl l).fails[a] + 1
      let s := s.modZl l fun z => { z with fails := z.fails.set a n }
      if n = 2 then s.nodeMissing l a else s
    else s
  | some (.host n) =>
    let s := s.modZl l fun z => { z with txn := none }
    if n = 0 then s.modZl l fun z => { z with hostDue := some 1 }
    else (s.nodeMissing l (s.zlTxnAddr l)).zlTxnDone l code

def zlNoReply (s : State) (l : Fin 2) : State :=
  if (s.zl l).txn.isSome then (s.zlError l Fl.ZL_ERR_NO_REPLY).zlAttemptFailed l 3 else s

/-- The address and command a good reply carries (R250). -/
def zlExpected (s : State) (l : Fin 2) : Option (Nat × Nat) :=
  match (s.zl l).txn with
  | none => none
  | some (.assign _ a) => some (a, 6)
  | some (.ping a) => some (a, 0)
  | some (.host _) => some (s.zlTxnAddr l, s.zlTxnCmd l)

/-- The nibbles of a reply in RX_DATA. -/
def setRx (s : State) (l : Fin 2) (d : List Nat) : State :=
  let pack := fun (l : List Nat) => l.reverse.foldl (fun n v => 16 * n + v) 0
  (s.setJreg (Reg.ZL_RX_DATA0 l) (BitVec.ofNat 32 (pack (d.take 8)))).setJreg (Reg.ZL_RX_DATA1 l) (BitVec.ofNat 32 (pack (d.drop 8)))

/-- A good reply ends the transaction (R250, R259, R268, R269). -/
def zlGood (s : State) (l : Fin 2) (f : ZlFrame) : State :=
  let t := (s.zl l).txn
  let s := s.modZl l fun z => { z with txn := none }
  match t with
  | none => s
  | some (.assign fn a) => s.bindNode l fn a
  | some (.ping a) =>
    let s := s.setPresent l a true
    if h : a < 24 then s.modZl l fun z => { z with fails := z.fails.set a 0 } else s
  | some (.host _) =>
    let s := s.setPresent l f.addr true
    let s := (s.jput (Reg.ZL_TXN_RESULT l) Fl.ZL_TXN_RESULT_RX_LEN f.data.length).jput (Reg.ZL_TXN_RESULT l)
      Fl.ZL_TXN_RESULT_STATUS (f.data.headD 0)
    (s.setRx l f.data).zlTxnDone l (if f.data.length = zlReplyLen f.cmd then 2 else 5)

/-- R250: a reply whose CAL edge came `delay` cycles after the closing pulse. -/
def zlReply (s : State) (l : Fin 2) (delay : Nat) (periods lows : List Nat) : State :=
  match s.zlExpected l with
  | none => s
  | some (addr, cmd) =>
    if delay < 6000 ∨ 30000 < delay then s
    else match zlDecode periods lows with
      | .symbol => (s.zlError l Fl.ZL_ERR_SYMBOL).zlAttemptFailed l 4
      | .crc => (s.zlError l Fl.ZL_ERR_CRC).zlAttemptFailed l 4
      | .frame f =>
        if f.addr = addr ∧ f.cmd = cmd ∧ (f.data.length = zlReplyLen cmd ∨ f.data.length = 1) then s.zlGood l f
        else s.zlAttemptFailed l 4

/-! ## Line states (section 8) -/

/-- R271: the line leaves OFF for START. -/
def zlStart (s : State) (l : Fin 2) : State :=
  if s.zlState l = 0 ∧ s.jflag (Reg.ZL_CFG l) Fl.ZL_CFG_ENABLE then s.setZlState l 1 else s

def zlReleaseEnd (s : State) (l : Fin 2) : State :=
  if s.zlState l = 1 then s.startDiscovery l true else s

/-- R272: the line has stayed low for 1 ms. -/
def zlStuck (s : State) (l : Fin 2) : State :=
  if s.zlState l = 0 ∨ s.zlState l = 4 ∨ s.zlState l = 5 then s
  else
    let disc := s.zlState l != 3
    let s := (s.zlAbandon l).modZl l fun z => { z with resumeDisc := disc, discovery := if s.zlState l = 1 then some true else z.discovery }
    (s.setZlState l 4).zlEvent l 6

/-- R272: the line has been high for 1 ms again. -/
def zlReleased (s : State) (l : Fin 2) : State :=
  if s.zlState l = 4 then
    let s := s.zlEvent l 7
    let s := s.modZl l fun z => { z with sweep := s.boundAddrs l, scanDue := true }
    s.setZlState l (if (s.zl l).resumeDisc then 2 else 3)
  else s

/-- R273: fail-safe halts the line. -/
def zlHalt (s : State) (l : Fin 2) : State :=
  if s.zlState l = 0 then s else (s.zlAbandon l).setZlState l 5

/-- R273: fail-safe ends without a register reset; the line runs one scan and returns to RUN. -/
def zlResume (s : State) (l : Fin 2) : State :=
  if s.zlState l = 5 then (s.modZl l fun z => { z with scanDue := true }).setZlState l 3 else s

/-- R264: a low shorter than 6 µs on the idle line. -/
def zlGlitch (s : State) (l : Fin 2) : State :=
  if s.zlRunning l && (s.zl l).txn.isNone then s.zlError l Fl.ZL_ERR_GLITCH else s

end State

end Sys2Proof.Machine
end

