-- ==== Sys2Proof/Machine/Access.lean ====
section
/-! DEFINITION. Register access: the field rules R6 to R10, R20 and R526, the access-error logs (R120), and the registers of Jens as the
relay reaches them (R175, R176, R179, R180). -/
namespace Sys2Proof.Machine

/-! ## Writing a word field by field (R6, R10) -/

/-- Bits of `a` that are not set in `b`. -/
def natAndNot (a b : Nat) : Nat := a - (a &&& b)

/-- A field that a write may set. -/
def accSettable : Acc → Bool
  | .rw | .rws | .rwg => true
  | _ => false

/-- A field on which a write may have an effect. -/
def accWritable : Acc → Bool
  | .ro => false
  | _ => true

/-- DESIGN CHOICE, log entry 52. -/
def writeField (val : Word) (refused : Acc → Bool) (w : Word) (f : FieldD) : Word :=
  match f.acc with
  | .ro | .wo => w
  | .w1c => putF w f.fld (natAndNot (getF w f.fld) (getF val f.fld))
  | .w1s => putF w f.fld (getF w f.fld ||| getF val f.fld)
  | .rw | .rws | .rwg => if refused f.acc then w else putF w f.fld (getF val f.fld)

/-- R10: a write applies to each field under its own code; fields that refuse it keep their values. -/
def writeWord (d : RegD) (old val : Word) (refused : Acc → Bool) : Word := d.fields.foldl (writeField val refused) old

/-- The refused field with the lowest bit number (R526). -/
def firstRefused (d : RegD) (refused : Acc → Bool) : Option FieldD :=
  (d.fields.filter fun f => refused f.acc).foldl (fun b f => match b with
    | none => some f
    | some g => if f.fld.lsb < g.fld.lsb then some f else some g) none

/-- What a read shows of a stored word: WO fields read 0 (R6). -/
def readWord (d : RegD) (w : Word) : Word :=
  d.fields.foldl (fun v f => if f.acc = .wo then v else putF v f.fld (getF w f.fld)) 0

/-- A value held within a range: what a register that stores clamped values keeps. -/
def clampNat (lo hi v : Nat) : Nat := max lo (min hi v)
def clampF (f : Fld) (lo hi : Nat) (w : Word) : Word := putF w f (clampNat lo hi (getF w f))

/-! ## Access-error log (R120) -/

/-- The REASON enumeration beneath Table 4-20. -/
inductive Reason
  | size | unassigned | rws | rwg | readOnly | store | weight | resetKey | park | poisoned | busyMem | ecc
  deriving DecidableEq, Repr

def Reason.code : Reason → Nat
  | .size => 1 | .unassigned => 2 | .rws => 3 | .rwg => 4 | .readOnly => 5 | .store => 6 | .weight => 7 | .resetKey => 8
  | .park => 9 | .poisoned => 10 | .busyMem => 11 | .ecc => 12

/-- An access as a log records it (Table 4-20): space (0 BAR0, 1 BAR2, 2 BAR4, 3 other SPI address), offset, direction, byte enables. -/
structure Access where
  space : Nat
  off : Nat
  write : Bool
  be : Nat
  deriving DecidableEq, Repr

def accReason : Acc → Reason
  | .rwg => .rwg
  | _ => .rws

namespace State

/-- First register of a path's log. -/
def aelBase : Path → Nat
  | .pcie => Reg.PCX_AEL_COUNT
  | .spi => Reg.SSP_AEL_COUNT

/-- An access is recorded in the log of its path. -/
def ael (s : State) (p : Path) (a : Access) (r : Reason) : State :=
  let b := aelBase p
  let info := BitVec.ofNat 32 (r.code + 32 * ofBool a.write + 64 * a.space + 256 * a.be)
  let addr := BitVec.ofNat 32 (a.off % 2 ^ 25)
  let s := if s.get b Fl.PCX_AEL_COUNT_COUNT = 0 then (s.setReg (b + 4) addr).setReg (b + 8) info else s
  let s := (s.setReg (b + 12) addr).setReg (b + 16) info
  (s.bump b Fl.PCX_AEL_COUNT_COUNT).put b Fl.PCX_AEL_COUNT_EVENT 1

/-- AEL_CLEAR: CLEAR clears count, event bit and both entries. -/
def aelClear (s : State) (p : Path) : State :=
  [0, 4, 8, 12, 16].foldl (fun s d => s.setReg (aelBase p + d) 0) s

/-- The record of an aligned 32-bit access to BAR0. -/
def bar0Access (off : Nat) (write : Bool) : Access := ⟨0, off, write, 0xF⟩

/-! ## Registers of Jens -/

/-- Functions that own the Jens unit a field address belongs to (R179, R85). -/
def jensOwners (s : State) (a : Nat) : List Nat :=
  if 0x2000 ≤ a ∧ a < 0x2080 then s.chartFns.filter fun n => (u8 (s.fnSec n) 0x0C).testBit ((a - 0x2000) / 0x40)
  else if 0x3000 ≤ a ∧ a < 0x3080 then
    s.chartFns.filter fun n => match s.chart with | some c => c.fnOwnsGhs n ((a - 0x3000) / 0x20) | none => false
  else if 0x3100 ≤ a ∧ a < 0x3200 then
    s.chartFns.filter fun n => match s.chart with | some c => c.fnOwnsGls n ((a - 0x3100) / 0x20) | none => false
  else []

/-- R8, R9, R20: whether a field of this access code refuses a write, given the functions that own its unit. -/
def refuses (s : State) (owners : List Nat) (a : Acc) : Bool :=
  match a with
  | .rws => owners.any fun n => !s.fnStopped n
  | .rwg => !s.allStopped
  | _ => false

/-- Stored clamped (chapters 6 and 7). -/
def clampJens (a : Nat) (w : Word) : Word :=
  if 0x2000 ≤ a ∧ a < 0x2080 then
    let r := (a - 0x2000) % 0x40
    if r = 0x04 then clampF Fl.EMU_RATIO_M 1 65535 (clampF Fl.EMU_RATIO_N 1 65535 w)
    else if r = 0x08 then clampF Fl.EMU_SLEW_SLEW 1 10000000 w
    else if r = 0x0C then clampF Fl.EMU_ACCEL_ACCEL 1 10000000 w
    else w
  else if 0x3000 ≤ a ∧ a < 0x3080 ∧ a % 0x20 = 0x04 then clampF Fl.GHS_SENSE_ISNS_SCALE 1 65535 w
  else if 0x3100 ≤ a ∧ a < 0x3200 ∧ a % 0x20 = 0x04 then clampF Fl.GLS_SCALE_PEAK_SCALE 32 255 w
  else if a = Reg.FSP_CFG then clampF Fl.FSP_CFG_CLK_KHZ 100 25000 w
  else if a = Reg.FSP_FRAME then clampF Fl.FSP_FRAME_CS_GAP 1 255 (clampF Fl.FSP_FRAME_FRAME_LEN 0 64 w)
  else w

/-- Bits that act and read 0 (RESYNC, DISCOVER): the stored word and the shadow hold them as 0 (R212, R262). -/
def dropStrobes (a : Nat) (w : Word) : Word :=
  if (a = Reg.EMU_CTRL 0 ∨ a = Reg.EMU_CTRL 1) then putF w Fl.EMU_CTRL_RESYNC 0
  else if (a = Reg.ZL_CTRL 0 ∨ a = Reg.ZL_CTRL 1) then putF w Fl.ZL_CTRL_DISCOVER 0
  else w

/-- The emulator, GLS, GHS, PFI or ZL instance a field address belongs to. -/
def fin2 (n : Nat) : Fin 2 := ⟨n % 2, Nat.mod_lt _ (by decide)⟩
def fin4 (n : Nat) : Fin 4 := ⟨n % 4, Nat.mod_lt _ (by decide)⟩
def fin8 (n : Nat) : Fin 8 := ⟨n % 8, Nat.mod_lt _ (by decide)⟩

/-- ISNSk stood below its threshold at the last sample (R229, R231). -/
def isnsBelow (s : State) (k : Fin 4) : Bool :=
  decide (s.jget (Reg.GHS_ISNS k) Fl.GHS_ISNS_NOW < s.jget (Reg.GHS_SENSE k) Fl.GHS_SENSE_ISNS_LIMIT_MA)

def jbit (val : Word) (f : Fld) : Bool := getF val f != 0

/-- What a write that has reached Jens does beyond storing its fields. -/
def jensEffect (s : State) (a : Nat) (val : Word) : State :=
  if 0x1000 ≤ a ∧ a < 0x1100 ∧ a % 0x40 = 0x24 then
    if jbit val Fl.PFI_ERR_CLR_CLEAR then s.setJreg (a - 8) 0 else s
  else if 0x2000 ≤ a ∧ a < 0x2080 then
    let e := fin2 ((a - 0x2000) / 0x40)
    if a % 0x40 = 0x04 then s.modJens fun j => { j with emu := j.emu.set e { j.emu[e] with acc := 0 } }
    else if a % 0x40 = 0x10 then s.emuLagCheck e
    else if a % 0x40 = 0x18 ∧ jbit val Fl.EMU_CTRL_RESYNC then s.emuDrop e
    else s
  else if 0x3000 ≤ a ∧ a < 0x3080 ∧ a % 0x20 = 0x18 then
    let k := fin4 ((a - 0x3000) / 0x20)
    if jbit val Fl.GHS_CTRL_OC_CLEAR then s.ocClear k (s.isnsBelow k) else s
  else if a = Reg.GATE_FLUSH then s.gateFlush (getF val Fl.GATE_FLUSH_GLS)
  else if a = Reg.FSP_ERR_CLR then if jbit val Fl.FSP_ERR_CLR_CLEAR then s.setJreg Reg.FSP_ERR 0 else s
  else if a = Reg.FSP_CFG ∨ a = Reg.FSP_FRAME then if s.fspActive then s else s.fspLatch
  else if 0x6000 ≤ a ∧ a < 0x7000 then
    let l := fin2 ((a - 0x6000) / 0x800)
    let r := (a - 0x6000) % 0x800
    if r = 0x04 then
      let s := if jbit val Fl.ZL_CTRL_DISCOVER && s.zlRunning l then s.requestDiscovery l true else s
      if jbit val Fl.ZL_CTRL_BIND_NEW && s.zlRunning l then s.requestDiscovery l false else s
    else if r = 0x18 then if jbit val Fl.ZL_ERR_CLR_CLEAR then s.setJreg (Reg.ZL_ERR l) 0 else s
    else if r = 0x30 then
      if jbit val Fl.ZL_TXN_CMD_START then s.zlTxnStart l else s
    else s
  else s

/-- R175, R176: a write executed on Jens; `false` for an address that is unassigned there. -/
def jensWrite (s : State) (a : Nat) (val : Word) (refused : Acc → Bool := fun _ => false) : State × Bool :=
  match fieldReg a with
  | none => (s, 0x8000 ≤ a ∧ a < 0xC100 ∧ a % 4 = 0)
  | some d =>
    let s := if 0x2000 ≤ a ∧ a < 0x2080 ∧ a % 0x40 = 0x04 then s.emuUpdate (fin2 ((a - 0x2000) / 0x40)) else s
    let s := s.setJreg a (dropStrobes a (clampJens a (writeWord d (s.jreg a) val refused)))
    (s.jensEffect a val, true)

/-- Status that Jens forms when it is read. -/
def jensLive (s : State) (a : Nat) : Option Word :=
  if 0x1000 ≤ a ∧ a < 0x1100 then
    let c := fin4 ((a - 0x1000) / 0x40)
    if a % 0x40 = 0x08 then some (putF (s.jreg a) Fl.PFI_STAT_FRAC (s.pfiFrac c))
    else if a % 0x40 = 0x0C then some (BitVec.ofNat 32 (s.pfiSpeed c))
    else none
  else if 0x2000 ≤ a ∧ a < 0x2080 then
    let e := fin2 ((a - 0x2000) / 0x40)
    let lag := (s.emuFollow e).emuLag e
    if a % 0x40 = 0x1C then some (BitVec.ofInt 32 (s.emu e).out)
    else if a % 0x40 = 0x20 then some (BitVec.ofInt 32 (max (-2 ^ 31) (min (2 ^ 31 - 1) (lag.fdiv 256))))
    else if a % 0x40 = 0x24 then some (BitVec.ofInt 32 (s.emu e).rate)
    else none
  else if a = Reg.PAS_PINS then
    let v := fun p => let x := s.passPins p; ofBool x.1 + 2 * ofBool x.2.1 + 4 * ofBool x.2.2
    some (BitVec.ofNat 32 (v 0 + 16 * v 1))
  else if 0x3000 ≤ a ∧ a < 0x3080 ∧ a % 0x20 = 0x10 then
    let k := fin4 ((a - 0x3000) / 0x20)
    let busy := s.inPeak (fin8 (2 * k.val)) || s.inPeak (fin8 (2 * k.val + 1))
    some (putF (putF (s.jreg a) Fl.GHS_STATUS_ON (ofBool (s.ghsOn k))) Fl.GHS_STATUS_PEAK_BUSY (ofBool busy))
  else if 0x3100 ≤ a ∧ a < 0x3200 ∧ a % 0x20 = 0x0C then
    let j := fin8 ((a - 0x3100) / 0x20)
    let n := (s.jens.firings.filter fun f => f.gls == j && f.deadline.isNone).length
    some (putF (putF (s.jreg a) Fl.GLS_STATUS_PHASE (s.glsPhase j)) Fl.GLS_STATUS_PENDING n)
  else if a = Reg.GATE_SCHED then some (putF (s.jreg a) Fl.GATE_SCHED_PENDING s.jens.firings.length)
  else if a = Reg.GATE_PINS then
    let g := (List.finRange 4).foldl (fun n k => n + 2 ^ k.val * ofBool (s.ghsOn k)) 0
    let l := (List.finRange 8).foldl (fun n j => n + 2 ^ j.val * ofBool (s.glsOn j)) 0
    some (BitVec.ofNat 32 (g + 2 ^ 8 * l))
  else if a = Reg.SER_STATUS then
    some (BitVec.ofNat 32 (s.jens.serTx.length + 2 ^ 8 * s.jens.serRx.length + 2 ^ 16 * getF (s.jreg a) Fl.SER_STATUS_CREDIT))
  else none

/-- Level of MIROk (R155, R156). -/
def miroLevel (s : State) (k : Fin 12) : Bool :=
  let m := s.jens.miroMap[k]
  if s.failsafe then m.safe
  else if m.source = 2 then (s.active (fin8 m.index)).isSome
  else s.jens.miro.getLsbD k

/-- R175, R176: a read executed on Jens; `none` for an address that is unassigned there. -/
def jensRead (s : State) (a : Nat) : Option Word :=
  if 0x8000 ≤ a ∧ a < 0xC100 then if a % 4 = 0 then some (BitVec.ofNat 32 (s.gateU32 a)) else none
  else if a = Reg.MIR_PINS then
    some (BitVec.ofNat 32 ((List.finRange 12).foldl (fun n k => n + 2 ^ k.val * ofBool (s.miroLevel k)) 0 + 2 ^ 16 * s.jens.miri.toNat))
  else match fieldReg a with
    | none => none
    | some d => some (readWord d ((s.jensLive a).getD (s.jreg a)))

/-! ## The FX window on Nahar (R178 to R180) -/

/-- R179: the fields of a write into the FX window that are refused. -/
def fxRefuses (s : State) (a : Nat) : Acc → Bool := s.refuses (s.jensOwners a)

/-- R180: the shadow takes the written value of every field that is not refused. -/
def fxShadow (s : State) (a : Nat) (val : Word) : State :=
  match fieldReg a with
  | none => s
  | some d =>
    let keep := fun (acc : Acc) => !(accSettable acc) || s.fxRefuses a acc
    s.setShadow a (dropStrobes a (clampJens a (d.fields.foldl (fun w f => if keep f.acc then w else putF w f.fld (getF val f.fld))
      (s.shadowReg a))))

/-- R179: the word that is relayed, in which each refused field carries the shadow's value; `none` when every written field is refused. -/
def fxRelayed (s : State) (a : Nat) (val : Word) : Option Word :=
  match fieldReg a with
  | none => some val
  | some d =>
    let refused := s.fxRefuses a
    let w := d.fields.filter fun f => accWritable f.acc
    if !w.isEmpty && w.all fun f => refused f.acc then none
    else some (w.foldl (fun v f => if refused f.acc then putF v f.fld (getF (s.shadowReg a) f.fld) else v) val)

/-- R179, R526: the record a refused field leaves, and the shadow update. -/
def fxGate (s : State) (p : Path) (a : Nat) (val : Word) : State :=
  let s := match (fieldReg a).bind fun d => firstRefused d (s.fxRefuses a) with
    | some f => s.ael p (bar0Access (0x50000 + a) true) (accReason f.acc)
    | none => s
  s.fxShadow a val

def hzState (s : State) : Nat := s.get Reg.HZ_STATUS Fl.HZ_STATUS_STATE
def hzUp (s : State) : Bool := s.hzState == 5

/-- A write into the FX window, taken on Jens in this step: R179's gate, the shadow, and the effect while Horizon is UP (R178). The byte
transport of section 8 of chapter 5 is that of FX_WRITE. -/
def fxDirect (s : State) (p : Path) (a : Nat) (val : Word) : State :=
  let relayed := s.fxRelayed a val
  let s := s.fxGate p a val
  match relayed with
  | none => s
  | some w => if s.hzUp then (s.jensWrite a w).1 else s

end State

end Sys2Proof.Machine
end

