-- ==== Sys2Proof/Machine/Horizon.lean ====
section
/-! DEFINITION. The Horizon barrier link (chapter 5): beats, slots, serial channel, relay, training, loss and fail-safe. -/
namespace Sys2Proof.Machine

/-! ## Beats (sections 1 and 2) -/

/-- R146: the CRC-8 over bits [63:8] of a beat. -/
def beatCrc (w : Nat) : Nat := (crc8 0x2F 0xFF ((List.range 7).map fun i => w / 2 ^ (56 - 8 * i) % 256)) ^^^ 0xFF

/-- A beat from its bits [63:8]. -/
def beatOf (body : Nat) : BitVec 64 := BitVec.ofNat 64 (body * 256 + beatCrc (body * 256))

/-- Bits [lsb + width - 1 : lsb] of a beat. -/
def beatBits (w : BitVec 64) (lsb width : Nat) : Nat := w.toNat / 2 ^ lsb % 2 ^ width

/-- SYNC of a data beat by its phase (Table 5-1). -/
def syncCode (idx : Nat) : Nat := if idx % 4 = 0 then 2 else 1

/-- R147: the beat of index `idx` is bad. -/
def beatBad (idx : Nat) (w : BitVec 64) : Bool :=
  beatCrc w.toNat != beatBits w 0 8 || beatBits w 62 2 == 0 || (beatBits w 62 2 != 3 && beatBits w 62 2 != syncCode idx)

def beatTraining (w : BitVec 64) : Bool := beatBits w 62 2 == 3

/-- A training beat: SYNC 0b11 and a step code; the payload is internal to the package. -/
def trainingBeat (step : Nat) : BitVec 64 := beatOf (3 * 2 ^ 54 + step % 16 * 2 ^ 50)

/-- The bits the two directions share: [63:50], the 16-bit slot, serial byte, relay byte (Tables 5-1 and 5-2). -/
def beatBody (idx mirror slot : Nat) (ser : Option Byte) (rlyStart : Bool) (rly : Byte) (low : Nat) : Nat :=
  syncCode idx * 2 ^ 54 + mirror % 2 ^ 12 * 2 ^ 42 + slot % 2 ^ 16 * 2 ^ 26 +
  (match ser with | some b => 2 ^ 25 + b.toNat * 2 ^ 17 | none => 0) + ofBool rlyStart * 2 ^ 16 + rly.toNat * 2 ^ 8 + low % 2 ^ 8

/-! ## Serial channel (section 7) -/

/-- R172: free space in a receive FIFO, sampled at the phase-0 boundary. -/
def creditSample (c : Credit) (idx rxLevel : Nat) : Credit := if idx % 4 = 0 then { c with sample := 64 - rxLevel } else c

/-- The two credit bits of the beat of index `idx`. -/
def creditBits (c : Credit) (idx : Nat) : Nat := c.sample / 2 ^ (2 * (idx % 4)) % 4

/-- R172: the credit bits of a delivered beat. At the phase-3 beat of a group of four intact beats the sender has a new credit: F less the
bytes it launched in the 8 beats before the boundary at which that beat is delivered (and at that boundary, should that launch come first). -/
def creditTake (c : Credit) (idx bits : Nat) (intact : Bool) : Credit × Option Nat :=
  let ph := idx % 4
  let good := if intact then (if ph = 0 then 1 else c.good + 1) else 0
  let acc := if ph = 0 then bits else c.acc + bits * 2 ^ (2 * ph)
  let c' := { c with good := good, acc := acc }
  if ph = 3 ∧ good = 4 then
    let edge := idx + 4
    (c', some (min acc 64 - (c.launched.filter fun i => decide (edge ≤ i + 8)).length))
  else (c', none)

def creditLaunched (c : Credit) (idx : Nat) : Credit := { c with launched := (idx :: c.launched).take 16 }

namespace State

def modHz (s : State) (f : HzNahar → HzNahar) : State := { s with hz := f s.hz }
def setHzState (s : State) (v : Nat) : State := s.put Reg.HZ_STATUS Fl.HZ_STATUS_STATE v
def hzKeep (s : State) : Bool := s.hzState == 6

/-- R188: Nahar sets FS_HOLD. -/
def fsHoldNow (s : State) : Bool := s.flag Reg.PCX_HOSTLOSS Fl.PCX_HOSTLOSS_FIELD_HELD || (s.isSafe && s.clk.sclk)

/-- Jens has completed a full training since its last loss or reset: it is UP on its side. -/
def jensUp (s : State) : Bool := !s.jens.fsUntrained && !s.jens.fsLoss

/-! ## Fail-safe on Jens (section 10.2) -/

/-- The cause FS_CAUSE shows: the lowest-numbered one in force. DEDUCED, log entry 64. -/
def fsCause (s : State) : Nat :=
  if s.jens.fsUntrained then 1 else if s.jens.fsLoss then 2 else if s.jens.fsHold then 3
  else if s.jens.fsKeep then 4 else if s.jens.fsDetector then 5 else 0

/-- Table 5-10: what entry into fail-safe does to the field blocks. -/
def failsafeEnter (s : State) : State :=
  let s := (((s.gatesFailsafe).emuFreeze 0).emuFreeze 1).fspFailsafe
  (s.zlHalt 0).zlHalt 1

def failsafeLeave (s : State) : State := (((s.emuThaw 0).emuThaw 1).zlResume 0).zlResume 1

/-- R186: fail-safe follows its causes. -/
def fsUpdate (s : State) : State :=
  let was := s.failsafe
  let c := s.fsCause
  let s := (s.jput Reg.MIR_STATE Fl.MIR_STATE_FS_CAUSE c).jputFlag Reg.MIR_STATE Fl.MIR_STATE_FAILSAFE (c != 0)
  if c != 0 && !was then s.failsafeEnter
  else if c == 0 && was then s.failsafeLeave
  else s

/-- R185: Horizon loss on Jens. -/
def jensLoss (s : State) : State :=
  let s := s.jens.staging.foldl (fun s e => s.jput (Reg.GATE_STATE e.tref) Fl.GATE_STATE_STAGED 0) s
  let s := s.modJens fun j => { j with fsLoss := true, sendsTraining := true, badRun := 0, staging := [], stageRx := [], ackDue := [],
                                       relayRx := none, relayTx := [] }
  s.fsUpdate.gatesFailsafe

/-- R153: keep-alive on Jens; the detector of R187 stays armed. -/
def jensKeep (s : State) : State := (s.modJens fun j => { j with fsKeep := true }).fsUpdate

/-- R187: the beat-loss detector fires. -/
def beatLoss (s : State) : State :=
  let s := s.jput Reg.MIR_STATE Fl.MIR_STATE_DETECTOR 1
  (s.modJens fun j => { j with fsDetector := true }).fsUpdate

/-! ## Relay on Jens (section 8) -/

def wordBytes (w : Word) : List Byte := [24, 16, 8, 0].map fun k => BitVec.ofNat 8 (w.toNat / 2 ^ k)
def bytesWord (l : List Byte) : Word := BitVec.ofNat 32 (l.foldl (fun n b => n * 256 + b.toNat) 0)

/-- Table 5-8: the bytes of a request. -/
def relayRequest (op : RelayOp) (seq : Bool) (addr : Nat) (data : Word) : List Byte :=
  let cmd := (match op with | .read => 1 | .write => 2) + 4 * ofBool seq
  [BitVec.ofNat 8 cmd, BitVec.ofNat 8 (addr / 256), BitVec.ofNat 8 addr] ++ (match op with | .read => [] | .write => wordBytes data)

/-- Bytes a request has, by its first byte. -/
def requestLength (cmd : Byte) : Nat :=
  let op := cmd.toNat % 4
  if op = 2 then 7 else if op = 3 then 3 + 4 * (cmd.toNat / 8 % 16 + 1) else 3

/-- The words of a request's data. -/
def dataWords : List Byte → List Word
  | a :: b :: c :: d :: r => bytesWord [a, b, c, d] :: dataWords r
  | _ => []

/-- R176: the request executed on Jens, and its response bytes. -/
def relayExecute (s : State) (l : List Byte) : State × List Byte :=
  let cmd := (l.headD 0).toNat
  let op := cmd % 4
  let addr := (l.getD 1 0).toNat * 256 + (l.getD 2 0).toNat
  let status := fun (bad : Bool) => BitVec.ofNat 8 (cmd % 8 + 8 * ofBool bad)
  if op = 1 then
    match if addr % 4 = 0 then s.jensRead addr else none with
    | some w => (s, status false :: wordBytes w)
    | none => (s, status true :: wordBytes 0)
  else
    let r := (dataWords (l.drop 3)).foldl (fun (x : State × Nat × Bool) w =>
        if x.2.1 % 4 = 0 then
          let y := x.1.jensWrite x.2.1 w
          (y.1, x.2.1 + 4, x.2.2 && y.2)
        else (x.1, x.2.1 + 4, false)) (s, addr, true)
    (r.1, [status (!r.2.2)])

/-- R175, R176: a complete request. -/
def relayArrived (s : State) (l : List Byte) : State :=
  let seq := (l.headD 0).getLsbD 2
  match s.jens.relayLast with
  | some (q, resp) =>
    if q = seq then s.modJens fun j => { j with relayTx := resp, relayTxStart := true }
    else
      let r := s.relayExecute l
      r.1.modJens fun j => { j with relayLast := some (seq, r.2), relayTx := r.2, relayTxStart := true }
  | none =>
    let r := s.relayExecute l
    r.1.modJens fun j => { j with relayLast := some (seq, r.2), relayTx := r.2, relayTxStart := true }

/-- A relay byte delivered to Jens. -/
def jensRelayByte (s : State) (start : Bool) (b : Byte) : State :=
  let got := if start then some [b] else s.jens.relayRx.map (· ++ [b])
  match got with
  | none => s
  | some l =>
    if l.length = requestLength (l.headD 0) then (s.modJens fun j => { j with relayRx := none }).relayArrived l
    else s.modJens fun j => { j with relayRx := some l }

/-! ## Host-to-field beats on Jens -/

/-- R163: a staging word; the ack of R168 belongs to the last word of an intact message. -/
def stagingWord (s : State) (idx k w : Nat) : State :=
  let got := if k = 0 then [(0, w)] else if s.jens.stageRx.length = k then s.jens.stageRx ++ [(k, w)] else []
  let s := s.modJens fun j => { j with stageRx := got }
  if k = 2 ∧ got.length = 3 then
    let w0 := (got.getD 0 (0, 0)).2
    let lep := (got.getD 1 (0, 0)).2 + 2 ^ 16 * w
    let s := s.stageRecord ⟨w0 % 128, w0 / 128 % 4, w0 / 512 % 16, lep, false⟩
    s.modJens fun j => { j with stageRx := [], ackDue := (idx + 5) :: j.ackDue.take 7 }
  else s

/-- The gate slot of an intact host beat (R164, R165, R168, R188). -/
def gateSlot (s : State) (idx kind k w : Nat) (hold : Bool) : State :=
  if kind = 1 then
    if hold then s
    else (s.gateCommand (w % 128) (w / 128 % 128)).modJens fun j => { j with ackDue := (idx + 5) :: j.ackDue.take 7 }
  else if kind = 2 then s.stagingWord idx k w
  else s

/-- A serial byte enters a FIFO of Jens, or is dropped at a full one (R173, R174). -/
def jensSerialIn (s : State) (b : Byte) : State :=
  if s.jens.serRx.length < 64 then s.setJserRx (s.jens.serRx ++ [b]) else s.jbump Reg.SER_ERR Fl.SER_ERR_RX_DROP

def jensCredit (s : State) (idx bits : Nat) (intact : Bool) : State :=
  let r := creditTake s.jens.credit idx bits intact
  let s := s.modJens fun j => { j with credit := r.1 }
  match r.2 with
  | some v => s.jput Reg.SER_STATUS Fl.SER_STATUS_CREDIT v
  | none => s

/-- R147, R185: a bad host beat; in keep-alive Jens ignores it (R153). -/
def jensBad (s : State) (idx : Nat) : State :=
  let s := s.jbump Reg.MIR_BAD_BEATS Fl.MIR_BAD_BEATS_COUNT
  let s := (s.modJens fun j => { j with relayRx := none }).jensCredit idx 0 false
  if s.jensUp && !s.jens.fsKeep then
    if s.jens.badRun + 1 = 8 then s.jensLoss else s.modJens fun j => { j with badRun := j.badRun + 1 }
  else s

/-- The fields of an intact data beat (R148, R150, R153, R156, R188). -/
def jensData (s : State) (idx : Nat) (w : BitVec 64) : State :=
  let ctrl := beatBits w 8 8
  let hold := ctrl.testBit 6
  let s := s.modJens fun j => { j with badRun := 0, miro := BitVec.ofNat 12 (beatBits w 50 12) }
  if !s.jensUp then s
  else if ctrl.testBit 7 then s.jensKeep
  else if s.jens.fsKeep then s
  else
    let s := (s.modJens fun j => { j with fsHold := hold }).fsUpdate
    let s := s.gateSlot idx (ctrl / 4 % 4) (ctrl / 16 % 4) (beatBits w 34 16) hold
    let s := if w.getLsbD 33 then s.jensSerialIn (BitVec.ofNat 8 (beatBits w 25 8)) else s
    let s := if w.getLsbD 24 || s.jens.relayRx.isSome then s.jensRelayByte (w.getLsbD 24) (BitVec.ofNat 8 (beatBits w 16 8)) else s
    s.jensCredit idx (ctrl % 4) true

/-- A host-to-field beat is delivered to Jens; `none` is a beat that did not arrive (R147). -/
def jensReceive (s : State) (idx : Nat) (w : Option (BitVec 64)) : State :=
  match w with
  | none => s.jensBad idx
  | some w =>
    if beatBad idx w then s.jensBad idx
    else if beatTraining w then if s.jensUp && !s.jens.fsKeep then s.jensLoss else s
    else s.jensData idx w

/-! ## Field-to-host beats launched by Jens -/

/-- R181, R182: the event half of the beat of index `idx`, 0x1F (no event) where none is sent. -/
def zevNext (s : State) (idx : Nat) (quiet : Bool) : State × Nat :=
  let idle := if idx % 2 = 0 then 1 else 0xF
  if quiet then (s.modJens fun j => { j with zevCur := j.zevCur.map fun e => (e.1, 0) }, idle)
  else
    let s := if idx % 2 = 0 ∧ s.jens.zevCur = none then
        match s.jens.zevQ with
        | v :: r => s.modJens fun j => { j with zevQ := r, zevCur := some (v, 0) }
        | [] => s
      else s
    match s.jens.zevCur with
    | none => (s, idle)
    | some (v, n) =>
      if idx % 2 ≠ n % 2 then (s, idle)
      else
        let s := s.modJens fun j => { j with zevCur := if n = 3 then none else some (v, n + 1) }
        (s, if idx % 2 = 0 then v / 16 % 16 else v % 16)

/-- POS of the beat of index `idx` (R159). -/
def posSlot (s : State) (idx : Nat) : Nat :=
  let c := fin4 idx
  if s.pfiMode c = 0 then 0 else s.pfiPosition c % 2 ^ 16

/-- A serial byte Jens may launch (R171, R174). -/
def jensSerialOut (s : State) (idx : Nat) (quiet : Bool) : State × Option Byte :=
  let c := s.jget Reg.SER_STATUS Fl.SER_STATUS_CREDIT
  match s.jens.serTx with
  | b :: r =>
    if quiet || c == 0 then (s, none)
    else (((s.setJserTx r).jput Reg.SER_STATUS Fl.SER_STATUS_CREDIT (c - 1)).modJens
      fun j => { j with credit := creditLaunched j.credit idx }, some b)
  | [] => (s, none)

/-- The next relay byte of a response. -/
def jensRelayOut (s : State) (quiet : Bool) : State × Bool × Byte :=
  match s.jens.relayTx with
  | b :: r => if quiet then (s, false, 0) else (s.modJens fun j => { j with relayTx := r, relayTxStart := false }, s.jens.relayTxStart, b)
  | [] => (s, false, 0)

/-- Jens launches the beat of index `idx` (Table 5-2): training beats after a loss and until trained (R185). -/
def jensCompose (s : State) (idx : Nat) : State × BitVec 64 :=
  if s.jens.sendsTraining || !s.jensUp then (s, trainingBeat s.hzState)
  else
    let quiet := s.jens.fsKeep
    let x := s.jensSerialOut idx quiet
    let y := x.1.jensRelayOut quiet
    let z := y.1.zevNext idx (quiet || y.1.failsafe)
    let s := z.1.modJens fun j => { j with credit := creditSample j.credit idx j.serRx.length }
    let ack := !quiet && s.jens.ackDue.contains idx
    let s := s.modJens fun j => { j with ackDue := j.ackDue.filter (idx < ·) }
    let low := 16 * z.2 + 4 * creditBits s.jens.credit idx + 2 * ofBool ack + ofBool (s.jreg Reg.MIR_ATTN != 0)
    (s, beatOf (beatBody idx s.jens.miri.toNat (s.posSlot idx) x.2 y.2.1 y.2.2 low))

/-- Jens has a clock and power to launch beats. -/
def jensSends (s : State) : Bool := s.pw.vf && s.hzState != 0

/-! ## Host-to-field beats launched by Nahar -/

/-- R155: bit `k` of the MIRO field. -/
def miroBit (s : State) (k : Nat) : Bool :=
  let src := u8 s.field (4 * k)
  let ix := u8 s.field (4 * k + 1)
  if src = 0 then s.bit Reg.HZ_MIRO_OUT Fl.HZ_MIRO_OUT_OUT k
  else if src = 1 then s.fnArmed ix || s.fnRunning ix
  else if src = 3 then !s.errAsserted
  else false

def miroBits (s : State) : Nat := (List.range 12).foldl (fun n k => n + 2 ^ k * ofBool (s.miroBit k)) 0

def hzCredit (s : State) : Nat := s.get Reg.HZ_SER_STATUS Fl.HZ_SER_STATUS_CREDIT

def naharSerialOut (s : State) (idx : Nat) : State × Option Byte :=
  match s.hz.serTx with
  | b :: r =>
    if s.hzCredit == 0 then (s, none)
    else ((s.put Reg.HZ_SER_STATUS Fl.HZ_SER_STATUS_CREDIT (s.hzCredit - 1)).modHz
      fun h => { h with serTx := r, credit := creditLaunched h.credit idx }, some b)
  | [] => (s, none)

def naharRelayOut (s : State) : State × Bool × Byte :=
  match s.hz.relay with
  | some r =>
    match r.bytes with
    | b :: rest => (s.modHz fun h => { h with relay := some { r with bytes := rest, start := false } }, r.start, b)
    | [] => (s, false, 0)
  | none => (s, false, 0)

def tref (fn slot : Nat) : Nat := 16 * fn + slot

/-- Word `k` of a staging message (Table 5-6). -/
def stagingBits (m : StageMsg) (k : Nat) : Nat :=
  if k = 0 then m.tref % 128 + 128 * (m.chan % 4) + 512 * (m.verdict % 16)
  else if k = 1 then m.lep % 2 ^ 16 else m.lep / 2 ^ 16 % 2 ^ 16

/-- R165 to R167: what the gate slot of the beat carries: kind, word index and content. -/
def gateSlotOut (s : State) (idx : Nat) : State × Nat × Nat × Nat :=
  match s.hz.second with
  | some (c, l) =>
    (s.modHz fun h => { h with second := none, sentQ := h.sentQ.map fun x => if x.first = l then { x with second := true } else x },
      1, 0, c.tref % 128 + 128 * (c.prog % 128))
  | none =>
    match s.hz.gateQ.find? fun c => s.hz.staged.contains c.tref with
    | some c =>
      (s.modHz fun h => { h with gateQ := h.gateQ.erase c, second := some (c, idx), sentQ := h.sentQ ++ [⟨c, idx, false⟩] },
        1, 0, c.tref % 128 + 128 * (c.prog % 128))
    | none =>
      match s.hz.stageQ.find? fun m => decide (m.sent < 3) with
      | some m =>
        let m' := { m with sent := m.sent + 1, lastIdx := if m.sent = 2 then some idx else none }
        (s.modHz fun h => { h with stageQ := h.stageQ.map fun x => if x.tref = m.tref then m' else x }, 2, m.sent, stagingBits m m.sent)
      | none => (s, 0, 0, 0)

/-- Nahar launches the beat of index `idx` (Tables 5-1, 5-3 and 5-4); `none` while it sends no beats. DEDUCED, log entry 79. -/
def naharCompose (s : State) (idx : Nat) : State × Option (BitVec 64) :=
  let st := s.hzState
  if st = 0 then (s, if s.hz.lost && s.flag Reg.HZ_CTRL Fl.HZ_CTRL_AUTO_TRAIN then some (trainingBeat 0) else none)
  else if st ≤ 3 then (s, some (trainingBeat st))
  else
    let hold := s.fsHoldNow
    let up := st == 5
    let x := if up then s.naharSerialOut idx else (s, none)
    let y := if up then x.1.naharRelayOut else (x.1, false, 0)
    let z := if up && !hold then y.1.gateSlotOut idx else (y.1, 0, 0, 0)
    let s := z.1.modHz fun h => { h with credit := creditSample h.credit idx h.serRx.length }
    let low := creditBits s.hz.credit idx + 4 * z.2.1 + 16 * z.2.2.1 + 64 * ofBool hold + 128 * ofBool (st == 6)
    (s, some (beatOf (beatBody idx s.miroBits z.2.2.2 x.2 y.2.1 y.2.2 low)))

/-- R143: the beats of the boundaries up to that of index `last` which have not been launched yet, from index `from` on. -/
def launchJens (s : State) (frm : Nat) : Nat → State
  | 0 => s
  | n + 1 =>
    let s := if frm < s.jens.launchedTo || !s.jensSends then s
      else
        let r := s.jensCompose frm
        r.1.modJens fun j => { j with flight := j.flight ++ [(frm, r.2)], launchedTo := frm + 1 }
    s.launchJens (frm + 1) n

def launchNahar (s : State) (frm : Nat) : Nat → State
  | 0 => s
  | n + 1 =>
    let s := if frm < s.hz.launchedTo then s
      else
        let r := s.naharCompose frm
        match r.2 with
        | some w => r.1.modHz fun h => { h with flight := h.flight ++ [(frm, w)], launchedTo := frm + 1 }
        | none => r.1.modHz fun h => { h with launchedTo := frm + 1 }
    s.launchNahar (frm + 1) n

/-- R144: the beat delivered at `20 idx + 80` was launched four boundaries earlier; the beat of index `idx + 4` is launched in this cycle. -/
def takeFieldBeat (s : State) (idx : Nat) : State × Option (BitVec 64) :=
  let s := s.launchJens idx 5
  (s.modJens fun j => { j with flight := j.flight.filter fun b => idx < b.1 }, (s.jens.flight.find? fun b => b.1 == idx).map (·.2))

def takeHostBeat (s : State) (idx : Nat) : State × Option (BitVec 64) :=
  let s := s.launchNahar idx 5
  (s.modHz fun h => { h with flight := h.flight.filter fun b => idx < b.1 }, (s.hz.flight.find? fun b => b.1 == idx).map (·.2))

/-! ## The relay on Nahar -/

/-- The next waiting access starts when the relay is free; host accesses come before Nahar's own (R177). -/
def relayNext (s : State) : State :=
  match s.hz.relay with
  | some _ => s
  | none =>
    match (s.hz.relayWait.find? fun r => r.path.isSome) <|> s.hz.relayWait.head? with
    | none => s
    | some r =>
      let seq := !s.hz.relaySeq
      s.modHz fun h => { h with relayWait := h.relayWait.erase r, relaySeq := seq,
                                relay := some ⟨r.op, r.path, r.addr, r.data, seq, relayRequest r.op seq r.addr r.data, true, 0⟩ }

def relayQueue (s : State) (r : RelayReq) : State := (s.modHz fun h => { h with relayWait := h.relayWait ++ [r] }).relayNext

/-- What a path's last read returned. -/
def readReturns (s : State) (p : Path) (w : Word) : State := s.setPath p { s.pathOf p with lastRead := some w }

/-- R183: a copy of MIR_ATTN. Bits 16 to 19 drive the gate-current source of the fault collector. -/
def attnCopy (s : State) (w : Word) : State :=
  let was := s.reg Reg.HZ_FIELD_ATTN
  let s := s.setReg Reg.HZ_FIELD_ATTN w
  let s := if was = 0 ∧ w ≠ 0 then s.put Reg.HZ_EVENT Fl.HZ_EVENT_ATTN 1 else s
  s.level 17 (getF w ⟨16, 4⟩ != 0)

/-- The transaction in flight ends with this answer; a read answers its path. -/
def relayEnd (s : State) (r : Relay) (answer : Option Word) : State :=
  let s := s.modHz fun h => { h with relay := none, relayRx := none }
  match r.op, r.path with
  | .read, some p => s.readReturns p (answer.getD 0xFFFFFFFF)
  | .read, none => match answer with | some w => s.attnCopy w | none => s
  | .write, _ => s

/-- R177: the counts of a failed transaction. -/
def relayFailCounts (s : State) (r : Relay) : State :=
  let s := (s.bump Reg.HZ_RELAY_ERR Fl.HZ_RELAY_ERR_TIMEOUT).put Reg.HZ_RELAY_ERR Fl.HZ_RELAY_ERR_ADDR r.addr
  s.put Reg.HZ_EVENT Fl.HZ_EVENT_RELAY_TIMEOUT 1

/-- R177: no response within 750 ns. -/
def relayTimeout (s : State) : State :=
  match s.hz.relay with
  | none => s
  | some r =>
    if r.attempt = 0 then
      if r.path.isNone && s.hz.relayWait.any fun x => x.path.isSome then
        ((s.modHz fun h => { h with relay := none, relayRx := none, relayWait := h.relayWait ++ [⟨r.op, r.path, r.addr, r.data⟩] })).relayNext
      else
        let again := { r with attempt := 1, bytes := relayRequest r.op r.seq r.addr r.data, start := true }
        (s.modHz fun h => { h with relayRx := none, relay := some again }).bump Reg.HZ_RELAY_ERR Fl.HZ_RELAY_ERR_RETRY
    else ((s.relayFailCounts r).relayEnd r none).relayNext

/-- A relay byte delivered to Nahar (R175, R177). -/
def naharRelayByte (s : State) (start : Bool) (b : Byte) : State :=
  let got := if start then some [b] else s.hz.relayRx.map (· ++ [b])
  match got, s.hz.relay with
  | some l, some r =>
    let need := if r.op = .read then 5 else 1
    let st := l.headD 0
    if l.length < need then s.modHz fun h => { h with relayRx := some l }
    else if st.getLsbD 2 = r.seq ∧ st.toNat % 4 = (match r.op with | .read => 1 | .write => 2) then
      (s.relayEnd r (some (bytesWord (l.drop 1)))).relayNext
    else s.modHz fun h => { h with relayRx := none }
  | _, _ => s.modHz fun h => { h with relayRx := none }

/-- R178: an access that waits ends as one does while the link is down: a read returns all ones. -/
def relayDown (s : State) (r : RelayReq) : State :=
  match r.op, r.path with
  | .read, some p => s.readReturns p 0xFFFFFFFF
  | _, _ => s

/-- R184: the transaction in flight fails. -/
def relayFails (s : State) : State :=
  match s.hz.relay with
  | some r => (s.relayFailCounts r).relayEnd r none
  | none => s

/-- R184, R178: every transaction in flight fails; the accesses that wait end as R178 gives while the link is down. -/
def relayAbort (s : State) : State :=
  let s := s.relayFails
  let s := s.hz.relayWait.foldl relayDown s
  s.modHz fun h => { h with relayWait := [], relay := none, relayRx := none }

/-! ## Acknowledgement (section 6.3) -/

/-- A transit the link has no way to send a command for (R167, R169, R170). -/
def unsent (s : State) (fn slot : Nat) : State := s.modHz fun h => { h with unsent := h.unsent ++ [(fn, slot)] }

/-- R169: the staging of a message has failed; commands that waited for it are removed (R167). -/
def stageFailed (s : State) (m : StageMsg) : State :=
  let s := s.modHz fun h => { h with stageQ := h.stageQ.filter fun x => x.tref != m.tref,
                                     gateQ := h.gateQ.filter fun c => c.tref != m.tref }
  let s := (s.put Reg.HZ_EVENT Fl.HZ_EVENT_STAGE_FAIL 1).bump Reg.HZ_GC_ERR Fl.HZ_GC_ERR_STAGE_FAIL
  s.unsent m.fn m.slot

/-- R168, R169: the staging message whose last word went in beat `idx - 5`. -/
def stageWindow (s : State) (idx : Nat) (ack : Bool) : State :=
  match s.hz.stageQ.find? fun m => match m.lastIdx with | some l => decide (l + 5 ≤ idx) | none => false with
  | none => s
  | some m =>
    if ack && m.lastIdx == some (idx - 5) then
      s.modHz fun h => { h with stageQ := h.stageQ.filter fun x => x.tref != m.tref, staged := m.tref :: h.staged }
    else if 3 ≤ m.attempts then s.stageFailed m
    else s.modHz fun h => { h with stageQ := (h.stageQ.filter fun x => x.tref != m.tref) ++
                                     [{ m with sent := 0, attempts := m.attempts + 1, lastIdx := none }] }

/-- R168, R170: the command whose first copy went in beat `idx - 5` or `idx - 6`. -/
def commandWindow (s : State) (idx : Nat) (ack : Bool) : State :=
  s.hz.sentQ.foldl (fun s c =>
    if ack && (c.first + 5 == idx || c.first + 6 == idx) then
      (s.modHz fun h => { h with sentQ := h.sentQ.erase c }).wrapBy Reg.HZ_GC Fl.HZ_GC_ACKED 1
    else if c.first + 6 ≤ idx then
      let s := s.modHz fun h => { h with sentQ := h.sentQ.erase c }
      let s := (s.put Reg.HZ_EVENT Fl.HZ_EVENT_GC_UNACKED 1).bump Reg.HZ_GC_ERR Fl.HZ_GC_ERR_UNACKED
      s.unsent c.cmd.fn c.cmd.slot
    else s) s

def ackWindow (s : State) (idx : Nat) (ack : Bool) : State := (s.stageWindow idx ack).commandWindow idx ack

/-- R166, R167: a gate command is issued; one whose transit has no staging is removed at once. -/
def issueCommand (s : State) (c : GateCmd) : State :=
  if s.hz.staged.contains c.tref || s.hz.stageQ.any (fun m => m.tref == c.tref)
  then s.modHz fun h => { h with gateQ := h.gateQ ++ [c] }
  else s.unsent c.fn c.slot

/-- R163: a staging message enters the queue. -/
def issueStaging (s : State) (m : StageMsg) : State :=
  s.modHz fun h => { h with stageQ := h.stageQ ++ [m], staged := h.staged.filter (· != m.tref) }

/-! ## Field-to-host beats on Nahar -/

/-- Nahar's link falls: what R184 and R529 do alike. -/
def linkDown (s : State) (st : Nat) : State :=
  let s := (s.setHzState st).put Reg.SYS_SVC Fl.SYS_SVC_HZ_OK 0
  let s := s.relayAbort
  s.modHz fun h => { h with gateQ := [], stageQ := [], sentQ := [], second := none, badRun := 0, zevHigh := none, attn := false,
                            staged := [] }

/-- R184: Horizon loss on Nahar. -/
def naharLoss (s : State) : State :=
  let s := (s.linkDown 0).modHz fun h => { h with lost := true }
  let s := (s.put Reg.HZ_EVENT Fl.HZ_EVENT_LOSS 1).bump Reg.HZ_LOSS Fl.HZ_LOSS_COUNT
  if s.chartOk then s.raise 16 else s

def naharCredit (s : State) (idx bits : Nat) (intact : Bool) : State :=
  let r := creditTake s.hz.credit idx bits intact
  let s := s.modHz fun h => { h with credit := r.1 }
  match r.2 with
  | some v => s.put Reg.HZ_SER_STATUS Fl.HZ_SER_STATUS_CREDIT v
  | none => s

/-- R147, R184: a bad field beat. -/
def naharBad (s : State) (idx : Nat) : State :=
  let s := s.bump Reg.HZ_BAD_RX Fl.HZ_BAD_RX_COUNT
  let s := (s.modHz fun h => { h with relayRx := none, zevHigh := none }).naharCredit idx 0 false
  let s := s.ackWindow idx false
  if s.hzUp then
    if s.hz.badRun + 1 = 8 then s.naharLoss else s.modHz fun h => { h with badRun := h.badRun + 1 }
  else s

/-- R158: FILTER_BEATS of an input. -/
def miriFilter (s : State) (k : Nat) : Nat := u8 s.field (0x30 + 2 * k) % 8

/-- R158: input `k` appears at this level in an intact beat; an accepted change is reported with the index of the first beat of its run. -/
def miriSample (s : State) (idx : Nat) (k : Fin 12) (v : Bool) : State × Option (Nat × Bool × Nat) :=
  if s.bit Reg.HZ_MIRI Fl.HZ_MIRI_IN k = v then (s.modHz fun h => { h with miriRun := h.miriRun.set k (0, 0) }, none)
  else
    let run := s.hz.miriRun[k]
    let n := run.1 + 1
    let first := if run.1 = 0 then idx else run.2
    if s.miriFilter k + 1 ≤ n then
      let s := (s.putBit Reg.HZ_MIRI Fl.HZ_MIRI_IN k v).modHz fun h => { h with miriRun := h.miriRun.set k (0, 0) }
      let s := if v then s.setBit Reg.HZ_MIRI_RISE Fl.HZ_MIRI_RISE_RISE k else s.setBit Reg.HZ_MIRI_FALL Fl.HZ_MIRI_FALL_FALL k
      (s, some (k, v, first))
    else (s.modHz fun h => { h with miriRun := h.miriRun.set k (n, first) }, none)

def miriAll (s : State) (idx bits : Nat) : State × List (Nat × Bool × Nat) :=
  (List.finRange 12).foldl (fun x k =>
    let r := x.1.miriSample idx k (bits.testBit k)
    (r.1, x.2 ++ r.2.toList)) (s, [])

/-- The samples of the last 1 024 µs that R348 keeps. -/
def keepSamples (idx : Nat) (l : List HwmSample) : List HwmSample := l.filter fun x => idx ≤ x.idx + 25600

/-- R160, R347: the position slot of an intact beat. -/
def posUpdate (s : State) (idx pos : Nat) : State :=
  let c := fin4 idx
  let p := s.hz.replica[c]
  let d := signed 16 (pos + 2 ^ 16 - p % 2 ^ 16)
  let p' := unsigned 40 ((p : Int) + d)
  let h' := if 0 < sdiff 40 p' s.hz.hwm[c] then p' else s.hz.hwm[c]
  s.modHz fun h => { h with replica := h.replica.set c p', hwm := h.hwm.set c h',
                            samples := h.samples.set c (⟨idx, h'⟩ :: keepSamples idx h.samples[c]) }

/-- R181: the event half of an intact beat; a pair equal to the last accepted is ignored. -/
def zevHalf (s : State) (idx nib : Nat) : State × Option Nat :=
  if idx % 2 = 0 then (s.modHz fun h => { h with zevHigh := some (nib, idx) }, none)
  else
    match s.hz.zevHigh with
    | none => (s, none)
    | some (hi, i) =>
      let s := s.modHz fun h => { h with zevHigh := none }
      let v := 16 * hi + nib
      if i + 1 ≠ idx ∨ v = 0x1F ∨ v = s.hz.zevLast then (s, none)
      else (s.modHz fun h => { h with zevLast := v }, some v)

/-- A byte at Nahar's receive FIFO (R173, R174). -/
def naharSerialIn (s : State) (b : Byte) : State :=
  if s.hz.serRx.length < 64 then s.modHz fun h => { h with serRx := h.serRx ++ [b] }
  else (s.bump Reg.HZ_SER_ERR Fl.HZ_SER_ERR_RX_DROP).put Reg.HZ_EVENT Fl.HZ_EVENT_SER_DROP 1

/-- R183: the first intact beat with ATTN = 1 makes Nahar read MIR_ATTN. -/
def attnBeat (s : State) (b : Bool) : State :=
  let was := s.hz.attn
  let s := s.modHz fun h => { h with attn := b }
  if b && !was then s.relayQueue ⟨.read, none, Reg.MIR_ATTN, 0⟩ else s

/-- What a field beat brings to acquisition: accepted MIRI changes and an accepted Zhombe event. -/
structure FieldNews where
  miri : List (Nat × Bool × Nat)
  zev : Option Nat
  intact : Bool
  deriving DecidableEq, Repr

/-- The fields of an intact data beat on Nahar. -/
def naharData (s : State) (idx : Nat) (w : BitVec 64) : State × FieldNews :=
  let s := s.modHz fun h => { h with badRun := 0 }
  if s.hzState < 4 then (s, ⟨[], none, false⟩)
  else
    let m := s.miriAll idx (beatBits w 50 12)
    let s := m.1.posUpdate idx (beatBits w 34 16)
    if !s.hzUp then (s, ⟨m.2, none, true⟩)
    else
      let s := if w.getLsbD 33 then s.naharSerialIn (BitVec.ofNat 8 (beatBits w 25 8)) else s
      let s := if w.getLsbD 24 || s.hz.relayRx.isSome then s.naharRelayByte (w.getLsbD 24) (BitVec.ofNat 8 (beatBits w 16 8)) else s
      let z := s.zevHalf idx (beatBits w 12 4)
      let s := z.1.naharCredit idx (beatBits w 10 2) true
      let s := s.ackWindow idx (w.getLsbD 9)
      (s.attnBeat (w.getLsbD 8), ⟨m.2, z.2, true⟩)

/-- A field-to-host beat is delivered to Nahar; `none` is a beat that did not arrive. -/
def naharReceive (s : State) (idx : Nat) (w : Option (BitVec 64)) : State × FieldNews :=
  match w with
  | none => (s.naharBad idx, ⟨[], none, false⟩)
  | some w =>
    if beatBad idx w then (s.naharBad idx, ⟨[], none, false⟩)
    else if beatTraining w then
      -- a training beat while UP is a loss (R184)
      (if s.hzUp then s.naharLoss else s, ⟨[], none, false⟩)
    else s.naharData idx w

/-! ## Training (section 3) -/

/-- R149: a full training starts. -/
def trainStart (s : State) : State :=
  (s.setHzState 1).modHz fun h => { h with trainStart := s.clk.ts, lost := false }

/-- Table 5-5, step 2. -/
def jensLocked (s : State) : State :=
  if s.hzState = 1 ∧ s.pw.vf then
    let s := (s.put Reg.CLK_STATUS Fl.CLK_STATUS_JENS_LOCK 1).put Reg.SYS_SVC Fl.SYS_SVC_JENS_OK 1
    s.setHzState 2
  else s

/-- Table 5-5, step 5: timestamp, and each channel's position into its replica and high-water mark (R47, R204). -/
def trainLoad (s : State) : State :=
  let p := Vector.ofFn fun c : Fin 4 => s.pfiPosition c
  let s := { s with clk := { s.clk with jts := s.clk.ts } }
  s.modHz fun h => { h with replica := p, hwm := p, samples := Vector.replicate 4 [] }

/-- A short retraining loads the replica but not the high-water mark (R154, R204). -/
def trainReload (s : State) : State :=
  let p := Vector.ofFn fun c : Fin 4 => s.pfiPosition c
  let s := { s with clk := { s.clk with jts := s.clk.ts } }
  s.modHz fun h => { h with replica := p }

/-! ### The configuration of Jens from the committed Chart (R161, R180, R214) -/

/-- Replace fields of a Jens register. -/
def jfields (s : State) (a : Nat) (l : List (Fld × Nat)) : State := s.setJreg a (l.foldl (fun w x => putF w x.1 x.2) (s.jreg a))

/-- A channel's configuration; a change of it restarts the channel (R200). -/
def loadPfi (s : State) (c : Fin 4) (was : Word) : State :=
  let o := 0x48 + 8 * c.val
  let f := u8 s.field (o + 1)
  let s := s.jfields (Reg.PFI_CFG c) [(Fl.PFI_CFG_MODE, u8 s.field o), (Fl.PFI_CFG_FILTER, f / 2), (Fl.PFI_CFG_TEETH, u16 s.field (o + 2)),
    (Fl.PFI_CFG_REF_KIND, u8 s.field (o + 4)), (Fl.PFI_CFG_DIR_INVERT, u8 s.field (o + 5))]
  if s.jreg (Reg.PFI_CFG c) = was then s else s.pfiRestart c

def loadMiro (s : State) : State :=
  s.modJens fun j => { j with miroMap := Vector.ofFn fun k : Fin 12 =>
    ⟨u8 s.field (4 * k.val), u8 s.field (4 * k.val + 1), u8 s.field (4 * k.val + 2) != 0⟩ }

/-- The structure fields of Jens that FIELD gives. DEDUCED, log entry 62. -/
def loadField (s : State) (cfg : Vector Word 4) : State :=
  if !s.hasSec 0x05 0 then s
  else
    let s := s.loadMiro
    let s := (List.finRange 4).foldl (fun s c => s.loadPfi c cfg[c]) s
    let s := (List.finRange 2).foldl (fun s e => s.emuSetSource e (u8 s.field (0x68 + 16 * e.val))) s
    let s := (List.range 2).foldl (fun s p => s.jput (Reg.PAS_CFG p) Fl.PAS_CFG_SOURCE_PFI (u8 s.field (0x88 + 4 * p))) s
    let s := (List.range 4).foldl (fun s k =>
        (s.jfields (Reg.GHS_CFG k) [(Fl.GHS_CFG_MAX_DEFERRAL_US, u16 s.field (0x90 + 8 * k)), (Fl.GHS_CFG_PWM_FREQ_HZ, u16 s.field (0x94 + 8 * k))]).jput
          (Reg.GHS_SENSE k) Fl.GHS_SENSE_ISNS_LIMIT_MA (u16 s.field (0x92 + 8 * k))) s
    let s := (List.range 8).foldl (fun s j => s.jfields (Reg.GLS_LIMIT j) [(Fl.GLS_LIMIT_PEAK_MIN, u8 s.field (0xB0 + 8 * j)),
        (Fl.GLS_LIMIT_PEAK_MAX, u8 s.field (0xB1 + 8 * j)), (Fl.GLS_LIMIT_HOLD_DUTY_MAX, u8 s.field (0xB2 + 8 * j))]) s
    let s := s.jput Reg.FSP_CFG Fl.FSP_CFG_ROLE (u8 s.field 0xF0)
    if s.fspActive then s else s.fspLatch

/-- The nodes a ZHOMBE section lists (R81). -/
def listedNodes (s : State) (l : Nat) : List ZlNode :=
  let d := s.sec 0x06 l
  (List.range (u8 d 1)).map fun i => ⟨u8 d (8 + 16 * i), u8 d (9 + 16 * i), u32 d (12 + 16 * i) + 2 ^ 32 * u16 d (16 + 16 * i)⟩

def loadZhombe (s : State) (l : Fin 2) : State :=
  let d := s.sec 0x06 l
  let s := s.jfields (Reg.ZL_CFG l) [(Fl.ZL_CFG_ENABLE, u8 d 0), (Fl.ZL_CFG_NODE_COUNT, u8 d 1)]
  s.modZl l fun z => { z with listed := s.listedNodes l }

/-- The gate-program table (R161). -/
def gateImage (c : Chart) : List Host.Cell :=
  ((List.range 16).flatMap fun v => (List.range 65).flatMap fun p =>
    ((c.gateProgram v p).zipIdx.filterMap fun x =>
      if x.1 = 0 then none else some (gateEntry v p + x.2, BitVec.ofNat 8 x.1)))

def loadGates (s : State) : State :=
  match s.chart with
  | some c => s.modJens fun j => { j with gateTable := gateImage c }
  | none => s

/-- R180: Nahar writes its whole shadow to Jens. -/
def replayShadow (s : State) : State :=
  s.shadow.foldl (fun s x => match fieldReg x.1 with
    | none => s
    | some d => s.setJreg x.1 (d.fields.foldl (fun w f => if accSettable f.acc then putF w f.fld (getF x.2 f.fld) else w) (s.jreg x.1))) s

/-- The kept fields of a register (R200, R206); a register reset leaves them alone. -/
def keptWord (d : RegD) (reset w : Word) : Word := d.fields.foldl (fun v f => if f.kept then putF v f.fld (getF w f.fld) else v) reset

/-- Table 5-5, step 6: every field register to its reset value, apart from the kept state; staging table, serial FIFOs and event queue
cleared. -/
def jensRegReset (s : State) : State :=
  let step := fun (l : List (Nat × Word)) (x : Nat × Word) =>
    match fieldReg x.1 with
    | some d => cellsSet fieldReset l x.1 (keptWord d (fieldReset x.1) x.2)
    | none => l
  let s := { s with fregs := s.fregs.foldl step [] }
  s.modJens fun j => { j with
    staging := [], stageRx := [], ackDue := [], serTx := [], serRx := [], relayRx := none, relayLast := none, relayTx := [], zevQ := [],
    zevCur := none, firings := [], active := Vector.replicate 8 none, blankEnd := Vector.replicate 4 0, gateTable := [],
    credit := creditReset, zl := Vector.replicate 2 zlReset, badRun := 0, flight := [],
    fsp := { j.fsp with wordsLeft := 0, fromFifo := false, deaf := false } }

/-- R206: a ratio that the replay changes sets the accumulator to 0. -/
def ratioChanged (s : State) (e : Fin 2) (was : Word) : State :=
  if s.jreg (Reg.EMU_RATIO e) = was then s else s.modJens fun j => { j with emu := j.emu.set e { j.emu[e] with acc := 0 } }

/-- Table 5-5, steps 6 to 8: register reset, replay and load, UP. The emulators stay frozen until fail-safe ends. -/
def trainReplay (s : State) : State :=
  let cfg := Vector.ofFn fun c : Fin 4 => s.jreg (Reg.PFI_CFG c)
  let src := Vector.ofFn fun e : Fin 2 => s.jget (Reg.EMU_CFG e) Fl.EMU_CFG_SOURCE_PFI
  let ratio := Vector.ofFn fun e : Fin 2 => s.jreg (Reg.EMU_RATIO e)
  let s := (s.emuFollow 0).emuFollow 1
  let s := s.jensRegReset
  -- the source of an emulator is structure, not a COMMIT's change of it
  let s := (List.finRange 2).foldl (fun s e => s.jput (Reg.EMU_CFG e) Fl.EMU_CFG_SOURCE_PFI src[e]) s
  let s := s.replayShadow
  let s := (s.ratioChanged 0 ratio[0]).ratioChanged 1 ratio[1]
  let s := s.loadField cfg
  let s := ((s.loadZhombe 0).loadZhombe 1).loadGates
  if s.fspActive then s else s.fspLatch

/-- Table 5-5, step 8, and R204: Horizon reaches UP; fail-safe is released; the Zhombe lines start (R271). DEDUCED, log entry 53. -/
def trainUp (s : State) (short : Bool) : State :=
  let us := (s.clk.ts - s.hz.trainStart) / 500
  let s := s.setHzState 5
  let s := (s.put Reg.SYS_SVC Fl.SYS_SVC_HZ_OK 1).put Reg.HZ_EVENT Fl.HZ_EVENT_TRAINED 1
  let s := (s.putFlag Reg.HZ_STATUS Fl.HZ_STATUS_LAST_SHORT short).put Reg.HZ_STATUS Fl.HZ_STATUS_TRAIN_TIME_US (min us 0xFFFF)
  let s := s.modHz fun h => { h with badRun := 0, lost := false, flight := [], relayRx := none, zevHigh := none,
                                     launchedTo := s.clk.ts / 20, credit := { h.credit with good := 0, launched := [] } }
  s.modJens fun j => { j with flight := [], launchedTo := s.clk.ts / 20 }

/-- SYS_JENS_ID after a full training: Jens's identification, and the cause of its most recent reset (R63). -/
def jensId (s : State) : State :=
  let s := s.setReg Reg.SYS_JENS_ID (s.jreg Reg.MIR_FIELD_ID)
  let s := s.put Reg.SYS_JENS_ID Fl.SYS_JENS_ID_JENS_RESET (if s.pw.vfPor then 1 else 2)
  { s with pw := { s.pw with vfPor := false } }

def trainedFull (s : State) : State :=
  let s := s.trainLoad.trainReplay.jensId
  let s := s.trainUp false
  let s := s.put Reg.HZ_SER_STATUS Fl.HZ_SER_STATUS_CREDIT 64
  let s := s.modJens fun j => { j with fsUntrained := false, fsLoss := false, fsKeep := false, fsDetector := false, fsHold := s.fsHoldNow,
                                       sendsTraining := false }
  let s := (s.jput Reg.MIR_STATE Fl.MIR_STATE_DETECTOR 0).jput Reg.MIR_STATE Fl.MIR_STATE_FAILSAFE 1
  let s := s.fsUpdate
  (s.zlStart 0).zlStart 1

def trainFail (s : State) (step : Nat) : State :=
  let s := (s.put Reg.HZ_EVENT Fl.HZ_EVENT_TRAIN_FAIL 1).put Reg.HZ_STATUS Fl.HZ_STATUS_FAIL_STEP step
  if s.flag Reg.HZ_CTRL Fl.HZ_CTRL_AUTO_TRAIN then s.trainStart else s.setHzState 0

end State

end Sys2Proof.Machine
end

