-- ==== Sys2Proof/Machine/Lanes.lean ====
section
/-! DEFINITION. Camera lanes: physical layer (chapter 9). -/
namespace Sys2Proof.Machine

/-! ## Symbols (section 2) -/

/-- R281: the level index of a bit pair (b1, b0), and the line level of an index. -/
def grayIndex (b1 b0 : Bool) : Nat := 2 * ofBool b1 + ofBool (b1 != b0)
def lineLevel (g : Nat) : Int := 2 * (g : Int) - 3
/-- R282: POLARITY_INVERT turns index k into 3 - k. -/
def invertIndex (inv : Bool) (k : Nat) : Nat := if inv then 3 - k else k

/-- R283: the line index sent for `g` after line index `p`, and its decoding. -/
def precode (p g : Nat) : Nat := (g + 4 - p % 4) % 4
def precodeDecode (p q : Nat) : Nat := (q + p) % 4

/-- R283 over a run of symbols: `p` is the line index before the first. -/
def precodeRun : Nat → List Nat → List Nat
  | _, [] => []
  | p, g :: r => precode p g :: precodeRun (precode p g) r
def decodeRun : Nat → List Nat → List Nat
  | _, [] => []
  | p, q :: r => precodeDecode p q :: decodeRun q r

/-- R293: q_n of a sample at distance `d` from the nearest threshold, with amplitude reference `a`. -/
def efmSample (d a : Nat) : Nat := min 255 (256 * d / a)
/-- R293: the EFM of a window, the `rank`-th smallest q_n (1 024th over 2^20 symbols). -/
def efmOf (rank : Nat) (q : List Nat) : Nat := (q.mergeSort (· ≤ ·)).getD (rank - 1) 255

def intClamp (lo hi v : Int) : Int := max lo (min hi v)

end Sys2Proof.Machine

namespace Sys2Proof

/-- R291: taps held at the ends of their ranges. -/
def Taps.clamp (t : Taps) : Taps :=
  ⟨Machine.intClamp (-64) 63 t.h1, Machine.intClamp (-32) 31 t.h2, Machine.intClamp (-32) 31 t.h3, Machine.intClamp (-32) 31 t.h4, Machine.intClamp (-32) 31 t.h5,
    Machine.intClamp 0 255 t.amp⟩

def Taps.add (a b : Taps) : Taps := ⟨a.h1 + b.h1, a.h2 + b.h2, a.h3 + b.h3, a.h4 + b.h4, a.h5 + b.h5, a.amp + b.amp⟩

/-- R297: the change an accumulator proposes. -/
def proposal (acc : Int) : Int := if 4096 ≤ acc then 1 else if acc ≤ -4096 then -1 else 0
def Taps.propose (a : Taps) : Taps := ⟨proposal a.h1, proposal a.h2, proposal a.h3, proposal a.h4, proposal a.h5, proposal a.amp⟩
def Taps.zero : Taps := ⟨0, 0, 0, 0, 0, 0⟩

end Sys2Proof

namespace Sys2Proof.Machine

namespace State

def lane (s : State) (x : Fin 16) : Lane := s.lanes[x]
def modLane (s : State) (x : Fin 16) (f : Lane → Lane) : State := { s with lanes := s.lanes.set x (f s.lanes[x]) }

/-! ## Roles and structure (R277) -/

def refMode (s : State) (p : Nat) : Nat := u8 (s.portSec p) 0
/-- ROLE of Table 9-12: 0 UNUSED, 1 RX data, 2 RX forwarded clock, 3 TX0. -/
def laneRole (s : State) (x : Nat) : Nat :=
  let r := x % 4
  if !s.hasSec 0x03 (x / 4) then 0 else if r = 3 then 3 else if r = 2 ∧ s.refMode (x / 4) = 0 then 2 else 1

/-- LNx_CFG as the committed PORT and LANE sections give it. -/
def laneCfg (s : State) (x : Nat) : Word :=
  let role := s.laneRole x
  if role = 0 then 0
  else
    let e := s.laneEntry (x / 4) (x % 4)
    let w := role + 4 * s.refMode (x / 4) + 16 * (u8 (s.portSec (x / 4)) 0x1C % 2)
    BitVec.ofNat 32 (if role = 3 then w + 2 ^ 24 * (e 0 % 4) else w + 8 * (e 3 % 2) + 2 ^ 8 * (e 0 % 32) + 2 ^ 16 * e 1)

def ctleInit (s : State) (x : Nat) : Nat := s.laneEntry (x / 4) (x % 4) 0
def laneRevert (s : State) (x : Nat) : Nat := s.laneEntry (x / 4) (x % 4) 1

def laneState (s : State) (x : Nat) : Nat := s.get (Reg.LN_STATE x) Fl.LN_STATE_STATE
def setLaneState (s : State) (x v : Nat) : State := s.put (Reg.LN_STATE x) Fl.LN_STATE_STATE v
def laneLocked (s : State) (x : Nat) : Bool := s.flag (Reg.LN_STATE x) Fl.LN_STATE_LOCK
def laneActive (s : State) (x : Nat) : Bool := s.laneState x == 3
def setLock (s : State) (x : Nat) (b : Bool) : State := s.putFlag (Reg.LN_STATE x) Fl.LN_STATE_LOCK b
def laneEvent (s : State) (x : Nat) (f : Fld) : State := s.put (Reg.LN_EVENT x) f 1

/-- R308: LN counts saturate, and hold while CNT_FREEZE is 1. -/
def laneCount (s : State) (x off : Nat) (f : Fld) : State :=
  if s.flag (Reg.LN_CTRL x) Fl.LN_CTRL_CNT_FREEZE then s else s.bump off f

/-- The accepted tap set, in LNx_TAPS0 and LNx_TAPS1. -/
def laneTaps (s : State) (x : Nat) : Taps :=
  let a := Reg.LN_TAPS0 x
  let b := Reg.LN_TAPS1 x
  ⟨signed 7 (s.get a Fl.LN_TAPS0_H1), signed 6 (s.get a Fl.LN_TAPS0_H2), signed 6 (s.get a Fl.LN_TAPS0_H3),
    signed 6 (s.get a Fl.LN_TAPS0_H4), signed 6 (s.get b Fl.LN_TAPS1_H5), s.get b Fl.LN_TAPS1_AMP⟩

def setTaps (s : State) (x : Nat) (t : Taps) : State :=
  let a := unsigned 7 t.h1 + 2 ^ 8 * unsigned 6 t.h2 + 2 ^ 16 * unsigned 6 t.h3 + 2 ^ 24 * unsigned 6 t.h4
  let b := unsigned 6 t.h5 + 2 ^ 8 * unsigned 8 t.amp
  (s.setReg (Reg.LN_TAPS0 x) (BitVec.ofNat 32 a)).setReg (Reg.LN_TAPS1 x) (BitVec.ofNat 32 b)

/-- Every tap 0 and A at mid-scale, CTLE at CTLE_INIT (Table 9-8, step 1; R302). -/
def laneFreshEq (s : State) (x : Nat) : State :=
  (s.setTaps x { Taps.zero with amp := 128 }).put (Reg.LN_STATE x) Fl.LN_STATE_CTLE (s.ctleInit x)

/-! ## Requests (R280) -/

/-- A lane that failed offset calibration refuses every request (R305). -/
def laneRefuses (s : State) (x : Nat) : Bool := s.flag (Reg.LN_CAL x) Fl.LN_CAL_FAIL || s.laneRole x == 0

/-- OFF, in the cycle of the request, whatever the lane is doing. -/
def laneOff (s : State) (x : Fin 16) : State :=
  let s := if s.laneState x = 2 then s.put (Reg.LN_ACQ x) Fl.LN_ACQ_RESULT 4 else s
  let s := s.setReg (Reg.LN_STATE x) (s.reg (Reg.LN_STATE x) &&& 0x1F00)
  s.modLane x fun l => { l with trial := none, forced := false }

/-- An RX lane is asked to acquire (Table 9-8, step 1). -/
def laneAcquire (s : State) (x : Fin 16) : State :=
  if s.laneRefuses x then s
  else
    let s := ((s.laneOff x).laneFreshEq x).setLaneState x 2
    s.modLane x fun l => { l with start := s.clk.ts, lockFrom := s.clk.ts, fresh := true }

/-- TX0 is asked to start (Table 9-10, step 1). -/
def laneSettle (s : State) (x : Fin 16) : State :=
  if s.laneRefuses x then s
  else
    let s := ((s.laneOff x).setLaneState x 6).bump (Reg.LN_SYN x) Fl.LN_SYN_CAL_COUNT
    s.modLane x fun l => { l with start := s.clk.ts }

def laneFault (s : State) (x : Fin 16) : State := (s.laneOff x).setLaneState x 7

/-! ## Acquisition (R295, R296) -/

/-- LNx_ACQ.TIME: units of 100 µs since the request. -/
def acqTime (s : State) (x : Fin 16) : Nat := min 255 ((s.clk.ts - (s.lane x).start) / 50000)

def acqFail (s : State) (x : Fin 16) (result : Nat) : State :=
  let s := (s.laneFault x).put (Reg.LN_ACQ x) Fl.LN_ACQ_RESULT result
  let s := (s.put (Reg.LN_ACQ x) Fl.LN_ACQ_TIME (s.acqTime x)).laneEvent x Fl.LN_EVENT_ACQ_FAIL
  s.laneCount x (Reg.LN_CNT1 x) Fl.LN_CNT1_ACQ_FAIL

/-- A lane reaches ACTIVE with BASE set. -/
def laneEnterActive (s : State) (x : Fin 16) (efm : Nat) : State :=
  let s := s.setLaneState x 3
  let s := (s.put (Reg.LN_EFM x) Fl.LN_EFM_LAST efm).put (Reg.LN_EFM x) Fl.LN_EFM_BASE efm
  let s := s.put (Reg.LN_EFM x) Fl.LN_EFM_LAST_REVERTED 0
  s.modLane x fun l => { l with fresh := true, trial := none, forced := false }

/-- An RX2 lane in forwarded-clock mode runs steps 1 to 3 only. -/
def clockActive (s : State) (x : Fin 16) (ev : Fld) : State :=
  let s := (s.setLaneState x 3).put (Reg.LN_STATE x) Fl.LN_STATE_CLK_OK 1
  s.laneEvent x ev

/-- Phase lock of an acquiring or lost RX lane (Table 9-8, step 3; R300, R301). -/
def phaseLock (s : State) (x : Fin 16) : State :=
  let role := s.laneRole x
  let st := s.laneState x
  if st = 2 ∧ !s.laneLocked x then
    let s := s.setLock x true
    if role = 2 then
      let s := (s.put (Reg.LN_ACQ x) Fl.LN_ACQ_RESULT 1).put (Reg.LN_ACQ x) Fl.LN_ACQ_TIME (s.acqTime x)
      s.clockActive x Fl.LN_EVENT_ACQ_DONE
    else s
  else if st = 4 ∧ role = 2 then (s.setLock x true).clockActive x Fl.LN_EVENT_RELOCKED
  else if st = 4 ∧ role = 1 then (s.setLock x true).setLaneState x 5
  else s

/-- Table 9-8, steps 6 and 7: CTLE chosen, the taps reached, and the EFM of the final window. -/
def acqDone (s : State) (x : Fin 16) (ctle efm : Nat) (taps : Taps) (sat : Bool) : State :=
  if s.laneState x = 2 ∧ s.laneLocked x ∧ s.laneRole x = 1 then
    let s := (s.put (Reg.LN_ACQ x) Fl.LN_ACQ_CTLE ctle).put (Reg.LN_ACQ x) Fl.LN_ACQ_EFM efm
    let s := if sat then s.laneEvent x Fl.LN_EVENT_TAP_SAT else s
    if efm < 16 then s.acqFail x 3
    else
      let s := (s.put (Reg.LN_ACQ x) Fl.LN_ACQ_RESULT 1).put (Reg.LN_ACQ x) Fl.LN_ACQ_TIME (s.acqTime x)
      let s := (s.setTaps x taps.clamp).put (Reg.LN_STATE x) Fl.LN_STATE_CTLE ctle
      (s.laneEnterActive x efm).laneEvent x Fl.LN_EVENT_ACQ_DONE
  else s

/-- R296: no phase lock within 200 µs. -/
def acqNoLock (s : State) (x : Fin 16) : State :=
  if s.laneState x = 2 ∧ !s.laneLocked x then s.acqFail x 2 else s

/-! ## Continuous adaptation (R297 to R299) -/

/-- R299: the EFM_LOW test of a window that is measure-only or accepted. -/
def efmTest (s : State) (x : Fin 16) (m : Nat) : State :=
  let s := s.put (Reg.LN_EFM x) Fl.LN_EFM_MIN (min m (s.get (Reg.LN_EFM x) Fl.LN_EFM_MIN))
  if m < s.get (Reg.LN_EFM_LOW x) Fl.LN_EFM_LOW_THRESHOLD then
    (s.laneEvent x Fl.LN_EVENT_EFM_LOW).laneCount x (Reg.LN_CNT0 x) Fl.LN_CNT0_EFM_LOW_EPOCHS
  else s

def setBase (s : State) (x m : Nat) : State := s.put (Reg.LN_EFM x) Fl.LN_EFM_BASE m

/-- R298: the window of an epoch ends with EFM `m`. -/
def windowEnd (s : State) (x : Fin 16) (m : Nat) : State :=
  if s.laneState x ≠ 3 ∨ s.laneRole x ≠ 1 ∨ (s.lane x).fresh then s
  else
    let base := s.get (Reg.LN_EFM x) Fl.LN_EFM_BASE
    let s := (s.put (Reg.LN_EFM x) Fl.LN_EFM_LAST m).put (Reg.LN_EFM x) Fl.LN_EFM_LAST_REVERTED 0
    match (s.lane x).trial with
    | none => (s.setBase x m).efmTest x m
    | some h =>
      if base ≤ m + s.laneRevert x then
        (((s.setTaps x h).setBase x m).modLane x fun l => { l with trial := none }).efmTest x m
      else
        let s := (s.laneCount x (Reg.LN_CNT0 x) Fl.LN_CNT0_REVERTS).put (Reg.LN_EFM x) Fl.LN_EFM_LAST_REVERTED 1
        s.modLane x fun l => { l with trial := none, forced := true }

/-- R297: the epoch ends with these accumulators; the next epoch is a trial or measure-only. -/
def epochEnd (s : State) (x : Fin 16) (acc : Taps) : State :=
  if s.laneState x ≠ 3 ∨ s.laneRole x ≠ 1 then s
  else if (s.lane x).fresh then s.modLane x fun l => { l with fresh := false }
  else
    let s := s.wrapBy (Reg.LN_EPOCH x) Fl.LN_EPOCH_COUNT 1
    let d := acc.propose
    let want := (s.laneTaps x).add d
    let h := want.clamp
    let go := d != Taps.zero && !(s.lane x).forced && !s.flag (Reg.LN_CTRL x) Fl.LN_CTRL_ADAPT_HOLD
    let s := if go && h != want then (s.laneEvent x Fl.LN_EVENT_TAP_SAT).laneCount x (Reg.LN_CNT1 x) Fl.LN_CNT1_TAP_SAT else s
    let s := s.putFlag (Reg.LN_STATE x) Fl.LN_STATE_TRIAL go
    s.modLane x fun l => { l with trial := if go then some h else none, forced := false }

/-! ## Lock loss and reacquisition (R300 to R302) -/

def cdrLoss (s : State) (x : Fin 16) : State :=
  (s.laneCount x (Reg.LN_CNT1 x) Fl.LN_CNT1_CDR_LOSS).laneEvent x Fl.LN_EVENT_CDR_LOSS

/-- A lock loss of an RX data lane. -/
def lockLoss (s : State) (x : Fin 16) : State :=
  let st := s.laneState x
  if s.laneRole x ≠ 1 then s
  else if st = 3 ∨ st = 5 then
    let s := (s.setLock x false).put (Reg.LN_STATE x) Fl.LN_STATE_TRIAL 0
    ((s.setLaneState x 4).modLane x fun l => { l with trial := none, forced := false }).cdrLoss x
  else if st = 2 ∧ s.laneLocked x then
    ((((s.setLock x false).laneFreshEq x).modLane x fun l => { l with lockFrom := s.clk.ts })).cdrLoss x
  else s

/-- R301: the forwarded clock of port `p` is lost. -/
def clockLoss (s : State) (p : Fin 4) : State :=
  let x := fin16 (4 * p.val + 2)
  let st := s.laneState x
  if s.laneRole x ≠ 2 ∨ (st ≠ 3 ∧ !(st == 2 && s.laneLocked x)) then s
  else
    let s := ((s.setLock x false).put (Reg.LN_STATE x) Fl.LN_STATE_CLK_OK 0).setLaneState x 4
    let s := s.laneEvent x Fl.LN_EVENT_CLK_LOSS
    let s := s.laneCount x (Reg.LN_CNT1 x) Fl.LN_CNT1_CDR_LOSS
    (s.lockLoss (fin16 (4 * p.val))).lockLoss (fin16 (4 * p.val + 1))
where
  fin16 (n : Nat) : Fin 16 := ⟨n % 16, Nat.mod_lt _ (by decide)⟩

/-- R300: the window of a reacquisition ends with EFM `efm`. -/
def reacqDone (s : State) (x : Fin 16) (efm : Nat) (taps : Taps) : State :=
  if s.laneState x = 5 then
    if efm < 16 then s.acqFail x 3
    else ((s.setTaps x taps.clamp).laneEnterActive x efm).laneEvent x Fl.LN_EVENT_RELOCKED
  else s

/-! ## TX0 synthesiser (R303, R304) -/

def synLock (s : State) (x : Fin 16) : State :=
  if s.laneState x = 6 then
    let s := (s.setLock x true).setLaneState x 3
    s.put (Reg.LN_SYN x) Fl.LN_SYN_SETTLE_US (min 0xFFFF ((s.clk.ts - (s.lane x).start) / 500))
  else s

def synTimeout (s : State) (x : Fin 16) : State :=
  if s.laneState x = 6 then (s.laneFault x).laneEvent x Fl.LN_EVENT_SYN_TIMEOUT else s

/-- The output goes idle, the lane enters LOST and at once SETTLE again. -/
def synLoss (s : State) (x : Fin 16) : State :=
  if s.laneState x = 3 ∧ s.laneRole x = 3 then
    let s := (s.laneEvent x Fl.LN_EVENT_SYN_LOCK_LOST).laneCount x (Reg.LN_CNT1 x) Fl.LN_CNT1_SYN_LOSS
    let s := ((s.setLock x false).setLaneState x 6).bump (Reg.LN_SYN x) Fl.LN_SYN_CAL_COUNT
    s.modLane x fun l => { l with start := s.clk.ts }
  else s

/-! ## Offset calibration (R305, R306) -/

/-- The calibration of lane `x` ends. -/
def calResult (s : State) (x : Fin 16) (pass : Bool) : State :=
  let s := if s.laneState x = 1 then s.setLaneState x 0 else s
  let s := s.put (Reg.LN_CAL x) Fl.LN_CAL_DONE 1
  if pass then s.put (Reg.LN_CAL x) Fl.LN_CAL_FAIL 0
  else (s.put (Reg.LN_CAL x) Fl.LN_CAL_FAIL 1).laneEvent x Fl.LN_EVENT_CAL_FAIL

/-- LNx_CAL.RECAL written with 1. -/
def laneRecal (s : State) (x : Fin 16) : State :=
  if s.laneState x = 0 ∧ x.val % 4 ≠ 3 then s.setLaneState x 1 else s.laneEvent x Fl.LN_EVENT_CAL_REFUSED

def laneCntClear (s : State) (x : Fin 16) : State :=
  ((s.setReg (Reg.LN_CNT0 x) 0).setReg (Reg.LN_CNT1 x) 0).put (Reg.LN_EFM x) Fl.LN_EFM_MIN 255

/-- Lanes OFF in SLEEP, in PARK and from step 2 of the PARK entry. -/
def lanesOff (s : State) : State := (List.finRange 16).foldl (fun s x => s.laneOff x) s

end State

end Sys2Proof.Machine
end

