-- ==== Sys2Proof/Machine/Transit.lean ====
section
/-! DEFINITION. Memories, transits and positions: opening, edges, flags and the lines of a transit (chapter 11, sections 1 to 4). -/
namespace Sys2Proof.Machine

/-! ## Memories -/

def Memory.read (m : Memory) (id a : Nat) : Byte := (cellsGet? m.cells a).getD (Config.freeByte id m.epoch a)
def Memory.write (m : Memory) (a : Nat) (b : Byte) : Memory := { m with cells := cellsPut m.cells a b }
def Memory.writeList (m : Memory) (a : Nat) : List Byte → Memory
  | [] => m
  | b :: r => (m.write a b).writeList (a + 1) r
/-- The contents are lost: the next reads are free again. -/
def Memory.lose (m : Memory) : Memory := ⟨m.epoch + 1, []⟩

def stsId : Nat := 0
def wsId : Nat := 1
def chtId : Nat := 2
def mceLbId : Nat := 3
def eleLbId : Nat := 4
def tdrId : Nat := 5
def flashId : Nat := 6

def putCells (m : List Host.Cell) (a : Nat) : List Byte → List Host.Cell
  | [] => m
  | b :: r => putCells (cellsPut m a b) (a + 1) r

namespace State

/-- A fresh free value of `w` bits (DESIGN CHOICE, log entry 3). -/
def free (s : State) (w : Nat) : State × Nat := ({ s with freeCtr := s.freeCtr + 1 }, (Config.freeWord w s.freeCtr).toNat)

/-! ## Structure -/

/-- CLOCK (Table 3-5). -/
def chainLength (s : State) : Nat := u8 (s.sec 0x02 0) 2
def chainPos (s : State) : Nat := u8 (s.sec 0x02 0) 3
/-- A cascade follower: a module of a chain whose position is not the lead's. -/
def follower (s : State) : Bool := decide (1 < s.chainLength) && s.chainPos != 0

def fnRoute (s : State) (n src sink : Nat) : Bool := s.routes.any fun r => r.1 == n && r.2.1 == src && r.2.2 == sink
def fnSink (s : State) (n sink : Nat) : Bool := s.routes.any fun r => r.1 == n && r.2.2 == sink

def fnChan (s : State) (n : Nat) : Nat := s.fnTrigger n % 4
def stripeLines (s : State) (n : Nat) : Nat := s.fnStripeLines n
/-- RATIO_LINES and RATIO_COUNTS; 1 and 1 for a line-timer function (R355, R359). -/
def ratioLines (s : State) (n p : Nat) : Nat := if s.fnLineTimer n then 1 else u16 (s.portSec p) 8
def ratioCounts (s : State) (n p : Nat) : Nat := if s.fnLineTimer n then 1 else u16 (s.portSec p) 0x0A
def decimX (s : State) (p : Nat) : Nat := u8 (s.portSec p) 0x12
def decimY (s : State) (p : Nat) : Nat := u8 (s.portSec p) 0x13
def portSide (s : State) (p : Nat) : Nat := u8 (s.portSec p) 0x1C / 2 % 2
def fillByte (s : State) (n : Nat) : Byte := BitVec.ofNat 8 (s.get (Reg.ACQ_FN_CTRL n) Fl.ACQ_FN_CTRL_FILL)

/-- Steps of a function's program, and step `k` (R86). -/
def stepCount (s : State) (n : Nat) : Nat := match s.fnProgram n with | some p => u16 (s.sec 0x11 p) 2 | none => 0
def stepBytes (s : State) (n k : Nat) : List Nat := match s.fnProgram n with | some p => ((s.sec 0x11 p).drop (8 + 64 * k)).take 64 | none => []

/-! ## Positions (R343) -/

/-- The function's position H, 40 bits in 1/256 count. -/
def fnH (s : State) (n : Nat) : Nat :=
  if s.fnLineTimer n then 256 * (s.reg (Reg.LTG_TMR_COUNT n)).toNat
  else if s.follower then s.cas.hwm[fin4 (s.fnChan n)] else s.hz.hwm[fin4 (s.fnChan n)]

def fnReplica (s : State) (n : Nat) : Nat :=
  if s.follower then s.cas.replica[fin4 (s.fnChan n)] else s.hz.replica[fin4 (s.fnChan n)]

/-- H less 256 times a position in counts, under R199. -/
def past (s : State) (n : Nat) (x : Int) : Int := sdiff 40 (s.fnH n) (unsigned 40 (256 * x))

/-- Whole counts of the position. -/
def fnPos (s : State) (n : Nat) : Nat := s.fnH n / 256 % 2 ^ 32

/-! ## Transits -/

def transit? (s : State) (n tid : Nat) : Option Transit := s.transits.find? fun t => t.fn == n && t.tid == tid
/-- An open transit, or a closed one that something still names. -/
def anyTransit? (s : State) (n tid : Nat) : Option Transit := (s.transits ++ s.gone).find? fun t => t.fn == n && t.tid == tid
def openOf (s : State) (n : Nat) : List Transit := s.transits.filter fun t => t.fn == n
def slotOf? (s : State) (n slot : Nat) : Option Transit := s.transits.find? fun t => t.fn == n && t.slot == slot

def modTransit (s : State) (n tid : Nat) (f : Transit → Transit) : State :=
  { s with transits := s.transits.map fun t => if t.fn == n && t.tid == tid then f t else t }

/-- As modTransit, for a transit that may have closed. -/
def modAnyTransit (s : State) (n tid : Nat) (f : Transit → Transit) : State :=
  let g := fun (t : Transit) => if t.fn == n && t.tid == tid then f t else t
  { s with transits := s.transits.map g, gone := s.gone.map g }

def modCap (s : State) (n tid p : Nat) (f : Capture → Capture) : State :=
  s.modTransit n tid fun t => { t with caps := t.caps.map fun c => if c.port == p then f c else c }

def acqEvent (s : State) (n : Nat) (f : Fld) : State := s.put (Reg.ACQ_FN_EVENT n) f 1

/-- R350: DEGRADED is never cleared once set. -/
def degrade (s : State) (n tid : Nat) : State :=
  match s.transit? n tid with
  | some t =>
    if t.degraded then s
    else ((s.modTransit n tid fun t => { t with degraded := true }).bump (Reg.ACQ_FN_CNT1 n) Fl.ACQ_FN_CNT1_DEGRADED).acqEvent n
      Fl.ACQ_FN_EVENT_DEGRADED
  | none => s

/-- R350: the replica lies more than REV_HYST counts below the high-water mark. -/
def reverse (s : State) (n tid : Nat) : State :=
  match s.transit? n tid with
  | some t =>
    if t.reversed then s
    else ((s.modTransit n tid fun t => { t with reversed := true }).bump (Reg.ACQ_FN_CNT1 n) Fl.ACQ_FN_CNT1_REVERSED).acqEvent n
      Fl.ACQ_FN_EVENT_REVERSED
  | none => s

/-! ### Lines (R353) -/

/-- S_p of a transit: LEP + MERIDIAN + TRIM. -/
def spanStart (s : State) (t : Transit) (c : Capture) : Int := (t.lep.getD 0 : Int) + s.portMeridian c.port + c.trim

/-- N lines on a port, once the TEP is fixed. -/
def lineCount (s : State) (t : Transit) (p : Nat) : Option Nat :=
  match t.lep, t.tep with
  | some l, some e =>
    let d := (sdiff 32 e l).toNat
    let c := s.ratioCounts t.fn p
    some (if c = 0 then 0 else (d * s.ratioLines t.fn p + c - 1) / c)
  | _, _ => none

/-- R355: line `k` has fallen due. -/
def lineDue (s : State) (t : Transit) (c : Capture) (k : Nat) : Bool :=
  t.lep.isSome &&
    decide ((256 * s.ratioCounts t.fn c.port * k : Nat) ≤ s.ratioLines t.fn c.port * s.past t.fn (s.spanStart t c)) &&
    decide (0 ≤ s.past t.fn (s.spanStart t c))

/-- Line `k` belongs to the transit, as far as is known. -/
def hasLine (s : State) (t : Transit) (p k : Nat) : Bool := match s.lineCount t p with | some n => decide (k < n) | none => true

/-- The span of a transit on a port contains the function's position (R338, R353). -/
def inSpan (s : State) (t : Transit) (c : Capture) : Bool :=
  let a := s.past t.fn (s.spanStart t c)
  match t.lep with
  | none => false
  | some _ =>
    decide (0 ≤ a) &&
    match s.lineCount t c.port with
    | some n => decide (0 < n) && decide (s.ratioLines t.fn c.port * a ≤ (256 * s.ratioCounts t.fn c.port * (n - 1) : Nat))
    | none => decide (a ≤ (256 * (s.reg (Reg.ACQ_FN_MAX_LEN t.fn)).toNat : Nat))

/-- Lines of a transit still awaited on a port (R322, R340). -/
def awaitedOn (s : State) (t : Transit) (p : Nat) : Bool :=
  if h : p < 4 then
    let f := fun (a : Awaited) => a.fn == t.fn && a.trig.tid == t.tid
    s.ports[p].awaited.any f || s.ports[p].queue.any f
  else false

/-- The capture of a transit has ended on one port (R352, condition 1). -/
def captureEnded (s : State) (t : Transit) (c : Capture) : Bool :=
  !s.awaitedOn t c.port && (c.ended || (match s.lineCount t c.port with | some n => decide (n ≤ c.next) | none => false))

def allCaptured (s : State) (t : Transit) : Bool := t.lep.isSome && t.caps.all (s.captureEnded t)

/-- A channel row of a transit's line is missing or was never triggered: its row is FILL, and the transit DEGRADED (R350, R364). -/
def rowMissing (s : State) (n tid p k ch : Nat) : State :=
  (s.modCap n tid p fun c => { c with miss := (k, ch) :: c.miss }).degrade n tid

def lineMissing (s : State) (n tid p k : Nat) : State :=
  (List.range (s.portChannels p)).foldl (fun s ch => s.rowMissing n tid p k ch) s

/-- The capture of a transit on a port ends early (R339, R353). -/
def endCapture (s : State) (n tid p : Nat) : State := (s.modCap n tid p fun c => { c with ended := true }).degrade n tid

/-! ### Gate commands -/

/-- Nothing withholds the gate command of a transit (R32, R124, R410). -/
def mayCommand (s : State) (t : Transit) : Bool :=
  s.fnReqLevel t.fn == 3 && !t.noGate && !s.flag Reg.PCX_HOSTLOSS Fl.PCX_HOSTLOSS_FIELD_HELD

def gateOf (s : State) (v p : Nat) : Nat := match s.chart with | some c => u8 (c.gateProgram v p) 0 | none => 0xFF

/-- R166, R410: the command of program `p` is issued in the cycle in which it is selected. -/
def selectProgram (s : State) (t : Transit) (p : Nat) : State :=
  match s.fnVerdict t.fn with
  | some v => if s.mayCommand t && s.gateOf v p != 0xFF then s.issueCommand ⟨tref t.fn t.slot, p, t.fn, t.slot⟩ else s
  | none => s

/-- R163: the staging message of a transit whose LEP is fixed (R347). -/
def stageTransit (s : State) (t : Transit) (lep : Nat) : State :=
  match s.fnVerdict t.fn with
  | some v =>
    let gated := match s.chart with | some c => c.verdictHasGate v | none => false
    if gated && s.fnReqLevel t.fn == 3 && s.hzUp then s.issueStaging ⟨tref t.fn t.slot, t.fn, t.slot, s.fnChan t.fn, v, lep, 0, 0, none⟩
    else s
  | none => s

/-! ### Interpolation (R347, R348) -/

/-- The samples of a channel, newest first, that bracket timestamp `t`. -/
def bracket (t : Nat) : List HwmSample → Option (HwmSample × HwmSample)
  | b :: a :: r => if 20 * a.idx ≤ t ∧ t < 20 * b.idx then some (a, b) else bracket t (a :: r)
  | _ => none

/-- The position, in whole counts, that R347 gives for timestamp `t` from samples (b1, H1) and (b2, H2). -/
def interpolate (t : Nat) (a b : HwmSample) : Nat :=
  let d := sdiff 40 b.hwm a.hwm
  let w : Int := (20 * b.idx : Nat) - (20 * a.idx : Nat)
  unsigned 32 ((a.hwm * w + d * ((t : Int) - (20 * a.idx : Nat))).fdiv (256 * w))

/-- Ticks of a function's line timer after timestamp `t`. -/
def ticksAfter (s : State) (n t : Nat) : Nat :=
  if h : n < 8 then
    let period := u32 (s.fnSec n) 0x10
    if period = 0 then 0 else (s.fns[n].lastTick - t + period - 1) / period
  else 0

/-- The edge position at timestamp `t`, once its samples are there; when no sample of the channel is as old as `t` the position is free
(DESIGN CHOICE, log entry 6). -/
def edgeAt (s : State) (n t : Nat) : State × Option Nat :=
  if s.fnLineTimer n then (s, some (unsigned 32 (((s.reg (Reg.LTG_TMR_COUNT n)).toNat : Int) - s.ticksAfter n t)))
  else
    let l := s.hz.samples[fin4 (s.fnChan n)]
    match bracket t l with
    | some (a, b) => (s, some (interpolate t a b))
    | none =>
      if l.any (fun x => decide (t < 20 * x.idx)) && l.all (fun x => decide (t < 20 * x.idx)) then
        let r := s.free 32
        (r.1, some r.2)
      else (s, none)

/-- R487: the lead queues a message; a full queue discards it. -/
def casQueue (s : State) (kind n tid pos : Nat) : State :=
  if s.chainLength ≤ 1 ∨ s.follower ∨ s.fnLineTimer n then s
  else if 32 ≤ s.cas.queue.length then
    (s.put Reg.CAS_EVENT Fl.CAS_EVENT_MSG_DROP 1).bump Reg.CAS_CNT Fl.CAS_CNT_MSG_LOSS
  else { s with cas := { s.cas with queue := s.cas.queue ++ [⟨kind, n, s.cas.mseq, s.fnChan n, tid, pos, 0⟩], mseq := (s.cas.mseq + 1) % 256 } }

/-- R347: LEP is fixed. Lines already passed are skipped (R354). -/
def skipPassed (s : State) (n tid p : Nat) : Nat → State
  | 0 => s
  | fuel + 1 =>
    match s.transit? n tid with
    | none => s
    | some t =>
      match t.caps.find? fun c => c.port == p with
      | none => s
      | some c =>
        if s.lineDue t c c.next && s.hasLine t p c.next then
          let s := (s.lineMissing n tid p c.next).modCap n tid p fun c => { c with next := c.next + 1, started := true }
          let s := (s.bump (Reg.LTG_P_SKIP p) Fl.LTG_P_SKIP_SKIPPED).put (Reg.LTG_P_EVENT p) Fl.LTG_P_EVENT_SKIP 1
          s.skipPassed n tid p fuel
        else s

/-- The lines of a port that have fallen due by now, at most. -/
def dueBound (s : State) (t : Transit) (c : Capture) : Nat :=
  let d := 256 * s.ratioCounts t.fn c.port
  if d = 0 then 0 else ((s.ratioLines t.fn c.port * s.past t.fn (s.spanStart t c)).toNat / d) + 1

def fixLep (s : State) (n tid lep : Nat) : State :=
  match s.transit? n tid with
  | none => s
  | some t =>
    let s := s.modTransit n tid fun t => { t with lepAt := none, lep := some lep }
    let s := s.setReg (Reg.ACQ_FN_SLOT_LEP n t.slot) (BitVec.ofNat 32 lep)
    let s := if (s.reg (Reg.ACQ_FN_LAST_TID n)).toNat = tid then s.setReg (Reg.ACQ_FN_LAST_LEP n) (BitVec.ofNat 32 lep) else s
    let s := (s.stageTransit t lep).casQueue 1 n tid lep
    let t' := { t with lep := some lep }
    t.caps.foldl (fun s c => s.skipPassed n tid c.port (s.dueBound t' c)) s

/-- R349: TEP is fixed. -/
def fixTep (s : State) (n tid tep : Nat) : State :=
  (s.modTransit n tid fun t => { t with tepAt := none, tep := some tep }).casQueue 2 n tid tep

/-! ### Opening (R21, R24, R345, R346) -/

def setFnState (s : State) (n v : Nat) : State :=
  if s.fnState n = v then s else (s.put (Reg.SYS_FN_STATE n) Fl.SYS_FN_STATE_STATE v).setBit Reg.SYS_FN_EVENT Fl.SYS_FN_EVENT_STATE_CHG n

def nextTid (v : Nat) : Nat := if v = 2 ^ 32 - 1 then 1 else v + 1

/-- A step of a program whose summary goes to delivery or to the verdict table (R405). -/
def summarySteps (s : State) (n : Nat) : List Nat :=
  (List.range (s.stepCount n)).filter fun k =>
    let d := s.stepBytes n k
    decide (4 ≤ u8 d 0) && (u8 d 3).testBit 2 || decide (4 ≤ u8 d 0) && (u8 d 3).testBit 3

def noneScore : Int := -2 ^ 31

def freshSummary (s : State) (n k : Nat) : Summary :=
  let d := s.stepBytes n k
  let c := u16 d 4
  ⟨k, u8 d 0, c, 0, List.replicate c 0, List.replicate c 0, List.replicate c noneScore, 0, []⟩

/-- The lowest free slot of a function. -/
def freeSlot (s : State) (n : Nat) : Option Nat := (List.range 16).find? fun k => (s.slotOf? n k).isNone

/-- A transit opens, its Transit ID given. -/
def openWith (s : State) (n slot tid : Nat) (lepAt lep : Option Nat) : State :=
  let caps := (s.fnPorts n).map fun p => (⟨p, signed 32 (s.reg (Reg.LTG_P_TRIM p)).toNat, 0, false, false, false, false, 0, [], [], [], 0⟩ : Capture)
  let t : Transit := ⟨n, slot, tid, lepAt, none, none, none, false, false, false, false, caps, List.replicate (s.stepCount n) 0,
    (s.summarySteps n).map (s.freshSummary n), none, none, 0, false, [], false⟩
  let s := { s with transits := s.transits ++ [t] }
  let s := (s.setReg (Reg.ACQ_FN_LAST_TID n) (BitVec.ofNat 32 tid)).setReg (Reg.ACQ_FN_SLOT_TID n slot) (BitVec.ofNat 32 tid)
  let s := ((s.wrapBy (Reg.ACQ_FN_CNT0 n) Fl.ACQ_FN_CNT0_OPENED 1).acqEvent n Fl.ACQ_FN_EVENT_OPENED).put (Reg.SYS_FN_STATE n)
    Fl.SYS_FN_STATE_OPEN (s.openOf n).length
  let s := if s.fnArmed n then s.setFnState n 3 else s
  match lep with
  | some l => s.fixLep n tid l
  | none => s

def overrun (s : State) (n : Nat) : State :=
  (s.bump (Reg.SYS_FN_LATE n) Fl.SYS_FN_LATE_OVERRUN).setBit Reg.SYS_FN_EVENT Fl.SYS_FN_EVENT_TRANSIT_OVERRUN n

/-- An opening event of a function that takes its IDs from ACQ_TID_NEXT. -/
def openTransit (s : State) (n : Nat) (lepAt lep : Option Nat) : State :=
  if !(s.fnArmed n || s.fnRunning n) then s
  else
    match s.freeSlot n with
    | none => s.overrun n
    | some slot =>
      let tid := (s.reg Reg.ACQ_TID_NEXT).toNat
      (s.setReg Reg.ACQ_TID_NEXT (BitVec.ofNat 32 (nextTid tid))).openWith n slot tid lepAt lep

/-- R349: the most recent open transit of a function whose TEP is open. -/
def openTep (s : State) (n : Nat) : Option Transit := (s.openOf n).reverse.find? fun t => t.tep.isNone && t.tepAt.isNone

/-- A trailing edge at timestamp `at`: true when it is one. -/
def trailing (s : State) (n t : Nat) : State × Bool :=
  match s.openTep n with
  | some x => (s.modTransit n x.tid fun y => { y with tepAt := some t }, true)
  | none => (s, false)

/-- R345, R349: an accepted change of MIRI `k` whose run began in the beat of index `first`. -/
def miriEdge (s : State) (k : Nat) (up : Bool) (first : Nat) : State :=
  s.chartFns.foldl (fun s n =>
    if s.follower || s.fnOpenSource n != 0 || s.fnOpenIndex n != k then s
    else if up == (s.fnOpenEdge n == 0) then s.openTransit n (some (20 * first)) none
    else (s.trailing n (20 * first)).1) s

/-- R345, R348, R349: a node event of kind 0 from a short address of a Zhombe line, accepted in this cycle. -/
def zevEdge (s : State) (line addr : Nat) : State :=
  let te := s.clk.ts - (18500 + 10000 * addr + 120)
  s.chartFns.foldl (fun s n =>
    if s.follower || s.fnOpenSource n != 1 || s.fnOpenIndex n / 128 != line || s.fnOpenIndex n % 32 != addr then s
    else
      let r := s.trailing n te
      if r.2 then r.1 else s.openTransit n (some te) none) s

/-! ### What a position update brings (R34, R349, R350) -/

/-- Pending trailing edges whose samples have arrived. -/
def resolveTeps (s : State) : State :=
  s.transits.foldl (fun s t =>
    match t.tepAt with
    | none => s
    | some x =>
      let r := s.edgeAt t.fn x
      match r.2 with
      | some v => r.1.fixTep t.fn t.tid v
      | none => s) s

def maxLenCheck (s : State) (t : Transit) : State :=
  match t.lep with
  | none => s
  | some l =>
    let m := (s.reg (Reg.ACQ_FN_MAX_LEN t.fn)).toNat
    if t.tep.isNone && decide (0 ≤ s.past t.fn ((l : Int) + m)) then
      let s := (s.fixTep t.fn t.tid ((l + m) % 2 ^ 32)).degrade t.fn t.tid
      (s.acqEvent t.fn Fl.ACQ_FN_EVENT_MAX_LEN).bump (Reg.ACQ_FN_CNT2 t.fn) Fl.ACQ_FN_CNT2_MAX_LEN
    else s

def reversalCheck (s : State) (t : Transit) : State :=
  if s.fnLineTimer t.fn then s
  else if (256 * s.get (Reg.ACQ_FN_REV_HYST t.fn) Fl.ACQ_FN_REV_HYST_COUNTS : Int) < sdiff 40 (s.fnH t.fn) (s.fnReplica t.fn)
  then s.reverse t.fn t.tid else s

/-- R34, R410: the decision point is reached before the verdict exists. -/
def decisionCheck (s : State) (t : Transit) : State :=
  match t.lep with
  | none => s
  | some l =>
    if s.fnLineTimer t.fn || (s.fnVerdict t.fn).isNone || t.verdict.isSome || t.late ||
        decide (s.past t.fn ((l : Int) + s.decisionPoint t.fn) < 0) then s
    else
      let s := s.modTransit t.fn t.tid fun t => { t with late := true, issue := 3 }
      let s := (s.bump (Reg.SYS_FN_LATE t.fn) Fl.SYS_FN_LATE_LATE).put (Reg.VRD_FN_EVENT t.fn) Fl.VRD_FN_EVENT_LATE 1
      s.selectProgram t 64

/-- R34, R349: a position that LEP makes past already, in the cycle in which it is fixed. -/
def lepChecks (s : State) (n tid : Nat) : State :=
  let s := match s.transit? n tid with | some t => s.maxLenCheck t | none => s
  match s.transit? n tid with | some t => s.decisionCheck t | none => s

/-- After each update of a position. -/
def positionChecks (s : State) : State :=
  let s := s.resolveTeps
  let s := s.transits.foldl maxLenCheck s
  let s := s.transits.foldl reversalCheck s
  s.transits.foldl decisionCheck s

/-- The transits that the link found without a gate command are flagged (R167, R169, R170). -/
def drainUnsent (s : State) : State :=
  let l := s.hz.unsent
  l.foldl (fun s x => match s.slotOf? x.1 x.2 with | some t => s.degrade t.fn t.tid | none => s) (s.modHz fun h => { h with unsent := [] })

end State

end Sys2Proof.Machine
end

