-- ==== Sys2Proof/Machine/Bands.lean ====
section
/-! DEFINITION. The stripe store (chapter 11, sections 6 and 7): bands, slots, line placement, the decimator, release by readers; and the
image objects a complete stripe makes (chapter 14, section 2). -/
namespace Sys2Proof.Machine

namespace State

/-! ## Objects and static filter conditions (R412 to R416) -/

def fnRing (s : State) (n r : Nat) : Bool := match s.chart with | some c => c.fnDefined n && c.fnRing n r | none => false
/-- Functions that bind a ring. -/
def ringFns (s : State) (r : Nat) : List Nat := s.chartFns.filter fun n => s.fnRing n r
def ringEnabled (s : State) (r : Nat) : Bool := s.flag (Reg.DLV_STATUS r) Fl.DLV_STATUS_ENABLED
def ringObjects (s : State) (r : Nat) : Nat := s.get (Reg.DLV_FILTER r) Fl.DLV_FILTER_OBJECTS
def classAll (s : State) (r : Nat) : Bool := (List.range 8).all fun i => s.reg (Reg.DLV_CLASS r i) == 0xFFFFFFFF
def classBit (s : State) (r c : Nat) : Bool := (s.reg (Reg.DLV_CLASS r (c / 32 % 8))).getLsbD (c % 32)
def verdictMask (s : State) (r : Nat) : Nat := s.pair (Reg.DLV_VMASK_LO r) (Reg.DLV_VMASK_HI r)
/-- R416: a ring is gated. -/
def ringGated (s : State) (r : Nat) : Bool :=
  s.verdictMask r != 2 ^ 64 - 1 || !(s.ringObjects r).testBit 2 || !s.classAll r

/-- Every object that delivery would take is discarded at its input while ACTIVE is set (R125). -/
def enqueue (s : State) (o : DlvObj) : State :=
  if s.flag Reg.PCX_HOSTLOSS Fl.PCX_HOSTLOSS_ACTIVE then s.bump Reg.PCX_HOSTLOSS Fl.PCX_HOSTLOSS_DISCARDED
  else { s with dlv := { s.dlv with queue := s.dlv.queue ++ [o] } }

/-- The gate conditions already decided against the transit (R416). -/
def gateRejects (s : State) (t : Transit) (r : Nat) : Bool := s.ringGated r && t.decided && !t.accepts.contains r

/-- The image object of channel `ch` of a line-band stripe for ring `r`, when the ring accepts it (R413, Table 14-1). -/
def imageObject (s : State) (t : Transit) (c : Capture) (b : Band) (x : Stripe) (r ch : Nat) : Option DlvObj :=
  let p := c.port
  let l := s.stripeLines t.fn
  let f := s.reg (Reg.DLV_FILTER r)
  let px := s.portPixels p
  let x0 := s.get (Reg.DLV_CROP_X r) Fl.DLV_CROP_X_X0
  let w := s.get (Reg.DLV_CROP_X r) Fl.DLV_CROP_X_WIDTH
  let y0 := s.get (Reg.DLV_CROP_Y r) Fl.DLV_CROP_Y_Y0
  let h := s.get (Reg.DLV_CROP_Y r) Fl.DLV_CROP_Y_HEIGHT
  let ks := ((List.range l).map (x.j * l + ·)).filter fun k => s.hasLine t p k && decide (y0 ≤ k) && (h == 0 || decide (k < y0 + h))
  let width := min (if w = 0 then px else w) (px - x0)
  if s.fnRing t.fn r && s.ringEnabled r && (s.ringObjects r).testBit 0 && (getF f Fl.DLV_FILTER_SIDE_MASK).testBit (s.portSide p) &&
      (getF f Fl.DLV_FILTER_PORT_MASK).testBit p && (getF f Fl.DLV_FILTER_CHANNEL_MASK).testBit ch && !ks.isEmpty && width != 0 &&
      !s.gateRejects t r then
    let pitch := 64 * ((width + 63) / 64)
    let rows := ks.map fun k => b.base + ((x.b % 3 * l + k % l) * s.portChannels p + ch) * b.pitch + x0
    let payload := rows.flatMap fun a => (List.range pitch).map fun i => if i < width then s.sts.read stsId (a + i) else 0
    let k0 := ks.headD 0
    some ⟨r, true, t.fn, t.tid, p, ch, k0, ks.length, width, x0, (c.trigs.find? fun y => y.1 == k0).map (·.2), s.clk.ts,
      ks.any fun k => c.late.contains k, ks.any fun k => c.miss.contains (k, ch), rows, x.b, payload⟩
  else none

def imageObjects (s : State) (t : Transit) (c : Capture) (b : Band) (x : Stripe) : List DlvObj :=
  (List.range (s.portChannels c.port)).flatMap fun ch => (List.range 128).filterMap fun r => s.imageObject t c b x r ch

/-! ## Bands -/

/-- Place of a band in allocation order. -/
def bandIdx (s : State) (n kind idx : Nat) : Option Nat := s.bands.findIdx? fun b => b.fn == n && b.kind == kind && b.idx == idx
def band? (s : State) (n kind idx : Nat) : Option Band := s.bands.find? fun b => b.fn == n && b.kind == kind && b.idx == idx
def modBand (s : State) (n kind idx : Nat) (f : Band → Band) : State :=
  { s with bands := s.bands.map fun b => if b.fn == n && b.kind == kind && b.idx == idx then f b else b }

/-- The slot of running stripe number `b` is free (R363, R365). -/
def slotFree (b : Band) (k : Nat) : Bool := b.stripes.all fun x => x.b % 3 != k % 3

def bandStripe? (b : Band) (tid j : Nat) : Option Stripe := b.stripes.find? fun x => x.tid == tid && x.j == j

/-- The input band of step `k` of a function: kind and number. -/
def stepInput (s : State) (n k : Nat) : Option (Nat × Nat) :=
  let d := s.stepBytes n k
  let src := if u8 d 0 ≤ 2 then u8 d 2 else u8 d 1
  if src < 0x40 then some (2, src) else if 0x80 ≤ src ∧ src < 0x84 then some (1, src - 0x80) else none

/-- The readers of a band (R365). -/
def bandReaders (s : State) (n kind idx : Nat) : List Reader :=
  if kind = 0 then
    (if s.fnSink n 18 then [.decimator] else []) ++ (if s.fnRoute n 5 23 || s.fnRoute n 6 23 then [.delivery] else [])
  else ((List.range (s.stepCount n)).filter fun k => s.stepInput n k == some (kind, idx)).map .step

/-- A reader lets go of stripe `b` of a band; the slot is free once none holds it. -/
def releaseStripe (s : State) (n kind idx b : Nat) (r : Reader) : State :=
  s.modBand n kind idx fun x => { x with stripes := (x.stripes.map fun y =>
    if y.b == b then { y with readers := y.readers.filter (· != r) } else y).filter fun y => !(y.complete && y.readers.isEmpty) }

/-- R364: a stripe is complete and offered to its readers. -/
def completeStripe (s : State) (n kind idx b : Nat) : State :=
  s.modBand n kind idx fun x => { x with stripes := (x.stripes.map fun y =>
    if y.b == b then { y with complete := true, ts := s.clk.ts } else y).filter fun y => !(y.complete && y.readers.isEmpty) }

/-- R363: a stripe of a transit takes the next slot. -/
def openStripe (s : State) (n kind idx tid j : Nat) (left : List (Nat × Nat)) : State :=
  let rd := s.bandReaders n kind idx
  s.modBand n kind idx fun x => { x with b := x.b + 1, stripes := x.stripes ++ [⟨x.b, n, tid, j, left, false, false, rd, 0⟩] }

/-- R387: every stripe a transit holds is released. -/
def releaseAll (s : State) (n tid : Nat) : State :=
  { s with bands := s.bands.map fun b => if b.fn == n then { b with stripes := b.stripes.filter fun x => x.tid != tid } else b }

/-! ## Lines into the band (R363, R364) -/

/-- One channel row of the line band: the pixels, then FILL to the row pitch. -/
def writeRow (s : State) (b : Band) (x : Stripe) (l chans row ch : Nat) (px : List Byte) (fill : Byte) : State :=
  let a := b.base + ((x.b % 3 * l + row) * chans + ch) * b.pitch
  { s with sts := s.sts.writeList a (px ++ List.replicate (b.pitch - px.length) fill) }

/-- A channel row that will hold no line: missing, never triggered, or padding. -/
def rowSettled (s : State) (t : Transit) (c : Capture) (k ch : Nat) : Bool :=
  c.miss.contains (k, ch) || (match s.lineCount t c.port with
    | some n => decide (n ≤ k) || (c.ended && decide (c.next ≤ k))
    | none => false)

/-- The FILL rows of the open stripes of a band that are settled by now. -/
def fillRows (s : State) (n p : Nat) : State :=
  match s.band? n 0 p with
  | none => s
  | some b =>
    b.stripes.foldl (fun s x =>
      match s.anyTransit? n x.tid with
      | none => s
      | some t =>
        match t.caps.find? fun (c : Capture) => c.port == p with
        | none => s
        | some c =>
          let l := s.stripeLines n
          let go := x.left.filter fun r => s.rowSettled t c (x.j * l + r.1) r.2
          let s := go.foldl (fun s r => s.writeRow b x l (s.portChannels p) r.1 r.2 [] (s.fillByte n)) s
          if go.isEmpty then s
          else s.modBand n 0 p fun y => { y with stripes := y.stripes.map fun z =>
            if z.b == x.b then { z with left := z.left.filter fun r => !go.contains r } else z }) s

/-- Stripes of the line band with every row written become complete and make their objects. -/
def finishLines (s : State) (n p : Nat) : State :=
  match s.band? n 0 p with
  | none => s
  | some b =>
    b.stripes.foldl (fun s x =>
      if x.complete || !x.left.isEmpty then s
      else
        let objs := match s.anyTransit? n x.tid with
          | some t => (match t.caps.find? fun (c : Capture) => c.port == p with
            | some c => if x.readers.contains .delivery then s.imageObjects t c b x else []
            | none => [])
          | none => []
        let s := s.completeStripe n 0 p x.b
        let before := s.dlv.queue.length
        let s := objs.foldl enqueue s
        if s.dlv.queue.length = before then s.releaseStripe n 0 p x.b .delivery else s) s

/-- The stripe the band needs next, if some transit has a row for it: (tid, j). -/
def wantedStripe (s : State) (n p : Nat) (head : Option FifoLine) : Option (Nat × Nat) :=
  let l := s.stripeLines n
  let need := fun (t : Transit) => 
    match t.caps.find? fun (c : Capture) => c.port == p with
    | none => false
    | some c =>
      (match head with | some f => f.tid == t.tid && decide (c.jnext ≤ f.k / l) | none => false) ||
      (match s.lineCount t p with | some m => c.ended && decide (c.jnext * l < m) && decide (c.next ≤ c.jnext * l) | none => false) ||
      c.miss.any fun (r : Nat × Nat) => decide (c.jnext ≤ r.1 / l)
  ((s.openOf n ++ s.gone.filter fun t => t.fn == n).find? need).bind fun t =>
    (t.caps.find? fun (c : Capture) => c.port == p).map fun c => (t.tid, c.jnext)

/-- Channel rows of a stripe. -/
def stripeRows (l chans : Nat) : List (Nat × Nat) := (List.range l).flatMap fun r => (List.range chans).map fun c => (r, c)

def modAnyCap (s : State) (n tid p : Nat) (f : Capture → Capture) : State :=
  let g := fun (t : Transit) => if t.fn == n && t.tid == tid then { t with caps := t.caps.map fun c => if c.port == p then f c else c } else t
  { s with transits := s.transits.map g, gone := s.gone.map g }

def modPort (s : State) (p : Fin 4) (f : Port → Port) : State := { s with ports := s.ports.set p (f s.ports[p]) }

/-- CPn_FIFO.LEVEL: bytes in the line FIFO. -/
def fifoBytes (l : List FifoLine) : Nat := l.foldl (fun n x => n + x.pixels.length) 0

def popFifo (s : State) (p : Fin 4) : State :=
  let rest := s.ports[p].fifo.drop 1
  (s.modPort p fun x => { x with fifo := rest }).put (Reg.CP_FIFO p) Fl.CP_FIFO_LEVEL (fifoBytes rest)

/-- One move of a port's lines into its band; none when nothing can move (R16, R365). -/
def placeStep (s : State) (p : Fin 4) : Option State :=
  match s.portFn p with
  | none => if s.ports[p].fifo.isEmpty then none else some (s.popFifo p)
  | some n =>
    let head := s.ports[p].fifo.head?
    match s.band? n 0 p with
    | none => if head.isNone then none else some (s.popFifo p)
    | some b =>
      let l := s.stripeLines n
      let stored := s.fnRoute n p 16 || s.fnRoute n p 17
      match head.filter fun f => !stored || (s.anyTransit? n f.tid).isNone with
      | some _ => some (s.popFifo p)
      | none =>
        match head.bind fun f => (bandStripe? b f.tid (f.k / l)).map fun x => (f, x) with
        | some (f, x) =>
          let s := (s.writeRow b x l (s.portChannels p) (f.k % l) f.ch f.pixels (s.fillByte n)).popFifo p
          let s := s.modBand n 0 p fun y => { y with stripes := y.stripes.map fun z =>
            if z.b == x.b then { z with left := z.left.filter (· != (f.k % l, f.ch)) } else z }
          some ((s.fillRows n p).finishLines n p)
        | none =>
          match s.wantedStripe n p head with
          | none => none
          | some (tid, j) =>
            if stored && slotFree b b.b then
              let s := (s.openStripe n 0 p tid j (stripeRows l (s.portChannels p))).modAnyCap n tid p fun c => { c with jnext := j + 1 }
              some ((s.fillRows n p).finishLines n p)
            else none

/-! ## Decimator (R367, R368) -/

/-- A byte of the line band: line `k` of a transit, or FILL when the line lies in no stripe (beyond the last). -/
def linePixel (s : State) (b : Band) (n p tid k ch x : Nat) : Nat :=
  let l := s.stripeLines n
  match bandStripe? b tid (k / l) with
  | some y => (s.sts.read stsId (b.base + ((y.b % 3 * l + k % l) * s.portChannels p + ch) * b.pitch + x)).toNat
  | none => (s.fillByte n).toNat

/-- Sum of a run of values. -/
def sumTo (n : Nat) (f : Nat → Nat) : Nat := (List.range n).foldl (fun a i => a + f i) 0

/-- R367: one output pixel. -/
def decimPixel (s : State) (b : Band) (n p tid r ch x : Nat) : Nat :=
  let dx := s.decimX p
  let dy := s.decimY p
  let t := sumTo dy fun i => sumTo dx fun j => s.linePixel b n p tid (dy * r + i) ch (dx * x + j)
  (t + dx * dy / 2) / (dx * dy)

/-- Width and bytes per pixel of a decimated row (R362). -/
def decWidth (s : State) (p : Nat) : Nat := s.portPixels p / s.decimX p
def decCb (s : State) (p : Nat) : Nat := if s.portChannels p ≤ 4 then s.portChannels p else 16

/-- R368: the bytes of a decimated row. -/
def decimRow (s : State) (b : Band) (pitch n p tid r : Nat) : List Byte :=
  let cb := s.decCb p
  (List.range pitch).map fun i =>
    if i < s.decWidth p * cb ∧ i % cb < s.portChannels p then BitVec.ofNat 8 (s.decimPixel b n p tid r (i % cb) (i / cb)) else 0

/-- A padding row of a decimated band holds FILL where pixels would lie (R364, R368). -/
def decimPad (s : State) (pitch n p : Nat) : List Byte :=
  let cb := s.decCb p
  (List.range pitch).map fun i => if i < s.decWidth p * cb ∧ i % cb < s.portChannels p then s.fillByte n else 0

/-- Decimated rows of a transit, once N is known. -/
def decRows (s : State) (t : Transit) (p : Nat) : Option Nat := (s.lineCount t p).map fun n => ceilDiv n (s.decimY p)

/-- The line stripes of a transit that the decimator has finished with are released. -/
def decRelease (s : State) (n p tid dec : Nat) (all : Bool) : State :=
  match s.band? n 0 p with
  | none => s
  | some b =>
    let l := s.stripeLines n
    b.stripes.foldl (fun s x =>
      if x.tid == tid && x.complete && x.readers.contains .decimator && (all || decide ((x.j + 1) * l ≤ dec * s.decimY p))
      then s.releaseStripe n 0 p x.b .decimator else s) s

/-- The decimator writes row `r` of a transit into stripe `x` of the decimated band. -/
def decWrite (s : State) (lines dec : Band) (n p : Nat) (t : Transit) (x : Stripe) (r : Nat) : State :=
  let l := s.stripeLines n
  let a := dec.base + (x.b % 3 * l + r % l) * dec.pitch
  let total := s.decRows t p
  let last := match total with | some m => r + 1 == m | none => false
  let s := { s with sts := s.sts.writeList a (s.decimRow lines dec.pitch n p t.tid r) }
  let pad := if last then (List.range l).filter fun i => decide (r % l < i) else []
  let s := pad.foldl (fun s i => { s with sts := s.sts.writeList (dec.base + (x.b % 3 * l + i) * dec.pitch) (s.decimPad dec.pitch n p) }) s
  let s := s.modAnyCap n t.tid p fun c => { c with dec := r + 1 }
  let s := if last || r % l + 1 == l then s.completeStripe n 1 p x.b else s
  s.decRelease n p t.tid (r + 1) last

/-- The input lines of decimated row `r` have all been written to complete stripes. -/
def decReady (s : State) (lines : Band) (n p : Nat) (t : Transit) (r : Nat) : Bool :=
  let l := s.stripeLines n
  let k := s.decimY p * r + s.decimY p - 1
  let k := match s.lineCount t p with | some m => min k (m - 1) | none => k
  match bandStripe? lines t.tid (k / l) with | some x => x.complete | none => false

/-- One row of the decimator on a port; none when it has nothing it can do. DEDUCED, log entry 73. -/
def decimStep (s : State) (p : Nat) : Option State :=
  match s.portFn p with
  | none => none
  | some n =>
    match s.band? n 0 p, s.band? n 1 p with
    | some lines, some dec =>
      if !s.fnSink n 18 then none
      else
        let l := s.stripeLines n
        let stored := s.fnRoute n 4 16 || s.fnRoute n 4 17
        let go := fun (t : Transit) =>
          match t.caps.find? fun (c : Capture) => c.port == p with
          | none => none
          | some c =>
            let more := match s.decRows t p with | some m => decide (c.dec < m) | none => true
            if !more || !s.decReady lines n p t c.dec then none
            else if !stored then
              some ((s.modAnyCap n t.tid p fun c => { c with dec := c.dec + 1 }).decRelease n p t.tid (c.dec + 1)
                (match s.decRows t p with | some m => c.dec + 1 == m | none => false))
            else
              match bandStripe? dec t.tid (c.dec / l) with
              | some x => some (s.decWrite lines dec n p t x c.dec)
              | none => if c.dec % l = 0 ∧ slotFree dec dec.b then some (s.openStripe n 1 p t.tid (c.dec / l) []) else none
        (s.openOf n ++ s.gone.filter fun t => t.fn == n).findSome? go
    | _, _ => none

/-! ## Everything that moves of itself -/

/-- One move anywhere: a line into a band, or a decimated row. -/
def pumpStep (s : State) : Option State :=
  ((List.finRange 4).findSome? fun p => s.placeStep p) <|> ((List.range 4).findSome? fun p => s.decimStep p)

def pumpLoop : Nat → State → State
  | 0, s => s
  | n + 1, s => match s.pumpStep with | some s' => pumpLoop n s' | none => s

/-- The FILL rows settled by now, and every move that can be made. The bound is beyond the moves that lines, stripes and decimated rows
of sixteen transits can need. -/
def pump (s : State) : State :=
  let s := (List.range 4).foldl (fun s p => match s.portFn p with | some n => (s.fillRows n p).finishLines n p | none => s) s
  pumpLoop (2 ^ 40) s

/-! ## ECC of the stripe store (R366) -/

/-- A read met a single-bit or a double-bit error in the word at store address `a`. DESIGN CHOICE, log entry 29. -/
def stsEcc (s : State) (a : Nat) (double : Bool) : State :=
  if double then
    let s := (s.bump Reg.STS_ECC Fl.STS_ECC_UNCORR).put Reg.STS_ECC_ADDR Fl.STS_ECC_ADDR_ADDR (a / 8)
    let s := (s.put Reg.STS_EVENT Fl.STS_EVENT_UNCORR 1).raise 8
    s.bands.foldl (fun s b =>
      b.stripes.foldl (fun s x =>
        let l := s.stripeLines b.fn
        let rows := if b.kind = 0 then l * s.portChannels b.idx else l
        let lo := b.base + x.b % 3 * rows * b.pitch
        if lo ≤ a ∧ a < lo + rows * b.pitch then s.degrade b.fn x.tid else s) s) s
  else (s.bump Reg.STS_ECC Fl.STS_ECC_CORR).put Reg.STS_EVENT Fl.STS_EVENT_CORR 1

end State

end Sys2Proof.Machine
end

