-- ==== Sys2Proof/Machine/Ports.lean ====
section
/-! DEFINITION. Camera ports and the Lastoir Sensor Link protocol (chapter 10), and the line trigger generator (chapter 11, section 4). -/
namespace Sys2Proof.Machine

/-! ## The 8/9 code (R309 to R312) -/

/-- Gray index of the bit pair (b1, b0) of data symbol `i` of a word (Table 9-3). -/
def wordIndex (w i : Nat) : Nat := grayIndex (w.testBit (15 - 2 * i)) (w.testBit (14 - 2 * i))

/-- R309: d_i of a word under transform bit `t`. -/
def dataIndex (w t i : Nat) : Nat := (wordIndex w i + 2 * t * (i % 2)) % 4

/-- R310: the control symbol after index `p`. -/
def controlSymbol (p : Nat) (f : Bool) (t : Nat) : Nat := (p + 1 + (if f then 2 else t)) % 4

/-- R310: F and T of a control symbol; none is a code violation. -/
def controlDecode (p c : Nat) : Option (Bool × Nat) :=
  let s := (c + 8 - p - 1) % 4
  if s = 0 then some (false, 0) else if s = 1 then some (false, 1) else if s = 2 then some (true, 0) else none

/-- Length of the run of equal values at the head of a list. -/
def headRun : List Nat → Nat
  | [] => 0
  | [_] => 1
  | a :: b :: r => if a = b then headRun (b :: r) + 1 else 1

def longestRun : List Nat → Nat
  | [] => 0
  | a :: r => max (headRun (a :: r)) (longestRun r)

/-- R311: the choice T = 0 is refused. -/
def needsTransform (p w : Nat) : Bool :=
  let d := (List.range 8).map (dataIndex w 0)
  let c := controlSymbol p false 0
  decide (6 ≤ longestRun d) || (d.take 5).all (· == c)

/-- The nine symbols of a group. -/
def codeGroup (p : Nat) (f : Bool) (w : Nat) : List Nat :=
  let t := if !f && needsTransform p w then 1 else 0
  controlSymbol p f t :: (List.range 8).map (dataIndex w t)

/-! ## Messages (section 3) -/

/-- Table 10-3: the TRIGGER message. -/
def triggerWords (p : Nat) (t : Trigger) : List Nat :=
  let l := [0x8 * 2 ^ 12 + p % 4 * 2 ^ 10 + 6 * 2 ^ 6 + ofBool t.late * 2 ^ 5 + ofBool t.first * 2 ^ 4, t.line % 2 ^ 16,
    t.pos / 2 ^ 16 % 2 ^ 16, t.pos % 2 ^ 16, t.tid / 2 ^ 16 % 2 ^ 16, t.tid % 2 ^ 16]
  l ++ [hcrc l]

/-- Table 10-4: the HC_REQ message. -/
def hcRequest (h : HeadTxn) : List Nat :=
  let d := if h.write then h.data.toNat else 0
  let l := [0x9 * 2 ^ 12 + 6 * 2 ^ 6 + (if h.write then 2 else 1) * 2 ^ 4 + h.tag % 16, h.addr % 2 ^ 16, d / 2 ^ 16 % 2 ^ 16, d % 2 ^ 16]
  l ++ [hcrc l]

/-- Word `i` of a received message. -/
def wd (l : List Nat) (i : Nat) : Nat := l.getD i 0

/-- A LINE message taken apart (Table 10-3). -/
structure LineMsg where
  late : Bool
  ch : Nat
  line : Nat
  pos : Nat
  tid : Nat
  npix : Nat
  headOk : Bool
  payOk : Bool
  pixels : List Byte
  deriving DecidableEq, Repr

def lineParse (l : List Nat) : LineMsg :=
  let w0 := wd l 0
  let npix := wd l 6 % 2 ^ 15
  let body := (l.drop 8).take ((npix + 1) / 2)
  let px := (body.flatMap fun w => [w / 256 % 256, w % 256]).take npix
  let crc := (l.drop (8 + (npix + 1) / 2))
  ⟨w0.testBit 5, w0 / 16 % 2 * 4 + w0 / 4 % 4, wd l 1, wd l 2 * 2 ^ 16 + wd l 3, wd l 4 * 2 ^ 16 + wd l 5, npix,
    wd l 7 == hcrc (l.take 7), px.length == npix && wd crc 0 * 2 ^ 16 + wd crc 1 == crc32 px, px.map (BitVec.ofNat 8)⟩

/-- R334: the first register of the step-7 check that fails, as its address divided by 4; `regs` holds head registers 0x0000 to 0x0024. -/
def headCheck (sec : List Nat) (regs : List Word) : Option Nat :=
  let r := fun i => (regs.getD i 0).toNat
  let code := fun w i => r w / 2 ^ (8 * i) % 256
  let want := fun i => u8 sec (0x14 + i)
  if r 0 / 2 ^ 16 ≠ 1 then some 0
  else if r 3 % 16 ≠ u8 sec 1 then some 3
  else if (List.range 4).any fun i => code 4 i != want i then some 4
  else if (List.range 4).any fun i => code 5 i != want (4 + i) then some 5
  else if r 6 % 2 ^ 15 ≠ u16 sec 2 then some 6
  else if r 7 < u32 sec 4 then some 7
  else if !(r 8).testBit (u8 sec 0) then some 8
  else none

namespace State

/-! ## Ports -/

def laneNo (p : Fin 4) (r : Nat) : Fin 16 := ⟨4 * p.val + r % 4, by omega⟩
/-- The lanes that carry data on a port, and every receive lane (R316). -/
def dataLanes (s : State) (p : Fin 4) : List Nat := if s.refMode p = 0 then [0, 1] else [0, 1, 2]
def rxLanes : List Nat := [0, 1, 2]

def portState (s : State) (p : Fin 4) : Nat := s.get (Reg.CP_STATE p) Fl.CP_STATE_STATE
def inService (s : State) (p : Fin 4) : Bool := s.portState p == 4
def setPortState (s : State) (p : Fin 4) (v : Nat) : State := s.put (Reg.CP_STATE p) Fl.CP_STATE_STATE v
def portStep (s : State) (p : Fin 4) : Nat := s.get (Reg.CP_STATE p) Fl.CP_STATE_STEP
/-- DEDUCED, log entry 74. -/
def setStep (s : State) (p : Fin 4) (v : Nat) : State := s.put (Reg.CP_STATE p) Fl.CP_STATE_STEP v
def cpEvent (s : State) (p : Fin 4) (f : Fld) : State := s.put (Reg.CP_EVENT p) f 1
def aligned (s : State) (p : Fin 4) (r : Nat) : Bool := s.bit (Reg.CP_STATE p) Fl.CP_STATE_ALIGNED r
def setAligned (s : State) (p : Fin 4) (r : Nat) (b : Bool) : State := s.putBit (Reg.CP_STATE p) Fl.CP_STATE_ALIGNED r b
def allAligned (s : State) (p : Fin 4) : Bool := (s.dataLanes p).all fun r => s.aligned p r
def resettling (s : State) (p : Fin 4) : Bool := s.flag (Reg.CP_STATE p) Fl.CP_STATE_TX_RESETTLE

def cpFrozen (s : State) (p : Fin 4) : Bool := s.flag (Reg.CP_CTRL p) Fl.CP_CTRL_CNT_FREEZE
/-- R342: a CP count saturates, and holds while CNT_FREEZE is 1. -/
def cpCount (s : State) (p : Fin 4) (off : Nat) (f : Fld) : State := if s.cpFrozen p then s else s.bump off f
/-- A count of errors: EVENT.ERR is set as it rises. DEDUCED, log entry 72. -/
def cpError (s : State) (p : Fin 4) (off : Nat) (f : Fld) : State :=
  if s.cpFrozen p then s else (s.bump off f).cpEvent p Fl.CP_EVENT_ERR

/-- The function that owns the port is in one of these states. -/
def portFnIn (s : State) (p : Fin 4) (l : List Nat) : Bool := match s.portFn p with | some n => l.contains (s.fnState n) | none => false

/-- Every lane of the port is requested OFF. -/
def portLanesOff (s : State) (p : Fin 4) : State := [0, 1, 2, 3].foldl (fun s r => s.laneOff (laneNo p r)) s

/-! ### Missing lines (R340, R344) -/

def missingRows (s : State) (p : Fin 4) (a : Awaited) (count : Bool) : State :=
  a.chans.foldl (fun s ch =>
    let s := if count then s.cpError p (Reg.CP_LINE_ERR p) Fl.CP_LINE_ERR_MISSING else s
    s.rowMissing a.fn a.trig.tid p a.k ch) s

/-- The resettle queue is discarded: every queued trigger's line counts as missing. -/
def dropQueue (s : State) (p : Fin 4) : State :=
  let q := s.ports[p].queue
  let s := (s.modPort p fun x => { x with queue := [] }).put (Reg.CP_TRQ p) Fl.CP_TRQ_LEVEL 0
  q.foldl (fun s a => s.missingRows p a true) s

/-! ### Training (R332, R333) -/

/-- Step 1 of Table 10-7. -/
def startAttempt (s : State) (p : Fin 4) : State :=
  let s := (s.setPortState p 2).setStep p 1
  let s := (s.put (Reg.CP_STATE p) Fl.CP_STATE_PREC 0).put (Reg.CP_STATE p) Fl.CP_STATE_ALIGNED 0
  let s := s.put (Reg.CP_STATE p) Fl.CP_STATE_TX_RESETTLE 0
  let s := s.modPort p fun x => { x with
    start := s.clk.ts, attempts := x.attempts + 1, waiting := false, blocks := Vector.replicate 3 0, prec := Vector.replicate 3 none,
    seen := Vector.replicate 3 false, step5 := false, marked := Vector.replicate 3 false, seq := Vector.replicate 3 0,
    errRun := Vector.replicate 3 0 }
  let s := s.put (Reg.CP_TRAIN p) Fl.CP_TRAIN_ATTEMPTS (min 15 s.ports[p].attempts)
  let s := (s.portLanesOff p).laneSettle (laneNo p 3)
  -- in forwarded-clock mode the data lanes are acquired from RX2 ACTIVE
  (if s.refMode p = 0 then [2] else [0, 1, 2]).foldl (fun s r => s.laneAcquire (laneNo p r)) s

/-- Training starts afresh: the attempts are counted from here. -/
def startTraining (s : State) (p : Fin 4) : State := (s.modPort p fun x => { x with attempts := 0, wasOut := false }).startAttempt p

/-- R335: the port's lanes are OFF and it waits for its function. -/
def portIdle (s : State) (p : Fin 4) : State :=
  let s := (s.dropQueue p).portLanesOff p
  let s := s.modPort p fun x => { x with awaited := [], waiting := false }
  let st := if s.flag (Reg.CP_STATE p) Fl.CP_STATE_PRES then 1 else 0
  ((s.setPortState p st).setStep p 0).put (Reg.CP_STATE p) Fl.CP_STATE_ALIGNED 0 |>.put (Reg.CP_STATE p) Fl.CP_STATE_TX_RESETTLE 0

/-- The ports of a function that has reached STOPPED (R335). -/
def portsIdle (s : State) (n : Nat) : State := (s.fnPorts n).foldl (fun s p => s.portIdle (fin4 p)) s

/-- R30: bring-up ends with a cause. -/
def bringupFail (s : State) (n cause : Nat) : State :=
  if s.fnIdle n then
    let s := (s.setFnState n 0).put (Reg.SYS_FN_STATE n) Fl.SYS_FN_STATE_START_FAIL cause
    (s.setBit Reg.SYS_FN_EVENT Fl.SYS_FN_EVENT_START_FAILED n).portsIdle n
  else s

/-- R333: the attempt ends with a cause. -/
def attemptFails (s : State) (p : Fin 4) (cause detail : Nat) : State :=
  let s := (s.put (Reg.CP_TRAIN p) Fl.CP_TRAIN_CAUSE cause).put (Reg.CP_TRAIN p) Fl.CP_TRAIN_DETAIL detail
  let s := (s.cpEvent p Fl.CP_EVENT_TRAIN_FAIL).cpCount p (Reg.CP_SVC_CNT p) Fl.CP_SVC_CNT_TRAIN_FAIL
  let s := (s.portLanesOff p).setStep p 0
  if cause = 10 then s
  else if s.ports[p].attempts ≤ s.get (Reg.CP_CFG p) Fl.CP_CFG_RETRIES then s.modPort p fun x => { x with waiting := true, start := s.clk.ts }
  else
    let s := s.setPortState p 6
    match s.portFn p with
    | some n => s.bringupFail n 1
    | none => s

/-- Cause 3 or 4 of Table 10-8: what step 5 still lacks. -/
def step5Cause (s : State) (p : Fin 4) : Nat := if (s.dataLanes p).any fun r => s.ports[p].seen.toList.getD r false then 4 else 3

def trainFailed (s : State) (p : Fin 4) (cause detail : Nat) : State :=
  if s.portState p = 2 ∧ !s.ports[p].waiting ∧ 1 ≤ cause ∧ cause ≤ 10 then
    s.attemptFails p (if cause = 3 ∨ cause = 4 then s.step5Cause p else cause) detail
  else s

/-! ### Service (R335 to R339) -/

/-- R336. -/
def portOut (s : State) (p : Fin 4) : State :=
  let s := (s.setPortState p 5).cpEvent p Fl.CP_EVENT_OUT_OF_SERVICE
  let s := (s.cpCount p (Reg.CP_SVC_CNT p) Fl.CP_SVC_CNT_OUT).put (Reg.CP_STATE p) Fl.CP_STATE_TX_RESETTLE 0
  let s := (s.dropQueue p).modPort p fun x => { x with start := s.clk.ts, wasOut := true }
  -- a TX0 in FAULT restarts training
  if s.laneState (laneNo p 3) = 7 then s.startAttempt p else s

/-- The port enters IN_SERVICE from READY: it takes no trigger of a transit whose span has begun (R338). -/
def enterService (s : State) (p : Fin 4) : State :=
  let s := (s.setPortState p 4).cpEvent p Fl.CP_EVENT_IN_SERVICE
  let s := if s.ports[p].wasOut then s.cpCount p (Reg.CP_SVC_CNT p) Fl.CP_SVC_CNT_PORT_REJOIN else s
  let s := s.modPort p fun x => { x with wasOut := false }
  s.transits.foldl (fun s t => t.caps.foldl (fun s c =>
    if c.port == p.val && t.lep.isSome && decide (0 ≤ s.past t.fn (s.spanStart t c)) then
      s.modCap t.fn t.tid p fun c => { c with barred := true } else s) s) s

/-- READY is reached: the port serves at once while its function is IDLE (R335). -/
def portReady (s : State) (p : Fin 4) : State :=
  let s := s.setPortState p 3
  if s.portFnIn p [1] then s.enterService p else s

/-- R338: no open transit has a span on the port that contains the position. -/
def atGap (s : State) (p : Fin 4) : Bool :=
  s.transits.all fun t => t.caps.all fun c => c.port != p.val || !s.inSpan t c

def portRejoin (s : State) (p : Fin 4) : State :=
  if s.portState p = 3 ∧ (s.portFnIn p [1] ∨ (s.portFnIn p [2, 3] ∧ s.atGap p)) then s.enterService p else s

/-- A receive lane the port depends on is not ACTIVE. -/
def laneGone (s : State) (p : Fin 4) : Bool := rxLanes.any fun r => s.laneRole (laneNo p r) != 0 && !s.laneActive (laneNo p r)

/-- What a port does when one of its lanes has changed state. -/
def portLanes (s : State) (p : Fin 4) : State :=
  let st := s.portState p
  let tx := s.laneState (laneNo p 3)
  if st = 2 ∧ !s.ports[p].waiting then
    let s := if s.portStep p = 1 ∧ tx = 3 then s.setStep p 2 else s
    -- the data lanes are acquired from RX2 ACTIVE
    let s := if s.refMode p = 0 ∧ s.laneActive (laneNo p 2) then
        [0, 1].foldl (fun s r => if s.laneState (laneNo p r) = 0 then s.laneAcquire (laneNo p r) else s) s
      else s
    if 2 ≤ s.portStep p ∧ s.portStep p < 4 ∧ !s.laneGone p then s.setStep p 4 else s
  else
    -- lanes that left ACTIVE carry no words until they rejoin (R337)
    let s := (s.dataLanes p).foldl (fun s r => if s.laneActive (laneNo p r) then s else s.setAligned p r false) s
    if st = 4 then
      if s.laneGone p ∨ tx = 7 ∨ !s.allAligned p then s.portOut p
      else if tx ≠ 3 ∧ !s.resettling p then s.put (Reg.CP_STATE p) Fl.CP_STATE_TX_RESETTLE 1
      else s
    else if st = 3 then if s.laneGone p ∨ tx = 7 ∨ !s.allAligned p then s.portOut p else s
    else if st = 5 ∧ tx = 7 then s.startAttempt p
    else s

/-- DEDUCED, log entry 71. -/
def allPortLanes (s : State) : State := (List.finRange 4).foldl portLanes s

/-- R336: no lane has rejoined within 20 ms. -/
def rejoinTimeout (s : State) (p : Fin 4) : State := if s.portState p = 5 then s.startAttempt p else s

def presence (s : State) (p : Fin 4) : State :=
  let s := (s.putFlag (Reg.CP_STATE p) Fl.CP_STATE_PRES true).cpEvent p Fl.CP_EVENT_PRESENCE
  if s.portFnIn p [1, 2, 3] then s.startTraining p else s.setPortState p 1

/-- R339. -/
def presenceLoss (s : State) (p : Fin 4) : State :=
  let training := s.portState p == 2
  let s := (s.putFlag (Reg.CP_STATE p) Fl.CP_STATE_PRES false).cpEvent p Fl.CP_EVENT_PRESENCE
  let s := if training then s.attemptFails p 10 0 else s
  let s := s.transits.foldl (fun s t => t.caps.foldl (fun s c =>
    if c.port == p.val && s.inSpan t c then s.endCapture t.fn t.tid p else s) s) s
  let was := s.ports[p].awaited
  let s := (s.portIdle p).modPort p fun x => { x with awaited := was }
  s.setPortState p 0

/-! ### Training blocks and markers -/

def setV {n : Nat} {α : Type} (v : Vector α n) (i : Nat) (a : α) : Vector α n := v.setIfInBounds i a

/-- A training block of the head on data lane `r` (R330 to R333): its STATE, PREC, LANE, the skew, and whether its words check. -/
def trainingBlock (s : State) (p : Fin 4) (r st : Nat) (prec : Bool) (laneId skew : Nat) (ok : Bool) : State :=
  if s.portState p ≠ 2 ∨ s.ports[p].waiting ∨ !(s.dataLanes p).contains r then s
  else if !ok then s.modPort p fun x => { x with blocks := setV x.blocks r 0 }
  else
    let s := s.modPort p fun x => { x with seen := setV x.seen r true }
    if laneId ≠ r then s.attemptFails p 6 r
    else if 64 < skew then s.attemptFails p 5 r
    else if st ≠ 2 then s.modPort p fun x => { x with blocks := setV x.blocks r 0 }
    else if prec && u8 (s.portSec p) 0x1C % 2 == 0 then s.attemptFails p 7 r
    else
      let first := (s.ports[p].prec.toList.getD r none).isNone
      let same := s.ports[p].prec.toList.getD r none == some prec || first
      let s := if s.portStep p = 2 then s.setStep p 3 else s
      let s := s.modPort p fun x => { x with prec := setV x.prec r (some prec),
                                             blocks := setV x.blocks r (if same then x.blocks.toList.getD r 0 + 1 else 1) }
      let x := laneNo p r
      let set := s.flag (Reg.LN_STATE x) Fl.LN_STATE_PRECODE
      let s := if first then
          if s.laneActive x && set != prec then (s.laneAcquire x).putFlag (Reg.LN_STATE x) Fl.LN_STATE_PRECODE prec
          else s.putFlag (Reg.LN_STATE x) Fl.LN_STATE_PRECODE prec
        else s
      let all := (s.dataLanes p).map fun r => s.ports[p].prec.toList.getD r none
      let done := (s.dataLanes p).all fun r => decide (4 ≤ s.ports[p].blocks.toList.getD r 0)
      if done ∧ all.any (· != some prec) then s.attemptFails p 7 r
      else if done ∧ !s.laneGone p then
        ((s.modPort p fun x => { x with step5 := true }).setStep p 5).putFlag (Reg.CP_STATE p) Fl.CP_STATE_PREC prec
      else s

/-- M0 and M1 of a marker (Table 10-1) are those of lane `r`, with this SEQ. -/
def markerSeq (r : Nat) (m : Option (Nat × Nat)) : Option Nat :=
  match m with
  | none => none
  | some (m0, m1) =>
    let crc := crc8 0x07 0 [m0 / 256 % 256, m0 % 256, m1 / 256 % 256]
    if m0 / 2 ^ 12 % 16 = 0xE ∧ m0 / 2 ^ 6 % 16 = 6 ∧ m0 / 2 ^ 10 % 4 = r ∧ m1 % 256 = crc then some (m0 % 16 * 256 + m1 / 256 % 256) else none

/-- A lane becomes misaligned (R317). -/
def misaligned (s : State) (p : Fin 4) (r : Nat) : State :=
  let s := s.setAligned p r false
  if s.portState p = 4 ∨ s.portState p = 3 then s.portOut p else s

def skewReg (s : State) (p : Fin 4) (r skew : Nat) : State :=
  let s := s.put (Reg.CP_SKEW p) ⟨8 * r, 8⟩ (min skew 255)
  let m := max (s.get (Reg.CP_SKEW p) Fl.CP_SKEW_MAX) (min skew 255)
  s.put (Reg.CP_SKEW p) Fl.CP_SKEW_MAX m

/-- The SEQ that the other data lanes give the marker of lane `r`; within one slot markers are taken in ascending lane order (DESIGN CHOICE, log entry 7). -/
def slotSeq (s : State) (p : Fin 4) (r : Nat) : Option Nat :=
  ((s.dataLanes p).find? fun o => o != r && s.aligned p o).map fun o =>
    let e := s.ports[p].seq.toList.getD o 0
    if o < r then (e + 4095) % 4096 else e

/-- A marker, or its absence, in the marker slot of data lane `r` (R317, R332, R337). -/
def laneMarker (s : State) (p : Fin 4) (r : Nat) (m : Option (Nat × Nat)) (skew : Nat) : State :=
  let st := s.portState p
  let got := markerSeq r m
  let next := fun (s : State) (v : Nat) => s.modPort p fun x => { x with seq := setV x.seq r ((v + 1) % 4096) }
  if !(s.dataLanes p).contains r then s
  else if st = 2 then
    if s.ports[p].step5 ∧ got = some 0 then
      if 64 < skew then s.attemptFails p 5 r
      else
        let s := ((next s 0).skewReg p r skew).setAligned p r true
        if s.allAligned p then s.setStep p 6 else s
    else s
  else if st ≠ 3 ∧ st ≠ 4 ∧ st ≠ 5 then s
  else
    let s := if m.isSome then s.skewReg p r skew else s
    if s.aligned p r then
      let want := s.ports[p].seq.toList.getD r 0
      let s := next s want
      let bad := got != some want
      let s := if bad then s.cpError p (Reg.CP_MARK_ERR p) ⟨8 * r, 8⟩ else s
      let run := if bad then s.ports[p].errRun.toList.getD r 0 + 1 else 0
      let s := s.modPort p fun x => { x with errRun := setV x.errRun r run }
      if m.isSome ∧ 64 < skew then (s.cpError p (Reg.CP_MARK_ERR p) Fl.CP_MARK_ERR_SKEW).misaligned p r
      else if 2 ≤ run then s.misaligned p r
      else if st = 5 ∧ s.allAligned p ∧ s.laneState (laneNo p 3) ≠ 7 then s.portReady p
      else s
    else if st = 5 ∧ s.laneActive (laneNo p r) then
      match got with
      | none => s.cpError p (Reg.CP_MARK_ERR p) ⟨8 * r, 8⟩
      | some v =>
        if skew ≤ 64 ∧ (s.slotSeq p r).getD v = v then
          let s := ((next s v).modPort p fun x => { x with errRun := setV x.errRun r 0 }).setAligned p r true
          let s := (s.cpCount p (Reg.CP_SVC_CNT p) Fl.CP_SVC_CNT_LANE_REJOIN).cpEvent p Fl.CP_EVENT_LANE_REJOIN
          if s.allAligned p then s.portReady p else s
        else s.cpError p (Reg.CP_MARK_ERR p) ⟨8 * r, 8⟩
    else s

/-- Step 7 of Table 10-7: the ten head registers read. -/
def trainingDone (s : State) (p : Fin 4) (regs : List Word) : State :=
  if s.portState p ≠ 2 ∨ s.portStep p ≠ 6 then s
  else
    let s := (s.setReg (Reg.CP_HEAD_ID p) (regs.getD 1 0)).put (Reg.CP_HEAD_CAPS p) Fl.CP_HEAD_CAPS_MODES (getF (regs.getD 8 0) ⟨0, 3⟩)
    match headCheck (s.portSec p) regs with
    | some a => s.attemptFails p 9 a
    | none =>
      let us := (s.clk.ts - s.ports[p].start) / 500
      let s := (s.put (Reg.CP_TRAIN p) Fl.CP_TRAIN_TIME_US (min us 0xFFFF)).cpEvent p Fl.CP_EVENT_TRAINED
      (s.setStep p 0).portReady p

/-! ### Head control (R325) -/

/-- The request goes out on TX0, unless TX0 resettles (R340). -/
def hcSend (s : State) (p : Fin 4) (h : HeadTxn) : State :=
  if s.resettling p then s.modPort p fun x => { x with hc := some { h with sent := false } }
  else s.modPort p fun x => { x with hc := some { h with sent := true }, lastTx := hcRequest h }

/-- CPn_HC_CMD: refused while BUSY or unless IN_SERVICE. -/
def hcStart (s : State) (p : Fin 4) (write : Bool) : State :=
  if s.flag (Reg.CP_HC_STATUS p) Fl.CP_HC_STATUS_BUSY || !s.inService p then s.put (Reg.CP_HC_STATUS p) Fl.CP_HC_STATUS_RESULT 6
  else
    let tag := (s.get (Reg.CP_HC_STATUS p) Fl.CP_HC_STATUS_TAG + 1) % 16
    let s := (s.put (Reg.CP_HC_STATUS p) Fl.CP_HC_STATUS_TAG tag).put (Reg.CP_HC_STATUS p) Fl.CP_HC_STATUS_BUSY 1
    s.hcSend p ⟨write, s.get (Reg.CP_HC_ADDR p) Fl.CP_HC_ADDR_ADDR, s.reg (Reg.CP_HC_WDATA p), tag, 0, false⟩

def hcEnd (s : State) (p : Fin 4) (result : Nat) : State :=
  let s := (s.put (Reg.CP_HC_STATUS p) Fl.CP_HC_STATUS_BUSY 0).put (Reg.CP_HC_STATUS p) Fl.CP_HC_STATUS_RESULT result
  (s.modPort p fun x => { x with hc := none }).cpEvent p Fl.CP_EVENT_HC_DONE

def hcResponse (s : State) (p : Fin 4) (l : List Nat) : State :=
  match s.ports[p].hc with
  | none => s
  | some h =>
    let w0 := wd l 0
    if h.sent ∧ l.length = 5 ∧ w0 / 2 ^ 12 % 16 = 2 ∧ wd l 4 = hcrc (l.take 4) ∧ w0 % 16 = h.tag ∧
        w0 / 16 % 4 = (if h.write then 2 else 1) then
      let st := wd l 1 / 256 % 256
      let s := if h.write then s else s.setReg (Reg.CP_HC_RDATA p) (BitVec.ofNat 32 (wd l 2 * 2 ^ 16 + wd l 3))
      if st < 4 then s.hcEnd p (st + 1) else s
    else s

/-- DEDUCED, log entry 116. -/
def hcTimeout (s : State) (p : Fin 4) : State :=
  match s.ports[p].hc with
  | none => s
  | some h =>
    -- the timers stop only while the port resettles (R340)
    if !h.sent && s.resettling p then s
    else if h.attempt = 0 then s.hcSend p { h with attempt := 1 }
    else s.hcEnd p 5

def headEvent (s : State) (p : Fin 4) (l : List Nat) : State :=
  if l.length = 5 ∧ wd l 0 / 2 ^ 12 % 16 = 3 ∧ wd l 4 = hcrc (l.take 4) then
    let s := (s.put (Reg.CP_HEAD_EVENT p) Fl.CP_HEAD_EVENT_CODE (wd l 1)).cpCount p (Reg.CP_HEAD_EVENT p) Fl.CP_HEAD_EVENT_COUNT
    (s.setReg (Reg.CP_HEAD_DETAIL p) (BitVec.ofNat 32 (wd l 2 * 2 ^ 16 + wd l 3))).cpEvent p Fl.CP_EVENT_HEAD_EVENT
  else s

/-! ### TX0 resettling (R340, R341) -/

def sendTrigger (s : State) (p : Fin 4) (a : Awaited) : State :=
  s.modPort p fun x => { x with awaited := x.awaited ++ [{ a with since := s.clk.ts }], lastTx := triggerWords p a.trig }

/-- The recovery window has ended: the queue goes out with LATE = 1, then any request that waits. -/
def trqRelease (s : State) (p : Fin 4) : State :=
  if s.inService p && s.resettling p && s.laneActive (laneNo p 3) then
    let q := s.ports[p].queue
    let s := (s.modPort p fun x => { x with queue := [] }).put (Reg.CP_TRQ p) Fl.CP_TRQ_LEVEL 0
    let s := s.put (Reg.CP_STATE p) Fl.CP_STATE_TX_RESETTLE 0
    let s := q.foldl (fun s a => (s.sendTrigger p { a with trig := { a.trig with late := true } }).cpCount p (Reg.CP_TRQ p) Fl.CP_TRQ_LATE) s
    let s := if q.isEmpty then s else s.cpEvent p Fl.CP_EVENT_TRQ_LATE
    match s.ports[p].hc with
    | some h => if h.sent then s else s.hcSend p h
    | none => s
  else s

/-! ## Line trigger generator (chapter 11, section 4) -/

/-- A trigger on its way to the port: sent, or queued while TX0 resettles. A ninth in the queue takes the port out of service. -/
def routeTrigger (s : State) (p : Fin 4) (a : Awaited) : State :=
  if !s.resettling p then s.sendTrigger p a
  else if s.ports[p].queue.length < 8 then
    let s := s.modPort p fun x => { x with queue := x.queue ++ [a] }
    let n := s.ports[p].queue.length
    let s := s.put (Reg.CP_TRQ p) Fl.CP_TRQ_LEVEL n
    s.put (Reg.CP_TRQ p) Fl.CP_TRQ_MAX (max n (s.get (Reg.CP_TRQ p) Fl.CP_TRQ_MAX))
  else (s.missingRows p a true).portOut p

/-- R357. -/
def overrate (s : State) (p : Fin 4) : State :=
  let spacing := 500000000 / max 1 (u32 (s.portSec p) 4)
  match s.ports[p].lastTrig with
  | some t =>
    if s.clk.ts - t < spacing then (s.bump (Reg.LTG_P_ERR p) Fl.LTG_P_ERR_OVERRATE).put (Reg.LTG_P_EVENT p) Fl.LTG_P_EVENT_OVERRATE 1 else s
  | none => s

/-- Line `c.next` of a transit, which has fallen due, is issued or passed over (R356). -/
def issueLine (s : State) (p : Fin 4) (t : Transit) (c : Capture) : State :=
  let k := c.next
  let n := t.fn
  if s.inService p && !c.barred then
    let trig : Trigger := ⟨k % 2 ^ 16, s.fnPos n, t.tid, !c.first, false⟩
    let s := s.overrate p
    let s := (s.modPort p fun x => { x with lastTrig := some s.clk.ts }).modCap n t.tid p fun c =>
      { c with next := k + 1, started := true, first := true, trigs := (k, trig.pos) :: c.trigs }
    let s := (s.wrapBy (Reg.LTG_P_TRIGGERS p) Fl.LTG_P_TRIGGERS_COUNT 1).put (Reg.LTG_P_STATUS p) Fl.LTG_P_STATUS_LINE trig.line
    let acc := s.ratioLines n p * s.past n (s.spanStart t c) - (256 * s.ratioCounts n p * k : Nat)
    let s := s.setReg (Reg.LTG_P_ACC p) (BitVec.ofInt 32 acc)
    s.routeTrigger p ⟨trig, List.range (s.portChannels p), s.clk.ts, n, k⟩
  else
    let s := (s.modCap n t.tid p fun c => { c with next := k + 1, started := true }).lineMissing n t.tid p k
    (s.bump (Reg.LTG_P_SKIP p) Fl.LTG_P_SKIP_UNSERVED).put (Reg.LTG_P_EVENT p) Fl.LTG_P_EVENT_UNSERVED 1

/-- A transit still has lines to come on a port. -/
def spanOpen (s : State) (t : Transit) (c : Capture) : Bool := !c.ended && s.hasLine t c.port c.next

def capOn (t : Transit) (p : Nat) : Option Capture := t.caps.find? fun (c : Capture) => c.port == p

/-- R353: line 0 of a later transit is due, so the captures before it on the port end. -/
def overlapCheck (s : State) (p : Fin 4) (n : Nat) : State :=
  let l := s.openOf n
  match l.reverse.find? fun t => match capOn t p with
      | some c => !c.ended && s.lineDue t c 0 && s.hasLine t p 0
      | none => false with
  | none => s
  | some t =>
    let before := l.takeWhile fun x => x.tid != t.tid
    let s := before.foldl (fun s x => match capOn x p with
      | some c => if c.started && s.spanOpen x c then
          ((s.endCapture n x.tid p).bump (Reg.LTG_P_ERR p) Fl.LTG_P_ERR_OVERLAP).put (Reg.LTG_P_EVENT p) Fl.LTG_P_EVENT_OVERLAP 1
        else s
      | none => s) s
    s.modCap n t.tid p fun c => { c with started := true }

/-- The next due line of a port (R355, R356). -/
def lineTrigger (s : State) (p : Fin 4) : State :=
  match s.portFn p with
  | none => s
  | some n =>
    let s := s.overlapCheck p n
    match (s.openOf n).findSome? fun t => (capOn t p).bind fun c => if s.spanOpen t c && s.lineDue t c c.next then some (t, c) else none with
    | some (t, c) => s.issueLine p t c
    | none => s

/-- The transit whose span is in progress on a port, with its capture there. -/
def ltgServed (s : State) (p : Nat) : Option (Transit × Capture) :=
  match s.portFn p with
  | none => none
  | some n => (s.openOf n).findSome? fun t => (capOn t p).bind fun c => if c.started && s.spanOpen t c then some (t, c) else none

/-- LTG_Pp_STATUS.ACTIVE and SLOT. -/
def ltgActive (s : State) (p : Nat) : Option Nat := (s.ltgServed p).map (·.1.slot)

/-- R355: the accumulator of the DDA, L × (H - 256 S) less 256 C for every line issued after line 0. -/
def ltgAcc (s : State) (t : Transit) (c : Capture) : Int :=
  s.ratioLines t.fn c.port * s.past t.fn (s.spanStart t c) - (256 * s.ratioCounts t.fn c.port * (c.next - 1) : Nat)

/-! ## Received lines (R322, R323, R344) -/

def lateLine (s : State) (a : Awaited) (p : Fin 4) : State :=
  let s := (s.modCap a.fn a.trig.tid p fun c => { c with late := a.k :: c.late }).bump (Reg.ACQ_FN_CNT2 a.fn) Fl.ACQ_FN_CNT2_LATE_LINES
  if s.flag (Reg.ACQ_FN_CTRL a.fn) Fl.ACQ_FN_CTRL_LATE_DEGRADES then s.degrade a.fn a.trig.tid else s

/-- Channel `ch` of an awaited trigger is settled. -/
def takeChannel (s : State) (p : Fin 4) (a : Awaited) (ch : Nat) : State :=
  let f := fun (y : Awaited) => if y == a then { y with chans := y.chans.filter (· != ch) } else y
  s.modPort p fun x => { x with awaited := (x.awaited.map f).filter fun y => !y.chans.isEmpty }

/-- A LINE message received whole; `cv` are the lanes on which a code violation was seen within it. DEDUCED, log entry 110. -/
def lineMessage (s : State) (p : Fin 4) (l : List Nat) (cv : List (Fin 3)) : State :=
  if !s.inService p then s
  else
    let s := cv.foldl (fun s r => s.cpError p (Reg.CP_CV p) ⟨8 * r.val, 8⟩) s
    let m := lineParse l
    let hit := s.ports[p].awaited.find? fun a => a.trig.line == m.line && a.trig.pos == m.pos && a.trig.tid == m.tid && a.chans.contains m.ch
    if !m.headOk then s.cpError p (Reg.CP_PKT_ERR p) Fl.CP_PKT_ERR_HDR_CRC
    else if 131072 < fifoBytes s.ports[p].fifo + m.npix then
      let s := s.cpError p (Reg.CP_LINE_ERR p) Fl.CP_LINE_ERR_FIFO_DROP
      match hit with
      | some a => ((s.takeChannel p a m.ch).rowMissing a.fn a.trig.tid p a.k m.ch)
      | none => s
    else if !m.payOk then s.cpError p (Reg.CP_PKT_ERR p) Fl.CP_PKT_ERR_PAY_CRC
    else if m.npix ≠ s.portPixels p then s.cpError p (Reg.CP_PKT_ERR p) Fl.CP_PKT_ERR_NPIX
    else
      match hit with
      | none => s.cpError p (Reg.CP_PKT_ERR p) Fl.CP_PKT_ERR_UNEXPECTED
      | some a =>
        let s := (s.takeChannel p a m.ch).modPort p fun x => { x with fifo := x.fifo ++ [⟨a.trig.tid, a.fn, a.k, m.ch, m.pixels⟩] }
        let s := s.put (Reg.CP_FIFO p) Fl.CP_FIFO_LEVEL (fifoBytes s.ports[p].fifo)
        let s := if s.cpFrozen p then s else s.wrapBy (Reg.CP_LINES p) Fl.CP_LINES_COUNT 1
        if m.late then s.lateLine a p else s

/-- R322: the channels of triggers whose LINE_TIMEOUT_US has expired are missing. -/
def lineTimeout (s : State) (p : Fin 4) : State :=
  let limit := 500 * s.get (Reg.CP_CFG p) Fl.CP_CFG_LINE_TIMEOUT_US
  let out := s.ports[p].awaited.filter fun a => decide (a.since + limit ≤ s.clk.ts)
  let s := s.modPort p fun x => { x with awaited := x.awaited.filter fun a => !out.contains a }
  out.foldl (fun s a => s.missingRows p a true) s

def cpCntClear (s : State) (p : Fin 4) : State :=
  let s := (s.put (Reg.CP_TRQ p) Fl.CP_TRQ_MAX 0).put (Reg.CP_TRQ p) Fl.CP_TRQ_LATE 0
  let s := [Reg.CP_CV p, Reg.CP_MARK_ERR p, Reg.CP_PKT_ERR p, Reg.CP_LINE_ERR p, Reg.CP_SVC_CNT p, Reg.CP_LINES p].foldl (fun s a => s.setReg a 0) s
  (s.put (Reg.CP_SKEW p) Fl.CP_SKEW_MAX 0).put (Reg.CP_HEAD_EVENT p) Fl.CP_HEAD_EVENT_COUNT 0

def cpRetrain (s : State) (p : Fin 4) : State := if s.portState p = 6 ∧ s.portFnIn p [1, 2, 3] then s.startTraining p else s

end State

end Sys2Proof.Machine
end

