-- ==== Sys2Proof/Machine/Engines.lean ====
section
/-! DEFINITION. Convolution engines and the post-processing unit: geometry, arithmetic, jobs and their cycle counts (chapters 12 and 13). -/
namespace Sys2Proof.Machine

/-! ## Arithmetic (R375, R376) -/

/-- R375: the sum modulo 2^32, read as signed. -/
def wrap32 (v : Int) : Int := signed 32 (unsigned 32 v)

/-- R(t) of R376. -/
def roundBias (t : Nat) : Int := if t = 0 then 0 else 2 ^ (t - 1)

/-- Arithmetic right shift, rounding half up. -/
def shiftRound (p : Int) (t : Nat) : Int := (p + roundBias t).fdiv (2 ^ t)

/-- R376: scale, round and activate. -/
def activate (act clampHi m sh : Nat) (acc : Int) : Int :=
  let p := acc * m
  if act = 0 then shiftRound p sh
  else if act = 1 then max 0 (shiftRound p sh)
  else if act = 2 then min clampHi (max 0 (shiftRound p sh))
  else if 0 ≤ p then shiftRound p sh else shiftRound p (sh + 3)

/-- R376: saturation to the output byte. -/
def saturate (signedOut : Bool) (r : Int) : Int := if signedOut then intClamp (-128) 127 r else intClamp 0 255 r

def requant (act clampHi m sh : Nat) (signedOut : Bool) (acc : Int) : Int := saturate signedOut (activate act clampHi m sh acc)

/-- A byte read under IN_SIGNED. -/
def byteVal (sgn : Bool) (b : Nat) : Int := if sgn then signed 8 b else (b : Int)

/-! ## Layouts (R370, R371) -/

/-- Bytes of a block-row, and the row pitch of layout C`b` for `c` channels. -/
def blockRow (w b : Nat) : Nat := 64 * ((w * b + 63) / 64)
def rowPitch (w c b : Nat) : Nat := if b = 0 then 64 * ((w * c + 63) / 64) else ceilDiv c b * blockRow w b

/-- Byte offset of channel `c` of pixel `x` in a row; `b` = 0 is a packed row of `chans` channels. -/
def rowByte (w chans b x c : Nat) : Nat := if b = 0 then chans * x + c else c / b * blockRow w b + b * x + c % b

/-- A row of bytes in layout C`b` from its values; bytes that hold no channel are 0. -/
def packRow (w c b : Nat) (f : Nat → Nat → Int) : List Byte :=
  (List.range (rowPitch w c b)).map fun i =>
    let br := blockRow w b
    let x := i % br / b
    let ch := b * (i / br) + i % br % b
    if x < w ∧ ch < c then BitVec.ofInt 8 (f x ch) else 0

/-! ## Cycle counts (R390, R391, R404) -/

def mceCycles (kh kw stride cin cout wIn padL padR wOut outB rows : Nat) : Nat :=
  if rows = 0 then 64
  else
    let wp := wIn + padL + padR
    let nbi := ceilDiv cin 32
    let nog := ceilDiv cout 64
    let q := ceilDiv (kh * kw) 4
    let nt := ceilDiv wOut 64
    let wl := wOut - 64 * (nt - 1)
    let crow := nog * (nbi * ((nt - 1) * 64 * q + max (wl * q) (16 * kh * kw)) + 16)
    let wr := ceilDiv (wOut * ceilDiv cout outB * outB) 32
    64 + ceilDiv cout 16 + kh * nbi * wp + rows * max crow (max (stride * nbi * wp) wr)

def eleCycles (packed : Bool) (kh kw stride cin cout wIn padL padR wOut outB rows : Nat) : Nat :=
  if rows = 0 then 32
  else
    let cine := if packed then cin else 16 * ceilDiv cin 16
    let nog := ceilDiv cout 16
    let wb := 16 * nog * kh * kw * cine
    let wp := wIn + padL + padR
    let f := ceilDiv (wp * cine) 32
    let p := ceilDiv (cine * kh * kw) 16
    let wr := ceilDiv (wOut * ceilDiv cout outB * outB) 32
    32 + ceilDiv cout 16 + ceilDiv wb 128 + kh * f + rows * max (nog * (wOut * p + 8)) (max (stride * f) wr)

/-! ## Argmax and top-K (R401, R402) -/

/-- The lowest index whose value is the largest, and that value. -/
def argmax : List Int → Option (Nat × Int)
  | [] => none
  | v :: r => match argmax r with
    | none => some (0, v)
    | some (i, m) => if m ≤ v then some (0, v) else some (i + 1, m)

/-- A candidate's place among entries sorted by score, highest first, then by linear index: later ones of equal score follow. -/
def topInsert (e : Int × Nat × Nat × Nat) : List (Int × Nat × Nat × Nat) → List (Int × Nat × Nat × Nat)
  | [] => [e]
  | x :: r => if x.1 < e.1 then e :: x :: r else x :: topInsert e r

/-- R401, R402: one image pixel (x, y) with its channel values, in raster order. -/
def Summary.pixel (m : Summary) (k : Nat) (minScore : Int) (x y : Nat) (v : List Int) : Summary :=
  let m := { m with pixels := m.pixels + 1 }
  match m.kind with
  | 4 => { m with sum := (m.sum.zipWith (· + ·) v).map wrap32 }
  | 5 => match argmax v with
    | none => m
    | some (c, b) => { m with count := m.count.set c (m.count.getD c 0 + 1), peak := m.peak.set c (max b (m.peak.getD c noneScore)) }
  | _ => match argmax v with
    | none => m
    | some (c, b) =>
      if b < minScore then m
      else
        let m := { m with cand := m.cand + 1 }
        if 65536 < m.cand then m else { m with entries := (topInsert (b, x, y, c) m.entries).take k }
where
  noneScore : Int := -2 ^ 31

/-- R400: the average of a channel. -/
def globalAverage (sum : Int) (n : Nat) : Int :=
  if n = 0 then -2 ^ 31 else if n = 1 then sum else (sum * ((2 ^ 25 / n + 1) / 2 : Nat) + 2 ^ 23).fdiv (2 ^ 24)

/-! ## Upsampling (R399) -/

/-- Table 13-2. -/
def bilinearWeights (f p : Nat) : List Nat :=
  if f = 2 then (if p = 0 then [1, 3, 0] else [0, 3, 1])
  else if p = 0 then [3, 5, 0] else if p = 1 then [1, 7, 0] else if p = 2 then [0, 7, 1] else [0, 5, 3]

def clampIdx (n : Nat) (i : Int) : Nat := (max 0 (min ((n : Int) - 1) i)).toNat

/-- One output value of an upsample from a function that reads input (x, y). -/
def upsample (f mode w h X Y : Nat) (a : Nat → Nat → Int) : Int :=
  if mode = 0 then a (X / f) (Y / f)
  else
    let d := if f = 2 then 16 else 64
    let wx := bilinearWeights f (X % f)
    let wy := bilinearWeights f (Y % f)
    let t := (List.range 3).foldl (fun t i => (List.range 3).foldl (fun t j =>
      t + (wy.getD i 0 * wx.getD j 0 : Nat) * a (clampIdx w (((X / f + j : Nat) : Int) - 1)) (clampIdx h (((Y / f + i : Nat) : Int) - 1))) t) (0 : Int)
    (t + (d / 2 : Int)).fdiv d

/-! ## Geometry of a program (R373, R388, R399) -/

/-- The shape of a step: its input, its output and its height for one transit (none while N is not known). Layout 0 is packed, 16 and 32
are blocks, 1 is a class map. -/
structure Geo where
  wIn : Nat
  hIn : Option Nat
  cIn : Nat
  bIn : Nat
  wOut : Nat
  hOut : Option Nat
  cOut : Nat
  bOut : Nat
  outBand : Option Nat
  outSigned : Bool
  deriving DecidableEq, Repr

def Geo.none : Geo := ⟨0, some 0, 0, 16, 0, some 0, 0, 16, Option.none, false⟩

def layoutBlock (l : Nat) : Nat := if l = 2 then 32 else if l = 3 then 1 else 16

/-- Output size of a layer along one axis. -/
def convSize (n pad k stride : Nat) : Nat := (((n : Int) + pad - k).fdiv stride + 1).toNat

namespace State

/-- The decimated band of a port as an input. -/
def decGeo (s : State) (p : Nat) (h : Option Nat) : Geo :=
  ⟨0, none, 0, 0, s.decWidth p, h, s.portChannels p, if s.portChannels p ≤ 4 then 0 else 16, none, false⟩

/-- What step `k` reads, from the steps before it. -/
def sourceGeo (s : State) (before : List Geo) (src : Nat) (dec : Nat → Option Nat) : Geo :=
  if 0x80 ≤ src ∧ src < 0x84 then s.decGeo (src - 0x80) (dec (src - 0x80))
  else if src = 0xFE then before.getLastD Geo.none
  else (before.find? fun g => g.outBand == some src).getD Geo.none

def stepGeo (s : State) (before : List Geo) (d : List Nat) (dec : Nat → Option Nat) : Geo :=
  let kind := u8 d 0
  if kind ≤ 2 then
    let i := s.sourceGeo before (u8 d 2) dec
    let f := u8 d 0x10
    let stride := max 1 (u8 d 6)
    let ob := if f.testBit 6 then none else some (u8 d 3)
    ⟨i.wOut, i.hOut, i.cOut, i.bOut, convSize i.wOut (u8 d 0xE + u8 d 0xF) (u8 d 5) stride,
      i.hOut.map fun h => convSize h (u8 d 0xC + u8 d 0xD) (u8 d 4) stride, u16 d 0xA, layoutBlock (u8 d 7), ob, f.testBit 1⟩
  else
    let i := s.sourceGeo before (u8 d 1) dec
    let ob := if u8 d 2 = 0xFF then none else some (u8 d 2)
    let sgn := (u8 d 3).testBit 1
    let c := u16 d 4
    if kind = 3 then
      ⟨i.wOut, i.hOut, i.cOut, i.bOut, u8 d 7 * i.wOut, i.hOut.map (u8 d 7 * ·), i.cOut, i.bOut, ob, sgn⟩
    else if kind = 4 then ⟨i.wOut, i.hOut, i.cOut, i.bOut, 1, i.hOut.map (min 1 ·), c, layoutBlock (u8 d 6), ob, sgn⟩
    else ⟨i.wOut, i.hOut, i.cOut, i.bOut, i.wOut, i.hOut, 1, 1, ob, false⟩

/-- The shapes of every step of a function's program. -/
def geos (s : State) (n : Nat) (dec : Nat → Option Nat) : List Geo :=
  (List.range (s.stepCount n)).foldl (fun l k => l ++ [s.stepGeo l (s.stepBytes n k) dec]) []

def transitGeos (s : State) (t : Transit) : List Geo := s.geos t.fn fun p => s.decRows t p

/-! ## Steps and jobs -/

def stepKind (s : State) (n k : Nat) : Nat := u8 (s.stepBytes n k) 0
/-- The unit that runs a step: 0 the MCE, 1 the ELE, 2 the PST. -/
def stepUnit (s : State) (n k : Nat) : Nat := let d := s.stepKind n k; if d = 1 then 0 else if d = 2 then 1 else 2
/-- A PST step fed by the fused lane has no jobs (R403). -/
def fusedStep (s : State) (n k : Nat) : Bool := decide (5 ≤ s.stepKind n k) && u8 (s.stepBytes n k) 1 == 0xFE
/-- The layer step is fused with the PST step after it. -/
def feedsLane (s : State) (n k : Nat) : Bool := s.stepKind n k == 2 && (u8 (s.stepBytes n k) 0x10).testBit 6

def geoAt (g : List Geo) (k : Nat) : Geo := g.getD k Geo.none

/-- Jobs of a step for a transit (R381, R403), once its input height is known. -/
def stepJobs (s : State) (n : Nat) (g : List Geo) (k : Nat) : Option Nat :=
  let x := geoAt g k
  if s.fusedStep n k then some 0
  else if s.stepKind n k = 3 then x.hOut.map fun h => ceilDiv h (s.stripeLines n)
  else x.hIn.map fun h => ceilDiv h (s.stripeLines n)

def inBand? (s : State) (n k : Nat) : Option Band := (s.stepInput n k).bind fun b => s.band? n b.1 b.2

/-- Input stripe `j` of a transit is complete; and it is marked last. -/
def stripeComplete (b : Band) (tid j : Nat) : Bool := match bandStripe? b tid j with | some x => x.complete | none => false
def stripeLast (b : Band) (tid j l : Nat) (h : Option Nat) : Bool :=
  stripeComplete b tid j && match h with | some h => decide (h ≤ (j + 1) * l) | none => false

/-- The band a job writes: its own, or that of the PST step its rows feed (R403). -/
def jobOutBand (s : State) (n k : Nat) (g : List Geo) : Option Nat :=
  if s.feedsLane n k then (geoAt g (k + 1)).outBand else if 4 = s.stepKind n k then none else (geoAt g k).outBand

/-- Output rows of job `j`: first and one past the last (R381, R403). -/
def jobRows (s : State) (n k j : Nat) (g : List Geo) : Nat × Nat :=
  let l := s.stripeLines n
  let x := geoAt g k
  let kind := s.stepKind n k
  let stride := if kind ≤ 2 then max 1 (u8 (s.stepBytes n k) 6) else 1
  let lim := fun v => match x.hOut with | some h => min v h | none => v
  if kind = 4 then (j * l, match x.hIn with | some h => min ((j + 1) * l) h | none => (j + 1) * l)
  else (lim (j * l / stride), lim ((j + 1) * l / stride))

/-- R382, R403: job `j` of step `k` for transit `t` is ready. -/
def jobReady (s : State) (t : Transit) (g : List Geo) (k : Nat) : Bool :=
  let j := t.jobs.getD k 0
  let l := s.stripeLines t.fn
  match s.inBand? t.fn k with
  | none => false
  | some b =>
    let kind := s.stepKind t.fn k
    let h := (geoAt g k).hIn
    let more := match s.stepJobs t.fn g k with | some m => decide (j < m) | none => true
    let f := u8 (s.stepBytes t.fn k) 7
    let input := if kind ≤ 2 then stripeComplete b t.tid (j + 1) || stripeLast b t.tid j l h
      else if kind = 3 then stripeComplete b t.tid (j / f + 1) || stripeLast b t.tid (j / f) l h
      else stripeComplete b t.tid j
    let rows := s.jobRows t.fn k j g
    let slot := match s.jobOutBand t.fn k g with
      | some o => (match s.band? t.fn 2 o with
        | some ob => rows.2 ≤ rows.1 || rows.1 % l != 0 || slotFree ob ob.b
        | none => true)
      | none => true
    more && input && slot && !s.fusedStep t.fn k && (s.fnRunning t.fn || s.fnDraining t.fn)

/-- Distance still to travel to the decision point, none without one (R28). -/
def toDecision (s : State) (t : Transit) : Option Int :=
  match t.lep with
  | some l => if s.fnLineTimer t.fn || (s.fnVerdict t.fn).isNone then none else some (-(s.past t.fn ((l : Int) + s.decisionPoint t.fn)))
  | none => none

/-- R28, R383: `a` goes before `b`. -/
def jobBefore (s : State) (a b : Transit × Nat) : Bool :=
  let key := fun (x : Transit × Nat) => (x.1.fn, x.1.tid, x.2)
  let tie := decide ((key a).1 < (key b).1) || (a.1.fn == b.1.fn && (decide (a.1.tid < b.1.tid) || (a.1.tid == b.1.tid && decide (a.2 < b.2))))
  match s.toDecision a.1, s.toDecision b.1 with
  | some x, some y => decide (x < y) || (x == y && tie)
  | some _, none => true
  | none, some _ => false
  | none, none => tie

/-- Jobs ready for a unit: (transit, step). -/
def readyJobs (s : State) (u : Nat) : List (Transit × Nat) :=
  let busy := fun (t : Transit) (k : Nat) => s.running.toList.any fun r => match r with | some x => x.fn == t.fn && x.tid == t.tid && x.step == k | none => false
  s.transits.flatMap fun t =>
    let g := s.transitGeos t
    ((List.range (s.stepCount t.fn)).filter fun k => s.stepUnit t.fn k == u && s.jobReady t g k && !busy t k).map fun k => (t, k)

def firstJob (s : State) (l : List (Transit × Nat)) : Option (Transit × Nat) :=
  l.foldl (fun b x => match b with | none => some x | some y => if s.jobBefore x y then some x else b) none

/-- Registers of the unit: E_STATUS of the MCE and ELE, PST_STATUS. -/
def unitStatus (u : Nat) : Nat := if u = 2 then Reg.PST_STATUS else Reg.E_STATUS u
def unitFenced (s : State) (u : Nat) : Bool := s.flag (unitStatus u) Fl.E_STATUS_FENCED

/-- R28, R395, R449: nothing is dispatched while the trap is asserted or dispatch is halted. -/
def dispatchHeld (s : State) : Bool := s.trap || s.flag Reg.FCU_DEBUG Fl.FCU_DEBUG_HALT

/-- R383: the earliest ready job starts on a free unit. -/
def dispatch (s : State) (u : Fin 3) : State :=
  if s.running[u].isSome || s.unitFenced u || s.dispatchHeld || !s.isRun then s
  else
    match s.firstJob (s.readyJobs u) with
    | none => s
    | some (t, k) =>
      let s := { s with running := s.running.set u (some ⟨t.fn, t.tid, k, t.jobs.getD k 0, s.clk.ts, false⟩) }
      let a := unitStatus u
      let s := (((s.put a Fl.E_STATUS_BUSY 1).put a Fl.E_STATUS_FN t.fn).put a Fl.E_STATUS_STEP k).put a Fl.E_STATUS_SLOT t.slot
      if u.val = 2 then s.setReg Reg.PST_JOB_TID (BitVec.ofNat 32 t.tid)
      else (s.put (Reg.E_JOB u) Fl.E_JOB_STRIPE (t.jobs.getD k 0)).setReg (Reg.E_JOB_TID u) (BitVec.ofNat 32 t.tid)

/-! ## What a job computes -/

/-- A byte of the stripe store as a job reads it: 0 in place of an uncorrectable word. -/
def stsByte (s : State) (zap : List Nat) (a : Nat) : Nat := if zap.contains (a / 8) then 0 else (s.sts.read stsId a).toNat
def wsByte (s : State) (zap : List Nat) (a : Nat) : Nat := if zap.contains (a / 8) then 0 else (s.ws.read wsId a).toNat

/-- Value of channel `c` of pixel (x, y) of a transit's input band. -/
def inSample (s : State) (zap : List Nat) (b : Band) (x : Geo) (tid l : Nat) (sgn : Bool) (c px py : Nat) : Int :=
  match bandStripe? b tid (py / l) with
  | some y => byteVal sgn (s.stsByte zap (b.base + (y.b % 3 * l + py % l) * b.pitch + rowByte x.wIn x.cIn x.bIn px c))
  | none => 0

/-- R374: the sample a tap reads, with padding. -/
def tapSample (s : State) (zap : List Nat) (b : Band) (x : Geo) (tid l : Nat) (sgn replicate : Bool) (c : Nat) (col row : Int) : Int :=
  let h := x.hIn.getD (2 ^ 32)
  if 0 ≤ row ∧ row < h ∧ 0 ≤ col ∧ col < x.wIn then s.inSample zap b x tid l sgn c col.toNat row.toNat
  else if replicate then s.inSample zap b x tid l sgn c (clampIdx x.wIn col) (clampIdx h row)
  else 0

/-- Byte address of a weight, from the start of the record (R377). -/
def weightOff (mce packed : Bool) (kh kw cin o c i j : Nat) : Nat :=
  if mce then (((o / 64 * ceilDiv cin 32 + c / 32) * kh + i) * kw + j) * 2048 + 32 * (o % 64) + c % 32
  else
    let cine := if packed then cin else 16 * ceilDiv cin 16
    (((o / 16 * kh + i) * kw + j) * cine + c) * 16 + o % 16

/-- OFFSET of the WEIGHTS-REF that a function's program names. -/
def weightsBase (s : State) (n : Nat) : Nat :=
  match s.fnProgram n with
  | some p => u32 (s.sec 0x12 (u8 (s.sec 0x11 p) 0)) 0
  | none => 0

def wsU (s : State) (zap : List Nat) (a n : Nat) : Nat := (List.range n).foldl (fun v i => v + 2 ^ (8 * i) * s.wsByte zap (a + i)) 0

/-- R375, R376: one output value of a layer step. -/
def convValue (s : State) (zap wzap : List Nat) (b : Band) (x : Geo) (tid l n : Nat) (d : List Nat) (ox oy o : Nat) : Int :=
  let f := u8 d 0x10
  let base := s.weightsBase n
  let stride := u8 d 6
  let kh := u8 d 4
  let kw := u8 d 5
  let w := base + u32 d 0x14
  let bias := signed 32 (s.wsU wzap (base + u32 d 0x18 + 4 * o) 4)
  let q := base + u32 d 0x1C + 4 * o
  let acc := (List.range kh).foldl (fun a i => (List.range kw).foldl (fun a j => (List.range (u16 d 8)).foldl (fun a c =>
      let wt := signed 8 (s.wsByte wzap (w + weightOff (u8 d 0 == 1) (u8 d 1 == 0) kh kw (u16 d 8) o c i j))
      let row : Int := ((stride * oy + i : Nat) : Int) - u8 d 0xC
      let col : Int := ((stride * ox + j : Nat) : Int) - u8 d 0xE
      a + wt * s.tapSample zap b x tid l (f.testBit 0) (f.testBit 2) c col row) a) a) bias
  requant (f / 16 % 4) (u8 d 0x11) (s.wsU wzap q 2) (s.wsByte wzap (q + 2) % 32) (f.testBit 1) (wrap32 acc)

/-- The place of row `y` in a transit's output band, opening its stripe when it is the first of one (R382, R386). -/
def outRowStripe (s : State) (n band tid y : Nat) : State × Option Stripe :=
  let l := s.stripeLines n
  let s := match s.band? n 2 band with
    | some b => if (bandStripe? b tid (y / l)).isNone ∧ y % l = 0 then s.openStripe n 2 band tid (y / l) [] else s
    | none => s
  (s, (s.band? n 2 band).bind fun b => bandStripe? b tid (y / l))

/-- R386: a row of an activation band; with it the stripe may be complete, and marked last and padded with 0. -/
def writeOutRow (s : State) (n band tid y : Nat) (h : Option Nat) (row : List Byte) : State :=
  let l := s.stripeLines n
  let r := s.outRowStripe n band tid y
  match r.2, r.1.band? n 2 band with
  | some x, some b =>
    let a := fun i => b.base + (x.b % 3 * l + i) * b.pitch
    let s := { r.1 with sts := r.1.sts.writeList (a (y % l)) row }
    let last := h == some (y + 1)
    let pad := if last then (List.range l).filter fun i => decide (y % l < i) else []
    let s := pad.foldl (fun s i => { s with sts := s.sts.writeList (a i) (List.replicate b.pitch 0) }) s
    if last || y % l + 1 == l then s.completeStripe n 2 band x.b else s
  | _, _ => r.1

def modSummary (s : State) (n tid k : Nat) (f : Summary → Summary) : State :=
  s.modTransit n tid fun t => { t with sums := t.sums.map fun m => if m.step == k then f m else m }

/-- MIN_SCORE and K of a top-K step. -/
def minScore (d : List Nat) : Int := signed 16 (u16 d 0xA)

/-- A row that a global-average, argmax or top-K step takes in (R400 to R402); an argmax with a band writes the class map. -/
def pstRow (s : State) (n tid k y w : Nat) (h : Option Nat) (vals : Nat → List Int) : State :=
  let d := s.stepBytes n k
  let beyond := fun (t : State) => match (t.transit? n tid).bind fun x => x.sums.find? fun m => m.step == k with
    | some m => decide (65536 < m.cand)
    | none => false
  let was := beyond s
  let s := s.modSummary n tid k fun m => (List.range w).foldl (fun m x => m.pixel (u8 d 7) (minScore d) x y (vals x)) m
  let s := if beyond s && !was then (s.put Reg.PST_EVENT Fl.PST_EVENT_CAND_OVF 1).bump Reg.PST_CAND Fl.PST_CAND_OVF else s
  if u8 d 0 = 5 ∧ u8 d 2 ≠ 0xFF then
    let row := (List.range (64 * ((w + 63) / 64))).map fun x => if x < w then (match argmax (vals x) with | some (c, _) => BitVec.ofNat 8 c | none => 0) else 0
    s.writeOutRow n (u8 d 2) tid y h row
  else s

/-- The rows of a layer job (R374 to R376, R386), to its band or down the fused lane. -/
def layerRows (s : State) (zap wzap : List Nat) (t : Transit) (g : List Geo) (k lo hi : Nat) : State :=
  let n := t.fn
  let d := s.stepBytes n k
  let x := geoAt g k
  let l := s.stripeLines n
  match s.inBand? n k with
  | none => s
  | some b =>
    let src := s
    ((List.range (hi - lo)).map (lo + ·)).foldl (fun s y =>
      let v := fun ox o => src.convValue zap wzap b x t.tid l n d ox y o
      if src.feedsLane n k then s.pstRow n t.tid (k + 1) y x.wOut x.hOut fun ox => (List.range x.cOut).map (v ox)
      else match x.outBand with
        | some ob => s.writeOutRow n ob t.tid y x.hOut (packRow x.wOut x.cOut x.bOut v)
        | none => s) s

/-- The rows of a PST job (R399 to R403). -/
def pstRows (s : State) (zap : List Nat) (t : Transit) (g : List Geo) (k lo hi : Nat) : State :=
  let n := t.fn
  let d := s.stepBytes n k
  let x := geoAt g k
  let l := s.stripeLines n
  let sgn := (u8 d 3).testBit 0
  match s.inBand? n k with
  | none => s
  | some b =>
    let src := s
    let at_ := fun c px py => src.inSample zap b x t.tid l sgn c px py
    ((List.range (hi - lo)).map (lo + ·)).foldl (fun s y =>
      if u8 d 0 = 3 then
        match x.outBand with
        | some ob => s.writeOutRow n ob t.tid y x.hOut (packRow x.wOut x.cOut x.bOut fun X c =>
            upsample (u8 d 7) (u8 d 8) x.wIn (x.hIn.getD (2 ^ 32)) X y fun px py => at_ c px py)
        | none => s
      else s.pstRow n t.tid k y x.wIn x.hIn fun px => (List.range x.cIn).map fun c => at_ c px y) s

/-- The row of a global average's band, when its last job is done (R400). -/
def averageRow (s : State) (t : Transit) (g : List Geo) (k : Nat) : State :=
  let x := geoAt g k
  match (s.transit? t.fn t.tid).bind fun y => y.sums.find? fun m => m.step == k with
  | some m => match x.outBand with
    | some ob =>
      if m.pixels = 0 then s
      else s.writeOutRow t.fn ob t.tid 0 (some 1) (packRow 1 x.cOut x.bOut fun _ c => saturate x.outSigned (globalAverage (m.sum.getD c 0) m.pixels))
    | none => s
  | none => s

/-- R385, R403: the input stripes a completed job releases. -/
def releaseInputs (s : State) (t : Transit) (g : List Geo) (k j : Nat) : State :=
  let n := t.fn
  let kind := s.stepKind n k
  let last := s.stepJobs n g k == some (j + 1)
  match s.stepInput n k, s.inBand? n k with
  | some (bk, bi), some b =>
    let f := u8 (s.stepBytes n k) 7
    let drop := fun (x : Stripe) =>
      x.tid == t.tid && (last || (if kind ≤ 2 then decide (x.j + 1 ≤ j) else if kind = 3 then decide (f * (x.j + 1) ≤ j) else decide (x.j ≤ j)))
    b.stripes.foldl (fun s x => if drop x then s.releaseStripe n bk bi x.b (.step k) else s) s
  | _, _ => s

/-- Rows a job produces, or reads below the image height (R381, R404). -/
def jobCycles (s : State) (t : Transit) (g : List Geo) (k j : Nat) : Nat :=
  let d := s.stepBytes t.fn k
  let x := geoAt g k
  let r := s.jobRows t.fn k j g
  let rows := r.2 - r.1
  let kind := u8 d 0
  if kind = 1 then mceCycles (u8 d 4) (u8 d 5) (u8 d 6) (u16 d 8) (u16 d 0xA) x.wIn (u8 d 0xE) (u8 d 0xF) x.wOut x.bOut rows
  else if kind = 2 then eleCycles (u8 d 1 == 0) (u8 d 4) (u8 d 5) (u8 d 6) (u16 d 8) (u16 d 0xA) x.wIn (u8 d 0xE) (u8 d 0xF) x.wOut x.bOut rows
  else
    let nb := ceilDiv x.cIn x.bIn
    if kind = 3 then 32 + 3 * ceilDiv (x.wIn * nb * x.bIn) 32 + rows * ceilDiv (x.wOut * nb * x.bIn) 32
    else 32 + rows * max (ceilDiv (x.wIn * nb * x.bIn) 32) x.wIn

/-- R388: a step whose output has no row. -/
def emptyStep (s : State) (t : Transit) (k : Nat) : State :=
  let u := s.stepUnit t.fn k
  let s := if u = 2 then s.put Reg.PST_EVENT Fl.PST_EVENT_EMPTY 1 else s.put (Reg.E_EVENT u) Fl.E_EVENT_EMPTY 1
  s.degrade t.fn t.tid

/-- The memory errors a job met (R366, R393). -/
def jobEcc (s : State) (u : Nat) (x : Job) (l : List EccErr) : State :=
  l.foldl (fun s e =>
    if e.mem = 0 then s.stsEcc e.addr e.double
    else if u = 2 then s
    else
      let a := Reg.E_ECC u
      let cnt := if e.mem = 1 then (if e.double then Fl.E_ECC_LB_UNCORR else Fl.E_ECC_LB_CORR)
        else if e.double then Fl.E_ECC_WS_UNCORR else Fl.E_ECC_WS_CORR
      let s := s.bump a cnt
      if e.double then
        let s := (s.put (Reg.E_ECC_ADDR u) Fl.E_ECC_ADDR_ADDR (e.addr / 8)).put (Reg.E_ECC_ADDR u) Fl.E_ECC_ADDR_MEM (e.mem - 1)
        let s := (s.put (Reg.E_EVENT u) Fl.E_EVENT_ECC_UNCORR 1).raise (if e.mem = 2 then 9 else 10 + u)
        s.degrade x.fn x.tid
      else s.put (Reg.E_EVENT u) Fl.E_EVENT_ECC_CORR 1) s

/-- The output of a job that is kept. -/
def jobOutput (s : State) (x : Job) (t : Transit) (g : List Geo) (l : List EccErr) : State :=
  let zap := (l.filter fun e => e.double && e.mem != 2).map fun e => e.word / 8
  let wzap := (l.filter fun e => e.double && e.mem == 2).map fun e => e.word / 8
  let r := s.jobRows x.fn x.step x.j g
  let kind := s.stepKind x.fn x.step
  let s := if kind ≤ 2 then s.layerRows zap wzap t g x.step r.1 r.2 else s.pstRows zap t g x.step r.1 r.2
  let s := if (geoAt g x.step).hOut = some 0 then s.emptyStep t x.step else s
  let s := s.modTransit x.fn x.tid fun y => { y with jobs := y.jobs.set x.step (x.j + 1) }
  let s := if kind = 4 ∧ s.stepJobs x.fn g x.step = some (x.j + 1) then s.averageRow t g x.step else s
  s.releaseInputs t g x.step x.j

/-- R390 to R392, R404: the job on a unit completes, `stall` cycles later than with unstalled routes. -/
def jobComplete (s : State) (u : Fin 3) (stall : Nat) (l : List EccErr) : State :=
  match s.running[u] with
  | none => s
  | some x =>
    let t? := s.anyTransit? x.fn x.tid
    let cycles := (match t? with | some t => s.jobCycles t (s.transitGeos t) x.step x.j | none => 0) + stall
    let s := s.atTime (x.start + cycles)
    let s := s.jobEcc u x l
    let s := match s.transit? x.fn x.tid with
      | some t => if x.discard then s else s.jobOutput x t (s.transitGeos t) l
      | none => s
    let s := { s with running := s.running.set u none }
    let s := s.put (unitStatus u) Fl.E_STATUS_BUSY 0
    if u.val = 2 then (s.setReg Reg.PST_LAST_CYCLES (BitVec.ofNat 32 cycles)).wrapBy Reg.PST_JOBS Fl.PST_JOBS_COUNT 1
    else
      let s := (s.setReg (Reg.E_LAST_CYCLES u) (BitVec.ofNat 32 cycles)).wrapBy (Reg.E_JOBS u) Fl.E_JOBS_COUNT 1
      let s := s.setPair (Reg.E_BUSY_LO u) (Reg.E_BUSY_HI u) (s.pair (Reg.E_BUSY_LO u) (Reg.E_BUSY_HI u) + cycles)
      if (s.reg (Reg.E_MAX_CYCLES u)).toNat < cycles then
        ((s.setReg (Reg.E_MAX_CYCLES u) (BitVec.ofNat 32 cycles)).put (Reg.E_MAX_STEP u) Fl.E_MAX_STEP_STEP x.step).put (Reg.E_MAX_STEP u)
          Fl.E_MAX_STEP_FN x.fn
      else s

/-- R387: the jobs and stripes of a transit that closes early. -/
def abandonJobs (s : State) (n tid : Nat) : State :=
  let f := fun (x : Option Job) => x.map fun j => if j.fn == n && j.tid == tid then { j with discard := true } else j
  { s with running := s.running.map f }.releaseAll n tid

def engineCntClear (s : State) (u : Fin 2) : State :=
  let s := ((s.setReg (Reg.E_MAX_CYCLES u) 0).setReg (Reg.E_MAX_STEP u) 0).setReg (Reg.E_ECC u) 0
  s.setPair (Reg.E_BUSY_LO u) (Reg.E_BUSY_HI u) 0

/-! ## Results (R405) -/

/-- Every summary of a transit is complete; a function without a program has its result when capture has ended on every port.
DEDUCED, log entry 66. -/
def resultReady (s : State) (t : Transit) : Bool :=
  if (s.fnProgram t.fn).isNone then s.allCaptured t
  else
    let g := s.transitGeos t
    let done := fun k => match s.stepJobs t.fn g k with | some m => decide (m ≤ t.jobs.getD k 0) | none => false
    let steps := s.summarySteps t.fn
    if steps.isEmpty then (List.range (s.stepCount t.fn)).all done
    else steps.all fun k => if s.fusedStep t.fn k then done (k - 1) else done k

end State

end Sys2Proof.Machine
end

