-- ==== Sys2Proof/Machine/Delivery.lean ====
section
/-! DEFINITION. Delivery rings, tags and descriptors (chapter 14, sections 3 to 8). -/
namespace Sys2Proof.Machine

/-- The low `n` bytes of a value, little-endian. -/
def leBytes (n v : Nat) : List Byte := (List.range n).map fun i => BitVec.ofNat 8 (v / 2 ^ (8 * i))
def leInt (n : Nat) (v : Int) : List Byte := leBytes n (unsigned (8 * n) v)

/-- The transit of an object as one number: each function numbers its own transits. -/
def transitKey (o : DlvObj) : Nat := 8 * o.tid + o.fn

/-- Bytes of the window an object of this LENGTH occupies (R417). -/
def windowBytes (length : Nat) : Nat := 64 * ((length + 63) / 64)

/-- Room in a window of `w` bytes with write offset `wp` for `need` bytes, the oldest unconsumed object starting at `oldest` (R418).
DEDUCED, log entry 67. -/
def windowRoom (w wp need : Nat) (oldest : Option Nat) : Option Nat :=
  match oldest with
  | none => if wp + need ≤ w then some wp else if need ≤ w then some 0 else none
  | some o =>
    if o < wp then (if wp + need ≤ w then some wp else if need ≤ o then some 0 else none)
    else if wp + need ≤ o then some wp else none

/-- Table 14-2. -/
def descriptorBytes (off length tid kind next ts index size : Nat) : List Byte :=
  leBytes 4 off ++ leBytes 4 length ++ leBytes 4 tid ++ leBytes 4 kind ++ leBytes 4 next ++ leBytes 8 ts ++
  leBytes 4 (index % 2 ^ 16 + 2 ^ 31 * ofBool (index / size % 2 == 0))

/-- What a transit's summaries give the verdict table: the score vector, and the classes of the top-K entries (R407). -/
structure Scores where
  score : List Int
  entries : List Nat
  deriving DecidableEq, Repr

/-- The score of a class that has none. -/
def scoreNone : Int := -2 ^ 31

def Scores.at (x : Scores) (c : Nat) : Int := x.score.getD c scoreNone

/-- TOP: the lowest class whose score is the largest among scores other than NONE. -/
def topOf : List Int → Option (Nat × Int)
  | [] => none
  | v :: r => match topOf r with
    | none => if v = scoreNone then none else some (0, v)
    | some (i, m) => if v ≠ scoreNone ∧ m ≤ v then some (0, v) else some (i + 1, m)

namespace State

/-! ## Result records (R406) -/

def pad16 (l : List Byte) : List Byte := l ++ List.replicate ((16 - l.length % 16) % 16) 0

def summaryData (m : Summary) : Nat × List Byte :=
  if m.kind = 4 then (m.channels, m.sum.flatMap fun v => leInt 4 (globalAverage v m.pixels))
  else if m.kind = 5 then (m.channels, m.count.flatMap (leBytes 4) ++ m.peak.flatMap (leInt 4))
  else (m.entries.length, m.entries.flatMap fun e => leInt 2 e.1 ++ leBytes 2 e.2.1 ++ leBytes 2 e.2.2.1 ++ leBytes 2 (e.2.2.2 % 256))

def summarySection (m : Summary) : List Byte :=
  let d := summaryData m
  leBytes 2 m.step ++ leBytes 2 m.kind ++ leBytes 4 d.1 ++ leBytes 4 d.2.length ++ leBytes 4 0 ++ pad16 d.2

/-- The result record of a transit as it stands: a section per RESULT step, none before the result exists (R414). -/
def resultRecord (s : State) (t : Transit) : List Byte :=
  if t.result.isNone then []
  else (t.sums.filter fun m => (u8 (s.stepBytes t.fn m.step) 3).testBit 2).flatMap summarySection

/-! ## Tags (R421, R422) -/

/-- DEDUCED, log entry 105. -/
def flagsOf (t : Transit) (o : DlvObj) (drops : Bool) : Nat :=
  ofBool t.reversed + 2 * ofBool (t.issue == 3) + 4 * ofBool t.degraded + 8 * ofBool (!o.image) + 16 * ofBool t.verdict.isSome +
  32 * ofBool drops + 64 * ofBool o.lateLines + 128 * ofBool o.fillRows

/-- Bytes 0x00 to 0x3B of a tag. -/
def tagBody (s : State) (t : Transit) (o : DlvObj) (drops : Bool) (index pos : Nat) : List Byte :=
  let v := t.verdict
  let top := v.bind (·.top)
  leBytes 4 t.tid ++
  leBytes 1 (if o.image then 1 else 2) ++
  leBytes 1 (t.fn + (if o.image then 16 * o.port + 64 * s.portSide o.port else 0)) ++
  leBytes 1 (if o.image then o.ch else 0xFF) ++
  leBytes 1 (if o.image then u8 (s.portSec o.port) (0x14 + o.ch) else 0xFF) ++
  leBytes 4 o.firstLine ++ leBytes 2 o.lines ++ leBytes 2 o.width ++ leBytes 2 o.x0 ++ leBytes 2 0 ++
  leBytes 4 (64 * ((o.width + 63) / 64)) ++
  leBytes 4 pos ++ leBytes 4 (t.lep.getD 0) ++ leBytes 8 o.ts ++
  leBytes 1 (match v with | some x => x.code | none => 0x41) ++
  leBytes 1 (if v.isSome then t.issue else 0) ++
  leBytes 1 (match top with | some x => x.1 | none => 0xFF) ++ leBytes 1 0 ++
  leInt 4 (match top with | some x => x.2 | none => noneScore) ++
  leInt 4 (match v with | some x => x.slack | none => noneScore) ++
  leBytes 2 (flagsOf t o drops) ++ leBytes 2 index ++ leBytes 4 o.payload.length

def tagBytes (s : State) (t : Transit) (o : DlvObj) (drops : Bool) (index pos : Nat) : List Byte :=
  let b := s.tagBody t o drops index pos
  b ++ leBytes 4 (crc32 (b.map (·.toNat)))

/-! ## Rings -/

def ring (s : State) (r : Nat) : Ring := s.dlv.rings.toList.getD r ⟨[], false, [], [], 0, 0⟩
def setRing (s : State) (r : Nat) (x : Ring) : State := { s with dlv := { s.dlv with rings := s.dlv.rings.setIfInBounds r x } }
def modRing (s : State) (r : Nat) (f : Ring → Ring) : State := s.setRing r (f (s.ring r))

def dlvEvent (s : State) (r : Nat) (f : Fld) : State := s.put (Reg.DLV_EVENT r) f 1
def descSize (s : State) (r : Nat) : Nat := 2 ^ s.get (Reg.DLV_DESC_SIZE r) Fl.DLV_DESC_SIZE_LOG2
def windowSize (s : State) (r : Nat) : Nat := 1024 * s.get (Reg.DLV_WIN_SIZE r) Fl.DLV_WIN_SIZE_KIB
def prod (s : State) (r : Nat) : Nat := (s.reg (Reg.DLV_PROD r)).toNat
def cons (s : State) (r : Nat) : Nat := (s.reg (Reg.DLV_CONS r)).toNat
def alloc (s : State) (r : Nat) : Nat := (s.reg (Reg.DLV_ALLOC r)).toNat
def winBase (s : State) (r : Nat) : Nat := s.pair (Reg.DLV_WIN_BASE_LO r) (Reg.DLV_WIN_BASE_HI r)
def descBase (s : State) (r : Nat) : Nat := s.pair (Reg.DLV_DESC_BASE_LO r) (Reg.DLV_DESC_BASE_HI r)

def writeHost (s : State) (a : Nat) (l : List Byte) : State := { s with hostMem := putCells s.hostMem a l }

/-- Objects held by all rings (R426): DLV_POOL, and the ring's HELD. -/
def heldCount (s : State) (r : Nat) : Nat := ((s.ring r).placed.filter (·.held)).length

def holdUpdate (s : State) (r : Nat) : State :=
  let was := s.get (Reg.DLV_HOLD r) Fl.DLV_HOLD_HELD
  let now := s.heldCount r
  let used := s.get Reg.DLV_POOL Fl.DLV_POOL_USED + now - was
  let s := (s.put (Reg.DLV_HOLD r) Fl.DLV_HOLD_HELD now).put Reg.DLV_POOL Fl.DLV_POOL_USED used
  s.put Reg.DLV_POOL Fl.DLV_POOL_PEAK (max used (s.get Reg.DLV_POOL Fl.DLV_POOL_PEAK))

/-- R431: the completion vector fires and U returns to 0. -/
def fireRing (s : State) (r : Nat) : State := (s.modRing r fun x => { x with u := 0 }).fireVector (8 + 2 * r)

def countFor (l : List (Nat × Nat)) (tid : Nat) : Nat := ((l.find? fun x => x.1 == tid).map (·.2)).getD 0
def bumpFor (l : List (Nat × Nat)) (tid : Nat) : List (Nat × Nat) := (tid, countFor l tid + 1) :: l.filter fun x => x.1 != tid

/-- R431: enough descriptors have been published, or this one is of a result the ring interrupts for. -/
def fireEnough (s : State) (r : Nat) (result : Bool) : State :=
  if max 1 (s.get (Reg.DLV_IRQ r) Fl.DLV_IRQ_COUNT) ≤ (s.ring r).u ∨
      (result && s.flag (Reg.DLV_CTRL r) Fl.DLV_CTRL_IRQ_ON_RESULT) then s.fireRing r
  else s

/-- The descriptor of the next object of a ring is written (R419, R423). DESIGN CHOICE, log entry 70. -/
def publishOne (s : State) (r : Nat) (x : Placed) (o : DlvObj) : State :=
  let i := s.prod r
  let rg := s.ring r
  let t? := s.anyTransit? o.fn o.tid
  let p := match o.image, o.pos with
    | true, none => s.free 32
    | true, some v => (s, v)
    | false, _ => (s, (t?.bind (·.lep)).getD 0)
  let s := p.1
  let s := match t? with
    | some t => if x.void then s else s.writeHost (s.winBase r + x.off) (s.tagBytes t o (rg.dropTids.contains (transitKey o)) (countFor rg.objCount (transitKey o)) p.2)
    | none => s
  let kind := (if x.void then 0 else if o.image then 1 else 2) + 4 * ofBool rg.drops
  let d := descriptorBytes x.off x.length (if x.void then 0 else o.tid) kind x.next s.ts64 i (s.descSize r)
  let s := s.writeHost (s.descBase r + 32 * (i % s.descSize r)) d
  let s := s.setReg (Reg.DLV_PROD r) (BitVec.ofNat 32 (i + 1))
  let s := if x.void then s.bump (Reg.DLV_CNT_VOID r) Fl.DLV_CNT_VOID_COUNT else s.wrapBy (Reg.DLV_CNT_OBJ r) Fl.DLV_CNT_OBJ_COUNT 1
  let s := s.modRing r fun y => { y with
    placed := y.placed.map fun z => if z.off == x.off && z.obj.isSome then { z with index := i, obj := none, held := false } else z,
    drops := false, objCount := if x.void then y.objCount else bumpFor y.objCount (transitKey o), u := y.u + 1,
    uSince := if y.u = 0 then s.clk.ts else y.uSince }
  s.fireEnough r (!x.void && !o.image)

/-- Objects are published in index order, up to the first that is held (R423). -/
def publishReady (s : State) (r : Nat) : Nat → State
  | 0 => s
  | n + 1 =>
    match (s.ring r).placed.find? fun x => x.obj.isSome with
    | some x => match x.obj with
      | some o => if x.held then s else (s.publishOne r x o).publishReady r n
      | none => s
    | none => s

def publish (s : State) (r : Nat) : State := s.publishReady r (s.ring r).placed.length

/-! ## The decision cycle (R416) -/

/-- The score vector of a transit: that of its VERDICT step of kind 4 or 5, and its VERDICT top-K. -/
def scoresOf (s : State) (t : Transit) : Scores :=
  let vs := t.sums.filter fun m => (u8 (s.stepBytes t.fn m.step) 3).testBit 3
  let sc := match vs.find? fun m => m.kind == 4 || m.kind == 5 with
    | some m => if m.kind = 4 then m.sum.map fun v => globalAverage v m.pixels
      else if u8 (s.stepBytes t.fn m.step) 7 = 0 then m.count.map fun (n : Nat) => (n : Int) else m.peak
    | none => []
  let en := match vs.find? fun m => m.kind == 6 with | some m => m.entries.map fun e => e.2.2.2 | none => []
  ⟨sc, en⟩

/-- TOP of a transit, once its result exists (R407). DEDUCED, log entry 104. -/
def topOfTransit (s : State) (t : Transit) : Option (Nat × Int) := if t.result.isSome then topOf (s.scoresOf t).score else none

def verdictMet (s : State) (t : Transit) (r : Nat) : Bool :=
  if (s.fnVerdict t.fn).isNone then true
  else match t.verdict with
    | some v => if t.issue = 1 then (s.verdictMask r).testBit v.code else (s.ringObjects r).testBit 2
    | none => (s.ringObjects r).testBit 2

def classMet (s : State) (t : Transit) (r : Nat) : Bool :=
  s.classAll r || match s.topOfTransit t with | some x => decide (x.1 < 256) && s.classBit r x.1 | none => false

/-- Held objects of the transit are released to publication, or become VOID; further objects of a rejected transit are not written. -/
def decideRing (s : State) (t : Transit) (ok : Bool) (r : Nat) : State :=
  let s := s.modRing r fun x => { x with placed := x.placed.map fun y => match y.obj with
    | some o => if y.held && o.fn == t.fn && o.tid == t.tid then { y with held := false, void := !ok } else y
    | none => y }
  (s.holdUpdate r).publish r

def objRings (s : State) (t : Transit) : List Nat := (List.range 128).filter fun r => s.fnRing t.fn r && s.ringEnabled r && s.ringGated r

/-- Line-band stripes that delivery has no object left from are released (R428). -/
def dlvRelease (s : State) : State :=
  s.bands.foldl (fun s b =>
    if b.kind != 0 then s
    else b.stripes.foldl (fun s x =>
      if x.complete && x.readers.contains .delivery &&
          !(s.dlv.queue.any fun o => o.image && o.fn == b.fn && o.port == b.idx && o.stripe == x.b)
      then s.releaseStripe b.fn 0 b.idx x.b .delivery else s) s) s

def decideTransit (s : State) (n tid : Nat) : State :=
  match s.transit? n tid with
  | none => s
  | some t =>
    if t.decided then s
    else
      let rings := s.objRings t
      let ok := rings.filter fun r => s.verdictMet t r && s.classMet t r
      let s := s.modTransit n tid fun t => { t with decided := true, accepts := ok }
      let s := { s with dlv := { s.dlv with queue := s.dlv.queue.filter fun o =>
        !(o.fn == n && o.tid == tid && rings.contains o.ring && !ok.contains o.ring) } }
      let s := if s.dlv.held.all fun h => s.dlv.queue.any fun o => o.ring == h.1 then s else { s with dlv := { s.dlv with held := none } }
      (rings.foldl (fun s r => s.decideRing t (ok.contains r) r) s).dlvRelease

/-! ## Delivering an object (R418, R425 to R427) -/

/-- The object of the ring leaves the queue; its stripe may be released. -/
def unqueue (s : State) (o : DlvObj) : State :=
  ({ s with dlv := { s.dlv with queue := s.dlv.queue.erase o, held := none } }).dlvRelease

def dropObject (s : State) (o : DlvObj) (evs : List Fld) : State :=
  let r := o.ring
  let s := evs.foldl (fun s e => s.dlvEvent r e) (s.bump (Reg.DLV_CNT_DROP r) Fl.DLV_CNT_DROP_COUNT)
  (s.modRing r fun x => { x with drops := true, dropTids := if x.dropTids.contains (transitKey o) then x.dropTids else transitKey o :: x.dropTids }).unqueue o

/-- The payload as delivery reads it, words with an uncorrectable error as 0 (R366). -/
def zapPayload (o : DlvObj) (zap : List Nat) : List Byte :=
  if zap.isEmpty then o.payload
  else
    let pitch := 64 * ((o.width + 63) / 64)
    o.payload.zipIdx.map fun x =>
      let a := o.rows.getD (x.2 / pitch) 0 + x.2 % pitch
      if x.2 % pitch < o.width ∧ zap.contains (a / 8) then 0 else x.1

def writeObject (s : State) (o : DlvObj) (off need : Nat) (held : Bool) (zap : List Nat) : State :=
  let r := o.ring
  let len := 64 + o.payload.length
  let s := s.writeHost (s.winBase r + off + 64) (zapPayload o zap)
  let s := (s.setReg (Reg.DLV_ALLOC r) (BitVec.ofNat 32 (s.alloc r + 1))).put (Reg.DLV_WIN_WP r) Fl.DLV_WIN_WP_OFFSET (off + need)
  let s := s.setPair (Reg.DLV_BYTES_LO r) (Reg.DLV_BYTES_HI r) (s.pair (Reg.DLV_BYTES_LO r) (Reg.DLV_BYTES_HI r) + need)
  let s := s.modRing r fun x => { x with placed := x.placed ++ [⟨0, off, len, off + need, some o, held, false⟩] }
  let s := (s.put (Reg.DLV_STATUS r) Fl.DLV_STATUS_BP_SUSPENDED 0).holdUpdate r
  (s.unqueue o).publish r

/-- DEDUCED, log entry 68. -/
def deliverObject (s : State) (o : DlvObj) (zap : List Nat) : State :=
  let r := o.ring
  let need := windowBytes (64 + o.payload.length)
  let held := s.ringGated r && o.image && match s.transit? o.fn o.tid with | some t => !t.decided | none => false
  if !s.ringEnabled r then s.unqueue o
  else if s.windowSize r < need then s.dropObject o [Fl.DLV_EVENT_TOO_BIG]
  else if held && (decide (2048 ≤ s.get Reg.DLV_POOL Fl.DLV_POOL_USED) || decide (s.get (Reg.DLV_HOLD r) Fl.DLV_HOLD_MAX ≤ s.heldCount r)) then
    s.dropObject o [Fl.DLV_EVENT_HOLD_FULL]
  else
    let slot := decide ((s.alloc r + 2 ^ 32 - s.cons r) % 2 ^ 32 < s.descSize r)
    let room := if slot then windowRoom (s.windowSize r) (s.get (Reg.DLV_WIN_WP r) Fl.DLV_WIN_WP_OFFSET) need ((s.ring r).placed.head?.map (·.off))
      else none
    match room with
    | some off => s.writeObject o off need held zap
    | none =>
      if s.flag (Reg.DLV_CTRL r) Fl.DLV_CTRL_MODE && !s.flag (Reg.DLV_STATUS r) Fl.DLV_STATUS_BP_SUSPENDED then
        { s with dlv := { s.dlv with held := some (r, match s.dlv.held with | some h => h.2 | none => s.clk.ts) } }
      else s.dropObject o [Fl.DLV_EVENT_DROP]

/-- The ring served next: round robin, one object at a time, unless one ring's object holds the input. -/
def nextRing (s : State) : Option Nat :=
  match s.dlv.held with
  | some h => some h.1
  | none => ((List.range 128).map fun i => (s.dlv.lastRing + 1 + i) % 128).find? fun r => s.dlv.queue.any fun o => o.ring == r

/-- One object is delivered, with the memory errors delivery met in the store. DEDUCED, log entry 103. -/
def deliverNext (s : State) (l : List EccErr) : State :=
  if s.isSafe then s
  else
    match s.nextRing with
    | none => s
    | some r =>
      match s.dlv.queue.find? fun o => o.ring == r with
      | none => s
      | some o =>
        let s := l.foldl (fun s e => s.stsEcc e.addr e.double) s
        let s := { s with dlv := { s.dlv with lastRing := r } }
        if s.flag Reg.PCX_HOSTLOSS Fl.PCX_HOSTLOSS_ACTIVE then (s.bump Reg.PCX_HOSTLOSS Fl.PCX_HOSTLOSS_DISCARDED).unqueue o
        else s.deliverObject o ((l.filter (·.double)).map fun e => e.word / 8)

/-- R427: BP_LIMIT_US has passed without space. -/
def bpTimeout (s : State) (r : Nat) : State :=
  if s.dlv.held.any fun h => h.1 == r && decide (h.2 + 500 * s.get (Reg.DLV_BP_LIMIT r) Fl.DLV_BP_LIMIT_US ≤ s.clk.ts) then
    match s.dlv.queue.find? fun o => o.ring == r with
    | some o => (s.put (Reg.DLV_STATUS r) Fl.DLV_STATUS_BP_SUSPENDED 1).dropObject o [Fl.DLV_EVENT_DROP, Fl.DLV_EVENT_BP_TIMEOUT]
    | none => s
  else s

/-- R418: a write of CONS. -/
def consWrite (s : State) (r : Nat) (v : Nat) : State :=
  let old := s.cons r
  let d := fun a => (a + 2 ^ 32 - old) % 2 ^ 32
  if d v ≤ d (s.prod r) then
    let s := s.setReg (Reg.DLV_CONS r) (BitVec.ofNat 32 v)
    s.modRing r fun x => { x with placed := x.placed.filter fun y => y.obj.isSome || decide (d v ≤ d y.index) }
  else s.dlvEvent r Fl.DLV_EVENT_CONS_ERR

def windowValid (kib : Nat) : Bool := decide (4 ≤ kib) && decide (kib ≤ 1048576) && kib % 4 == 0


/-- R429: the ring starts accepting. -/
def ringStart (s : State) (r : Nat) : State :=
  let s := [Reg.DLV_ALLOC r, Reg.DLV_PROD r, Reg.DLV_CONS r, Reg.DLV_WIN_WP r].foldl (fun s a => s.setReg a 0) s
  let s := (s.setRing r ringReset).holdUpdate r
  (s.put (Reg.DLV_STATUS r) Fl.DLV_STATUS_ENABLED 1).put (Reg.DLV_STATUS r) Fl.DLV_STATUS_BP_SUSPENDED 0

/-- R429: acceptance stops and held objects are discarded. -/
def ringStop (s : State) (r : Nat) : State :=
  let s := s.put (Reg.DLV_STATUS r) Fl.DLV_STATUS_ENABLED 0
  let s := (s.modRing r fun x => { x with placed := x.placed.filter fun y => !y.held }).holdUpdate r
  let s := { s with dlv := { s.dlv with queue := s.dlv.queue.filter fun o => o.ring != r, held := s.dlv.held.filter (·.1 != r) } }
  (s.publish r).dlvRelease

/-- R430: the held objects of a ring, and those held back behind them, are discarded at a host-loss event; the next descriptor carries
DROPS. DEDUCED, log entry 102. -/
def hostLossRing (s : State) (r : Nat) : State :=
  let l := (s.ring r).placed.filterMap (·.obj)
  let s := (s.bumpBy (Reg.DLV_CNT_DROP r) Fl.DLV_CNT_DROP_COUNT l.length).bumpBy Reg.PCX_HOSTLOSS Fl.PCX_HOSTLOSS_DISCARDED l.length
  let s := s.modRing r fun x => { x with placed := x.placed.filter (·.obj.isNone), drops := x.drops || s.ringEnabled r,
                                         dropTids := l.map transitKey ++ x.dropTids }
  s.holdUpdate r

/-- R431: U has reached COUNT, as a write of COUNT may leave it. -/
def irqCount (s : State) (r : Nat) : State :=
  if (s.ring r).u ≠ 0 ∧ max 1 (s.get (Reg.DLV_IRQ r) Fl.DLV_IRQ_COUNT) ≤ (s.ring r).u then s.fireRing r else s

/-- R431: TIME_US has passed since the oldest unreported descriptor. -/
def irqTimer (s : State) (r : Nat) : State :=
  let us := s.get (Reg.DLV_IRQ r) Fl.DLV_IRQ_TIME_US
  if (s.ring r).u ≠ 0 ∧ us ≠ 0 ∧ (s.ring r).uSince + 500 * us ≤ s.clk.ts then s.fireRing r else s

/-! ## Result objects and close (R352, R414) -/

def resultObject (s : State) (t : Transit) (r : Nat) : Option DlvObj :=
  if s.fnRing t.fn r && s.ringEnabled r && (s.ringObjects r).testBit 1 && (!s.ringGated r || t.accepts.contains r) then
    some ⟨r, false, t.fn, t.tid, 0, 0, 0, 0, 0, 0, none, s.clk.ts, false, false, [], 0, s.resultRecord t⟩
  else none

/-- What comes first as a transit closes, in the order of R25 and R387: its flag, a LEP, and its jobs and stripes. -/
def closeBegin (s : State) (n tid : Nat) (early : Bool) : State :=
  let s := if early || s.flag Reg.PCX_HOSTLOSS Fl.PCX_HOSTLOSS_FIELD_HELD then s.degrade n tid else s
  -- a transit closed before its LEP was fixed has no LEP to report: a free value (DESIGN CHOICE, log entry 8)
  let s := match s.transit? n tid with
    | some t => if t.lep.isNone then let r := s.free 32; r.1.modTransit n tid fun t => { t with lep := some r.2 } else s
    | none => s
  if early then s.abandonJobs n tid else s

/-- The result objects, the registers and the slot of a transit that closes. -/
def closeEnd (s : State) (n tid : Nat) (early : Bool) (t : Transit) : State :=
  let s := if t.verdict.isNone && (s.fnVerdict n).isSome then s.bump (Reg.VRD_FN_CNT1 n) Fl.VRD_FN_CNT1_NONE else s
  let s := ((List.range 128).filterMap (s.resultObject t)).foldl enqueue s
  let s := { s with transits := s.transits.filter fun x => !(x.fn == n && x.tid == tid), gone := s.gone ++ [{ t with closed := true, noGate := t.noGate || early }] }
  let s := (s.setReg (Reg.ACQ_FN_SLOT_TID n t.slot) 0).acqEvent n Fl.ACQ_FN_EVENT_CLOSED
  let s := s.wrapBy (Reg.SYS_FN_CLOSED n) Fl.SYS_FN_CLOSED_CLOSED 1
  let s := s.put (Reg.SYS_FN_STATE n) Fl.SYS_FN_STATE_OPEN (s.openOf n).length
  s.dlvRelease

/-- A transit closes. `early`: under R25, at once, its jobs removed and its stripes released (R387). DEDUCED, log entry 69. -/
def closeTransit (s : State) (n tid : Nat) (early : Bool) : State :=
  let s := (s.closeBegin n tid early).decideTransit n tid
  match s.transit? n tid with
  | none => s
  | some t => s.closeEnd n tid early t

/-- A late transit may close (R352) while its verdict is still to come: it is evaluated all the same (R409, R410). One closed under R25 or R32
is not. DEDUCED, log entry 125. -/
def owedVerdict (s : State) (t : Transit) : Bool :=
  t.late && !t.noGate && t.result.isSome && t.verdict.isNone && (s.fnVerdict t.fn).isSome

/-- Closed transits that nothing names any more are forgotten. -/
def forget (s : State) : State :=
  { s with gone := s.gone.filter fun t =>
      s.owedVerdict t ||
      s.dlv.queue.any (fun o => o.fn == t.fn && o.tid == t.tid) ||
      s.bands.any (fun b => b.fn == t.fn && b.stripes.any fun x => x.tid == t.tid) ||
      s.ports.toList.any (fun p => p.fifo.any fun f => f.fn == t.fn && f.tid == t.tid) ||
      s.dlv.rings.toList.any fun r => r.placed.any fun y => match y.obj with | some o => o.fn == t.fn && o.tid == t.tid | none => false }

end State

end Sys2Proof.Machine
end

