-- ==== Sys2Proof/Machine/Verdict.lean ====
section
/-! DEFINITION. The verdict table (chapter 13, section 8), and the end of a transit's result. -/
namespace Sys2Proof.Machine

/-- A rule (Table 3-12). -/
structure Rule where
  op : Nat
  cls : Nat
  andNext : Bool
  threshold : Int
  deriving DecidableEq, Repr

/-- R407: a rule is true. -/
def Rule.holds (r : Rule) (x : Scores) : Bool :=
  if r.op = 0 then true
  else if r.op = 1 then (match topOf x.score with | some t => t.1 == r.cls && decide (r.threshold ≤ x.at r.cls) | none => false)
  else if r.op = 2 then decide (r.threshold ≤ x.at r.cls)
  else if r.op = 3 then decide (x.at r.cls < r.threshold)
  else decide (r.threshold ≤ ((x.entries.filter (· == r.cls)).length : Int))

/-- R408: the index of the rule that the first matching group selects; `ok`: every rule of the group so far is true. -/
def matchRules (x : Scores) (i : Nat) (ok : Bool) : List Rule → Option Nat
  | [] => none
  | r :: rest =>
    let now := ok && r.holds x
    if r.andNext then matchRules x (i + 1) now rest
    else if now then some i
    else matchRules x (i + 1) true rest

namespace State

def ruleAt (d : List Nat) (i : Nat) : Rule :=
  let o := 24 + 32 * i
  ⟨u8 d o, u8 d (o + 1), (u8 d (o + 2)).testBit 0, s32 d (o + 4)⟩

def rulesOf (s : State) (v : Nat) : List Rule := (List.range (u8 (s.sec 0x13 v) 4)).map (ruleAt (s.sec 0x13 v))

/-- R405: the result of a transit comes into existence. Steps without image rows are reported, and the transit flagged (R388). -/
def resultExists (s : State) (n slot : Nat) : State :=
  match s.slotOf? n slot with
  | none => s
  | some t =>
    if t.result.isSome || !s.resultReady t then s
    else
      let g := s.transitGeos t
      let s := (List.range (s.stepCount n)).foldl (fun s k => if (geoAt g k).hOut == some 0 then s.emptyStep t k else s) s
      let s := s.modTransit n t.tid fun t => { t with result := some s.clk.ts }
      if (s.fnVerdict n).isNone then s.decideTransit n t.tid else s

/-- R409: the transit of a function whose verdict comes next. -/
def nextVerdict (s : State) (n : Nat) : Option Transit :=
  ((s.openOf n).filter (fun t => t.result.isSome && t.verdict.isNone) ++ s.gone.filter fun t => t.fn == n && s.owedVerdict t).foldl (fun b t => match b with
    | none => some t
    | some x => if t.result.getD 0 < x.result.getD 0 ∨ (t.result.getD 0 = x.result.getD 0 ∧ t.tid < x.tid) then some t else some x) none

/-- R411. -/
def slackOf (s : State) (t : Transit) : Int := -((s.past t.fn ((t.lep.getD 0 : Int) + s.decisionPoint t.fn)).fdiv 256)

def recordSlack (s : State) (n : Nat) (slack : Int) : State :=
  let s := s.setReg (Reg.VRD_FN_SLACK n) (BitVec.ofInt 32 slack)
  let s := if slack < signed 32 (s.reg (Reg.VRD_FN_MIN_SLACK n)).toNat then s.setReg (Reg.VRD_FN_MIN_SLACK n) (BitVec.ofInt 32 slack) else s
  let s := if slack < signed 32 (s.reg (Reg.VRD_FN_SLACK_LOW n)).toNat then s.put (Reg.VRD_FN_EVENT n) Fl.VRD_FN_EVENT_LOW_SLACK 1 else s
  if 0 < slack then s.bump (Reg.VRD_FN_CNT0 n) Fl.VRD_FN_CNT0_ON_TIME else s

/-- The verdict of a transit exists (R351, R408 to R411). -/
def verdictFor (s : State) (t : Transit) (v : Nat) : State :=
  let n := t.fn
  let x := s.scoresOf t
  let hit := matchRules x 0 true (s.rulesOf v)
  let code := hit.getD 0x40
  let slack := s.slackOf t
  let deg := t.degraded && !s.flag (Reg.ACQ_FN_CTRL n) Fl.ACQ_FN_CTRL_DEG_VERDICT
  let issue := if t.late then 3 else if deg then 4 else if hit.isSome then 1 else 2
  let s := s.modAnyTransit n t.tid fun t => { t with verdict := some ⟨code, slack, topOf x.score⟩, issue := issue }
  let s := (s.put (Reg.VRD_FN_LAST n) Fl.VRD_FN_LAST_CODE code).put (Reg.VRD_FN_LAST n) Fl.VRD_FN_LAST_ISSUE issue
  let s := (s.setReg (Reg.VRD_FN_LAST_TID n) (BitVec.ofNat 32 t.tid)).put (Reg.VRD_FN_EVENT n) Fl.VRD_FN_EVENT_VERDICT 1
  let s := s.recordSlack n slack
  let s := match hit with
    | some r => s.wrapBy (Reg.VRD_HIT v r) Fl.VRD_HIT_COUNT 1
    | none => (s.bump (Reg.VRD_FN_CNT0 n) Fl.VRD_FN_CNT0_NO_MATCH).put (Reg.VRD_FN_EVENT n) Fl.VRD_FN_EVENT_NO_MATCH 1
  let s := if issue = 4 then (s.bump (Reg.VRD_FN_CNT1 n) Fl.VRD_FN_CNT1_DEG_DEFAULT).put (Reg.VRD_FN_EVENT n) Fl.VRD_FN_EVENT_DEG_DEFAULT 1 else s
  let s := if issue = 3 ∨ s.fnLineTimer n then s else s.selectProgram t (if issue = 1 then code else 64)
  s.decideTransit n t.tid

def verdictExists (s : State) (n : Nat) : State :=
  match s.nextVerdict n, s.fnVerdict n with
  | some t, some v =>
    let s := s.atTime (t.result.getD 0 + 16 + (s.rulesOf v).length)
    match s.anyTransit? n t.tid with
    | some t => s.verdictFor t v
    | none => s
  | _, _ => s

/-- R352: the close conditions hold. -/
def mayClose (s : State) (t : Transit) : Bool :=
  s.allCaptured t && ((s.fnProgram t.fn).isNone || t.result.isSome) &&
  ((s.fnVerdict t.fn).isNone || t.verdict.isSome || t.late) &&
  match t.lep with
  | some l => decide (0 ≤ s.past t.fn ((l : Int) + (s.reg (Reg.ACQ_FN_CLOSE_POS t.fn)).toNat))
  | none => false

end State

end Sys2Proof.Machine
end

