-- ==== Sys2Proof/Machine/Functions.lean ====
section
/-! DEFINITION. Functions and service levels: states (Table 1-5), bring-up (R30), the units a function uses (R361, R275, R498, R471), the
service level (R29, R32), and units out of service (R395). -/
namespace Sys2Proof.Machine

namespace State

/-! ## Slices and their users (Table 16-1) -/

def fenceMap (s : State) : Nat := s.pair Reg.BIST_FENCE_LO Reg.BIST_FENCE_HI
/-- The slice a retest is running on; it counts as fenced (R479). -/
def retestSlice (s : State) : Option Nat :=
  if s.flag Reg.BIST_RETEST_STATUS Fl.BIST_RETEST_STATUS_BUSY then s.bist.running.head?.map (·.slice) else none
/-- Slice `k` is fenced, or counts as fenced while it is retested. -/
def sliceFenced (s : State) (k : Nat) : Bool := s.fenceMap.testBit k || s.retestSlice == some k

def programHas (s : State) (n : Nat) (p : Nat → Bool) : Bool := (List.range (s.stepCount n)).any fun k => p (s.stepKind n k)
def ringBits (s : State) (n : Nat) : Bool := (List.range 128).any fun r => s.fnRing n r

/-- Function `n` uses slice `k`. -/
def usesSlice (s : State) (n k : Nat) : Bool :=
  let prog := (s.fnProgram n).isSome
  if k < 8 then true
  else if k < 11 then prog
  else if k < 13 ∨ (17 ≤ k ∧ k ≤ 33) then s.programHas n (· == 1)
  else if k = 13 ∨ (34 ≤ k ∧ k ≤ 38) then s.programHas n (· == 2)
  else if k < 16 then prog || s.ringBits n
  else if k = 39 ∨ k = 40 then s.programHas n fun d => decide (3 ≤ d)
  else if k = 41 then (s.fnVerdict n).isSome
  else if k = 42 ∨ k = 43 ∨ k = 46 ∨ k = 47 then true
  else if k = 44 then s.ringBits n
  else false

/-- R471: a slice the function uses, other than the stripe store, is fenced. -/
def fnFenced (s : State) (n : Nat) : Bool := (List.range 48).any fun k => decide (8 ≤ k) && s.usesSlice n k && s.sliceFenced k

/-! ## Engines and PST in service (R395) -/

/-- Slices that belong to a unit: MCE, ELE, PST. -/
def unitSlices (u : Nat) : List Nat :=
  if u = 0 then [11, 12] ++ (List.range 17).map (17 + ·)
  else if u = 1 then [13, 34, 35, 36, 37, 38]
  else [39, 40]

def unitOut (s : State) (u : Nat) : Bool :=
  ([8, 9, 10] ++ unitSlices u).any s.sliceFenced || s.blockResets.any fun x => x.1 == 10 + u

/-- FENCED follows; a change sets SERVICE. -/
def unitUpdate (s : State) (u : Nat) : State :=
  if s.unitFenced u = s.unitOut u then s
  else
    let s := s.putFlag (unitStatus u) Fl.E_STATUS_FENCED (s.unitOut u)
    if u = 2 then s.put Reg.PST_EVENT Fl.PST_EVENT_SERVICE 1 else s.put (Reg.E_EVENT u) Fl.E_EVENT_SERVICE 1

/-- Functions whose program has a step for the unit. -/
def unitFns (s : State) (u : Nat) : List Nat :=
  s.chartFns.filter fun n => (List.range (s.stepCount n)).any fun k => s.stepUnit n k == u

/-! ## The service level (R29) -/

def stsOk (s : State) : Bool := (List.range 8).all fun k => !s.fenceMap.testBit k
def anyPort (s : State) : Bool := (List.finRange 4).any s.inService
def casState (s : State) : Nat := s.get Reg.CAS_STATUS Fl.CAS_STATUS_STATE
def casUp (s : State) : Bool := s.casState == 3

/-- R29, R498, with the port requirement given. -/
def levelWith (s : State) (port : Bool) : Nat :=
  if s.chartOk && port && s.stsOk && (!s.follower || s.casUp) then
    if s.flag Reg.SYS_SVC Fl.SYS_SVC_HZ_OK && s.flag Reg.SYS_SVC Fl.SYS_SVC_JENS_OK then 3 else 2
  else 1

def levelNow (s : State) : Nat := s.levelWith s.anyPort

/-- SYS_SVC. -/
def serviceUpdate (s : State) : State :=
  let s := s.putFlag Reg.SYS_SVC Fl.SYS_SVC_CHART_OK s.chartOk
  let s := s.putFlag Reg.SYS_SVC Fl.SYS_SVC_PORT_OK s.anyPort
  let s := s.putFlag Reg.SYS_SVC Fl.SYS_SVC_STS_OK s.stsOk
  s.put Reg.SYS_SVC Fl.SYS_SVC_LEVEL s.levelNow

/-! ## Units a function uses beside its ports and slices -/

/-- R361: a MIRI opening source. -/
def miriSourceOk (s : State) (n : Nat) : Bool := s.follower || s.fnOpenSource n != 0 || s.flag Reg.SYS_SVC Fl.SYS_SVC_HZ_OK

/-- R275: a Zhombe opening node (OPEN_INDEX: line in bit 7, short address below). -/
def zevSourceOk (s : State) (n : Nat) : Bool :=
  s.follower || s.fnOpenSource n != 1 ||
    (let l := fin2 (s.fnOpenIndex n / 128)
     s.zlRunning l && s.jflag (Reg.ZL_NODE_HI l (s.fnOpenIndex n % 32)) Fl.ZL_NODE_HI_PRESENT)

/-- R498: the cascade channel of a follower's function. -/
def casSourceOk (s : State) (n : Nat) : Bool := !s.follower || s.fnLineTimer n || s.bit Reg.CAS_STATUS Fl.CAS_STATUS_VALID (s.fnChan n)

/-! ## Leaving a state -/

def setCause (s : State) (n c : Nat) : State := s.put (Reg.SYS_FN_STATE n) Fl.SYS_FN_STATE_LAST_STOP_CAUSE c
def modFn (s : State) (n : Nat) (f : FnRun → FnRun) : State :=
  match s.fns.toList[n]? with
  | some x => { s with fns := s.fns.setIfInBounds n (f x) }
  | none => s
def fnRun (s : State) (n : Nat) : FnRun := s.fns.toList.getD n ⟨0, 0, [], 0, false⟩

/-- The function reaches STOPPED: its ports leave service (R335). -/
def fnStop (s : State) (n : Nat) : State := (s.setFnState n 0).portsIdle n

/-- R25: the open transits close at once, DEGRADED, and the function stops. -/
def stopNow (s : State) (n cause : Nat) : State :=
  (((s.openOf n).foldl (fun s t => s.closeTransit n t.tid true) s).setCause n cause).fnStop n

/-- RUNNING to DRAINING. -/
def drainFrom (s : State) (n cause : Nat) : State :=
  ((s.setFnState n 4).setCause n cause).modFn n fun x => { x with drain := s.clk.ts }

/-- ARMED to STOPPED, RUNNING to DRAINING (Table 1-5). -/
def leaveService (s : State) (n cause : Nat) : State :=
  if s.fnArmed n then (s.setCause n cause).fnStop n
  else if s.fnRunning n then s.drainFrom n cause
  else s

/-- After a transit has closed by the normal rules. -/
def afterClose (s : State) (n : Nat) : State :=
  if !(s.openOf n).isEmpty then s
  else if s.fnRunning n then s.setFnState n 2
  else if s.fnDraining n then s.fnStop n
  else s

/-- R32: the function's open transits get no gate command and close DEGRADED. -/
def levelLost (s : State) (n : Nat) : State :=
  let s := (s.openOf n).foldl (fun s t => (s.modTransit n t.tid fun t => { t with noGate := true }).degrade n t.tid) s
  s.leaveService n 4

/-! ## Commands (R23) -/

/-- SLEEP, PARK, PARK entry or PARK exit (R53). -/
def parked (s : State) : Bool := s.isSleep || s.isPark || (s.isRun && (s.parkEntry || s.parkExit))
def commitBusy (s : State) : Bool := s.flag Reg.CHT_STATUS Fl.CHT_STATUS_BUSY

def startFail (s : State) (n c : Nat) : State := s.put (Reg.SYS_FN_STATE n) Fl.SYS_FN_STATE_START_FAIL c

/-- The function has a port of which training starts (R332, R335). -/
def startPorts (s : State) (n : Nat) : State :=
  (s.fnPorts n).foldl (fun s p => if s.flag (Reg.CP_STATE p) Fl.CP_STATE_PRES then s.startTraining (fin4 p) else s) s

def fnStart (s : State) (n : Nat) : State :=
  if s.isSafe then s
  else if s.parked then s.startFail n 4
  else if s.commitBusy then s
  else if (match s.retestSlice with | some k => s.fnDefined n && s.usesSlice n k | none => false) then s.startFail n 3
  else if s.fnState n ≠ 0 then s
  else
    let s := (s.startFail n 0).setFnState n 1
    let s := s.modFn n fun x => { x with start := s.clk.ts, unmet := [], hashed := false }
    s.startPorts n

def fnStopCmd (s : State) (n : Nat) : State :=
  if s.isSafe then s
  else if s.fnIdle n then ((s.fnStop n).startFail n 6).setBit Reg.SYS_FN_EVENT Fl.SYS_FN_EVENT_START_FAILED n
  else s.leaveService n 1

def fnAbort (s : State) (n : Nat) : State :=
  if s.isSafe then s
  else if s.fnIdle n then ((s.fnStop n).startFail n 6).setBit Reg.SYS_FN_EVENT Fl.SYS_FN_EVENT_START_FAILED n
  else if s.fnArmed n || s.fnRunning n || s.fnDraining n then s.stopNow n 2
  else s

/-! ## Bring-up (R30) -/

/-- The WEIGHTS-REF a function's program names. -/
def fnWref (s : State) (n : Nat) : Option Nat :=
  match s.fnProgram n with
  | some p => if u8 (s.sec 0x11 p) 0 = 0xFF then none else some (u8 (s.sec 0x11 p) 0)
  | none => none

def wrefVerified (s : State) (i : Nat) : Bool := s.flag (Reg.CHT_WREF i) Fl.CHT_WREF_VERIFIED

/-- A port of the function is training: it is taken as in service by the level test. -/
def portTraining (s : State) (n : Nat) : Bool := (s.fnPorts n).any fun p => s.portState (fin4 p) == 2

/-- The START_FAIL codes of the conditions unmet in this cycle, in ascending order. A condition without a code of its own is 5. -/
def unmetNow (s : State) (n : Nat) : List Nat :=
  (if (s.fnPorts n).all fun p => s.inService (fin4 p) then [] else [1]) ++
  (if s.fnFenced n then [3] else []) ++
  (if s.levelWith (s.anyPort || s.portTraining n) < s.fnReqLevel n ∨ !s.miriSourceOk n ∨
      s.blockResets.any (fun x => decide (10 ≤ x.1) && (s.unitFns (x.1 - 10)).contains n) then [4] else []) ++
  (if (match s.fnWref n with | some i => !s.wrefVerified i | none => false) || !s.zevSourceOk n || !s.casSourceOk n then [5] else [])

/-- The periods in which the causes have been unmet. -/
def unmetUpdate (s : State) (n : Nat) : State :=
  if s.fnIdle n then
    let l := s.unmetNow n
    s.modFn n fun x => { x with unmet := l.map fun c => (c, ((x.unmet.find? fun y => y.1 == c).map (·.2)).getD s.clk.ts) }
  else s

/-- The cause whose current period began earliest; of those, the lowest code. -/
def firstUnmet : List (Nat × Nat) → Option Nat
  | [] => none
  | x :: r => some (r.foldl (fun b y => if y.2 < b.2 ∨ (y.2 = b.2 ∧ y.1 < b.1) then y else b) x).1

/-- Every bring-up check passes: the function is ARMED; a line timer starts from 0 (R359, R360). -/
def bringupComplete (s : State) (n : Nat) : State :=
  if s.fnIdle n && (s.unmetNow n).isEmpty then
    let s := s.setFnState n 2
    if s.fnLineTimer n then
      let s := (s.setReg (Reg.LTG_TMR_COUNT n) 0).modFn n fun x => { x with lastTick := s.clk.ts }
      if s.fnOpenSource n = 2 then
        -- the boundary at count 0 (DEDUCED, log entry 12)
        let tid := (s.reg Reg.ACQ_TID_NEXT).toNat
        (s.openTransit n none (some 0)).fixTep n tid (s.reg (Reg.ACQ_FN_TIMER_LEN n)).toNat
      else s
    else s
  else s

def bringupLimit (s : State) (n : Nat) : Nat := 500000 * u16 (s.fnSec n) 0x18
def drainLimit (s : State) (n : Nat) : Nat := 500000 * u16 (s.fnSec n) 0x1A

/-- The bring-up limit expires with conditions unmet. -/
def bringupTimeout (s : State) (n : Nat) : State :=
  if s.fnIdle n && decide ((s.fnRun n).start + s.bringupLimit n ≤ s.clk.ts) then
    match firstUnmet ((s.unmetUpdate n).fnRun n).unmet with
    | some c => s.bringupFail n c
    | none => s
  else s

/-- The drain limit expires. -/
def drainTimeout (s : State) (n : Nat) : State :=
  if s.fnDraining n && decide ((s.fnRun n).drain + s.drainLimit n ≤ s.clk.ts) then s.stopNow n 3 else s

/-! ## Block reset (R443, R394) -/

/-- The functions a block reset stops: those that use the block. -/
def blockFns (s : State) (src : Nat) : List Nat :=
  if src = 15 then s.chartFns.filter fun n => s.routes.any fun r => r.1 == n else s.unitFns (src - 10)

def fnBlockReset (s : State) (n : Nat) : State :=
  if s.fnStopped n then s
  else
    let idle := s.fnIdle n
    let s := s.stopNow n 6
    if idle then s.setBit Reg.SYS_FN_EVENT Fl.SYS_FN_EVENT_START_FAILED n else s

/-- DEDUCED, log entry 80. -/
def blockReset (s : State) (src : Nat) : State :=
  let s := if src < 13 then
      let u := if src = 10 then (0 : Fin 3) else if src = 11 then 1 else 2
      { s with running := s.running.set u none }.put (unitStatus u) Fl.E_STATUS_BUSY 0
    else s
  let s := (s.blockFns src).foldl fnBlockReset s
  { s with blockResets := (src, s.clk.ts + 256) :: s.blockResets.filter (·.1 != src),
           commit := s.commit.map fun c => { c with broken := src :: c.broken } }

/-- The reset of a block ends 256 cycles after it began (R443). -/
def blockResetEnd (s : State) (src : Nat) : State :=
  match s.blockResets.find? (·.1 == src) with
  | some x => let s := s.atTime x.2; { s with blockResets := s.blockResets.filter (·.1 != src) }
  | none => s

end State

end Sys2Proof.Machine
end

