-- ==== Sys2Proof/Machine/Faults.lean ====
section
/-! DEFINITION. Chip reset (R61, R62), the safe state (R452 to R456), wake sources (R54, R56, R57), the reactions of the fault collector
(R441 to R446), the watchdog (R457 to R461), and what every command ends with: reactions, service level, bring-up, streams, vectors. -/
namespace Sys2Proof.Machine

namespace State

/-! ## Flash bytes an abandoned operation leaves undefined (R141, R142) -/

def flashFree (s : State) (a : Nat) : Nat → State
  | 0 => s
  | n + 1 =>
    let r := s.free 8
    let s := { r.1 with bsp := { r.1.bsp with flash := r.1.bsp.flash.write a (BitVec.ofNat 8 r.2) } }
    flashFree s (a + 1) n

def flashPut (s : State) (a : Nat) (l : List Byte) : State := { s with bsp := { s.bsp with flash := s.bsp.flash.writeList a l } }

/-- A host operation or a record write is broken off (R140, R141). -/
def flashAbandon (s : State) : State :=
  let s := match s.bsp.op with
    | some o => if o.op = 2 then s.flashFree o.addr 4096 else if o.op = 3 then s.flashFree o.addr o.len else s
    | none => s
  match s.bsp.record with
  | some (.slot a _ erase _) =>
    if erase then s.flashFree (a / 4096 * 4096) 4096 else (s.flashFree (a + 0x24) 220).flashPut (a + 0x20) [0x7E]
  | some (.quick a _) => s.flashFree a 1
  | none => s

/-! ## Chip reset -/

/-- The kept fields of the registers; every other field is at its reset value. -/
def keptRegs (l : List (Nat × Word)) : List (Nat × Word) :=
  l.foldl (fun m x => match barReg x.1 with
    | some d => cellsSet regReset m x.1 (keptWord d (regReset x.1) x.2)
    | none => m) []

/-- What stays outside Nahar through its reset: Jens, the host, the flash, the waiting commands and the counter of free values.
DEDUCED, log entry 75. -/
def outside (s : State) : State :=
  { State.reset with
    fregs := s.fregs, jens := s.jens, clk := { State.reset.clk with jts := s.clk.jts }, sent := s.sent, hostMem := s.hostMem,
    bsp := bspReset s.bsp.flash, pcie := pcieReset s.pcie.perst, freeCtr := s.freeCtr, pending := s.pending,
    sts := s.sts.lose, ws := s.ws.lose, cht := s.cht.lose, mceLb := s.mceLb.lose, eleLb := s.eleLb.lose, tdr := s.tdr.lose }

/-- R61: what SYS_RESET_CAUSE records when a chip reset begins. -/
def resetRecord (s : State) (causes fcuSrc : Nat) : Word :=
  let w := putF (s.reg Reg.SYS_RESET_CAUSE) Fl.SYS_RESET_CAUSE_CAUSE causes
  let w := putF w Fl.SYS_RESET_CAUSE_SAFE_CAUSE s.pw.safeCause
  let w := putF w Fl.SYS_RESET_CAUSE_COUNT (min 255 (s.get Reg.SYS_RESET_CAUSE Fl.SYS_RESET_CAUSE_COUNT + 1))
  putF w Fl.SYS_RESET_CAUSE_FCU_SRC fcuSrc

/-- A chip reset begins; a source that asserts while it is held is not recorded. -/
def chipReset (s : State) (causes fcuSrc : Nat) : State :=
  if s.pw.held || s.pw.off then s
  else
    let rec' := s.resetRecord causes fcuSrc
    let s := s.flashAbandon
    let rails := s.pw.rails && !s.flag Reg.CLK_STATUS Fl.CLK_STATUS_BYPASS
    { (outside s) with
      regs := cellsSet regReset (keptRegs s.regs) Reg.SYS_RESET_CAUSE rec',
      pw := { State.reset.pw with vh := s.pw.vh, held := true, rails := rails, bootStep := 1, vf := s.pw.vf, vfPor := s.pw.vfPor } }

/-! ## Safe state -/

/-- R452: the safe state is entered, from service level 1 onwards; the first cause stays. -/
def enterSafe (s : State) (cause : Nat) : State :=
  if !s.alive || s.isSafe then s
  else
    let s := s.put Reg.PWR_STATE Fl.PWR_STATE_STATE 5
    { s with pw := { s.pw with safeCause := cause } }

/-- R455: the frozen blocks do not act in the safe state, nothing on Nahar acts before level 1, and nothing clocked acts without SCLK. -/
def live (s : State) (f : State → State) : State := if s.alive && !s.isSafe then f s else s
/-- DESIGN CHOICE, log entry 113. -/
def up (s : State) (f : State → State) : State := if s.alive && s.clk.sclk then f s else s

/-! ## Wake -/

def wakes (s : State) : Bool := s.parked && !s.isSafe

/-- Slices still waiting in a test that ends early are UNFINISHED (R57). -/
def stopTest (s : State) : State :=
  { s with bist := { s.bist with running := s.bist.running.map fun r => { r with stop := some (r.stop.getD s.clk.ts) } } }

/-- R56: a wake source whose bit `mark` sets. In PARK it starts the exit; in PARK entry it ends or is held (R57). DEDUCED, log entry 121. -/
def wakeBy (s : State) (mark : State → State) : State :=
  if s.wakes then
    let s := mark s
    let s := { s with pw := { s.pw with woken := true, wakeHeld := s.pw.wakeHeld || s.parkEntry } }
    if s.isPark then s.put Reg.PWR_STATE Fl.PWR_STATE_PHASE 2
    else if s.parkEntry && s.pw.parkStep < 4 then s.stopTest
    else s
  else s

/-- R54: an interrupt or trap reaction. -/
def wakeFcu (s : State) : State := s.wakeBy fun s => s.put Reg.PWR_WAKE_CAUSE Fl.PWR_WAKE_CAUSE_FCU 1
def wakeMiri (s : State) (k : Nat) : State :=
  if s.bit Reg.PWR_WAKE_EN Fl.PWR_WAKE_EN_MIRI k then s.wakeBy fun s => s.setBit Reg.PWR_WAKE_CAUSE Fl.PWR_WAKE_CAUSE_MIRI k else s
/-- A Zhombe event wakes from SLEEP only (Table 2-6). -/
def wakeZl (s : State) (l : Nat) : State :=
  if s.isSleep && s.bit Reg.PWR_WAKE_EN Fl.PWR_WAKE_EN_ZL l then s.wakeBy fun s => s.setBit Reg.PWR_WAKE_CAUSE Fl.PWR_WAKE_CAUSE_ZL l else s
def wakePres (s : State) (p : Nat) : State :=
  if s.bit Reg.PWR_WAKE_EN Fl.PWR_WAKE_EN_CP_PRES p then s.wakeBy fun s => s.setBit Reg.PWR_WAKE_CAUSE Fl.PWR_WAKE_CAUSE_CP_PRES p else s

/-! ## Reactions -/

/-- One reaction other than a chip reset. -/
def react1 (s : State) (src : Nat) : State :=
  let r := s.reaction src
  if r = 2 then (if s.isSafe then s else s.blockReset src) else s.wakeFcu

/-- R441, R444, R446: the reactions due in this cycle; a chip reset ends all others. -/
def runReactions (s : State) : State :=
  let l := s.react
  let s := { s with react := [] }
  match l.find? fun i => s.reaction i == 3 with
  | some i => s.chipReset 0x10 i
  | none => l.foldl react1 s

/-! ## Fault sources by level (Table 15-1) -/

/-- A level source with hysteresis: on at `hi`, off below `lo`. -/
def hysteresis (s : State) (src : Nat) (on off : Bool) : State := s.level src (on || (s.fcuRaw src && !off))

def supplyBad (mv : Nat) : Bool := decide (mv < 2650) || decide (5600 < mv)

/-- VF_MV holds a value only while Horizon is trained. -/
def vfUpdate (s : State) : State :=
  if s.hzUp || s.hzKeep || !s.flag Reg.PWR_SUPPLY Fl.PWR_SUPPLY_VF_VALID then s
  else ((s.put Reg.PWR_SUPPLY Fl.PWR_SUPPLY_VF_MV 0).put Reg.PWR_SUPPLY Fl.PWR_SUPPLY_VF_VALID 0).level 4 false

/-! ## What every command ends with -/

def mustLeave (s : State) (n : Nat) : Bool :=
  (s.fnArmed n || s.fnRunning n) &&
    (decide (s.get Reg.SYS_SVC Fl.SYS_SVC_LEVEL < s.fnReqLevel n) || !s.miriSourceOk n || !s.zevSourceOk n || !s.casSourceOk n)

/-- R29, R32: the level follows, and every function it no longer carries leaves its state. -/
def levelLoop : Nat → State → State
  | 0, s => s.serviceUpdate
  | k + 1, s =>
    let s := s.serviceUpdate
    match (List.range 8).find? s.mustLeave with
    | none => s
    | some n => levelLoop k (s.levelLost n)

def settle (s : State) : State :=
  let s := s.runReactions
  if !s.alive then s
  else
    let s := (List.range 3).foldl unitUpdate s.vfUpdate
    if s.isSafe then s.serviceUpdate
    else
      let s := levelLoop 8 s
      let s := (List.range 8).foldl unmetUpdate s
      s.pump.forget.serviceUpdate

end State

/-- What every command ends with, after its own effect `s'`: reactions, levels, bring-up and streams follow, and the vectors of what it
asserted fire. The queue of waiting commands is no command's business, and no reaction outlives the cycle it is due in (R441). -/
def State.ended (s s' : State) : State := { State.fireRisen s s'.settle with pending := s.pending, react := [] }

/-- How a command ends. -/
def finish (s s' : State) : Host.Outcome State Fault Refusal := .next (s.ended s')

namespace State

/-! ## Fault collector (chapter 15) -/

/-- R440: bits are cleared, save those of level sources still asserted. -/
def fcuClear (s : State) (mask : Nat) : State :=
  let keep := s.pair Reg.FCU_RAW_LO Reg.FCU_RAW_HI
  let st := natAndNot s.fcuStatus mask ||| (s.fcuStatus &&& keep)
  let s := s.setPair Reg.FCU_STATUS_LO Reg.FCU_STATUS_HI st
  if st = 0 then s.put Reg.FCU_FIRST Fl.FCU_FIRST_VALID 0 else s

def fcuCntClear (s : State) : State := fcuAssigned.foldl (fun s i => s.setReg (Reg.FCU_CNT i) 0) s

/-- An odd number of bits. -/
def oddBits (b : Byte) : Bool := ((List.range 8).filter fun i => b.getLsbD i).length % 2 == 1

/-- What is inverted in one byte of one copy. -/
def upsetBits (l : List Upset) (copy : Fin 3) (byte : Nat) : Byte :=
  l.foldl (fun v u => if u.copy = copy ∧ u.byte = byte then v ^^^ u.bits else v) 0
def upsetParity (l : List Upset) (copy : Fin 3) (byte : Nat) : Bool :=
  l.foldl (fun v u => if u.copy = copy ∧ u.byte = byte then v != u.parity else v) false

/-- A byte of a copy fails its even parity. -/
def parityFault (l : List Upset) (copy : Fin 3) (byte : Nat) : Bool := oddBits (upsetBits l copy byte) != upsetParity l copy byte

/-- R450: the fault found, as (parity, byte): the lowest byte with a parity fault, else the lowest that differs between the copies. -/
def integrityFault (l : List Upset) : Option (Bool × Nat) :=
  match ((List.range 24).find? fun b => parityFault l 0 b || parityFault l 1 b), ((List.range 8).find? fun b => parityFault l 2 b) with
  | some b, _ => some (true, b)
  | none, some b => some (true, 24 + b)
  | none, none => ((List.range 24).find? fun b => upsetBits l 0 b != upsetBits l 1 b).map fun b => (false, b)

/-- Bits of the collector invert. FCU_STATUS itself is the copy numbered 2. DEDUCED, log entry 112. -/
def collectorUpset (s : State) (u : Upset) : State :=
  let s := { s with upsets := s.upsets ++ [u] }
  let s := if u.copy = 2 ∧ u.byte < 8 then
      s.setPair Reg.FCU_STATUS_LO Reg.FCU_STATUS_HI (s.fcuStatus ^^^ (u.bits.toNat * 2 ^ (8 * u.byte)))
    else s
  match integrityFault s.upsets with
  | none => s
  | some (p, b) =>
    let s := if s.flag Reg.FCU_INTEGRITY Fl.FCU_INTEGRITY_OK then
        ((s.put Reg.FCU_INTEGRITY Fl.FCU_INTEGRITY_OK 0).putFlag Reg.FCU_INTEGRITY Fl.FCU_INTEGRITY_PARITY p).put Reg.FCU_INTEGRITY
          Fl.FCU_INTEGRITY_BYTE b
      else s
    s.enterSafe 1

/-! ## Watchdog -/

def wdtOn (s : State) : Bool := s.flag Reg.WDT_CTRL Fl.WDT_CTRL_ENABLE

/-- R458, R461: count from 0, timeout and warning latched. -/
def wdtRestart (s : State) : State :=
  let ms := s.get Reg.WDT_TIMEOUT Fl.WDT_TIMEOUT_MS
  let s := { s with wdtCount := 0, wdtTimeout := ms, wdtWarn := s.get Reg.WDT_WARN Fl.WDT_WARN_MS, wdtWarned := false }
  (s.put Reg.WDT_STATUS Fl.WDT_STATUS_LATCHED_MS ms).put Reg.WDT_STATUS Fl.WDT_STATUS_ARMED 0

def wdtEnable (s : State) : State :=
  if s.wdtOn then s
  else ((s.put Reg.WDT_CTRL Fl.WDT_CTRL_ENABLE 1).put Reg.WDT_STATUS Fl.WDT_STATUS_ENABLED 1).wdtRestart

/-- R460: an expiry, by count or by key. -/
def wdtExpire (s : State) : State :=
  if s.wakes then
    let s := s.wakeBy fun s => s.put Reg.PWR_WAKE_CAUSE Fl.PWR_WAKE_CAUSE_WDT 1
    (s.put Reg.WDT_EVENT Fl.WDT_EVENT_WAKE 1).wdtRestart
  else s.chipReset 0x08 0

/-- R459: a key write while the watchdog is enabled. -/
def wdtKey (s : State) (k : Nat) : State :=
  if !s.wdtOn then s
  else
    let armed := s.flag Reg.WDT_STATUS Fl.WDT_STATUS_ARMED
    if k = 0x5A ∧ !armed then s.put Reg.WDT_STATUS Fl.WDT_STATUS_ARMED 1
    else if k = 0xC3 ∧ armed then s.wdtRestart.wrapBy Reg.WDT_SERVICES Fl.WDT_SERVICES_COUNT 1
    else s.wdtExpire

/-- The count has reached the latched timeout. -/
def wdtDue (s : State) : Bool := s.wdtOn && decide (s.wdtTimeout * 500000 ≤ s.wdtCount)

/-- R461. -/
def wdtWarnPoint (s : State) : State :=
  if s.wdtOn && s.wdtWarn != 0 && !s.wdtWarned && decide ((s.wdtTimeout - s.wdtWarn) * 500000 ≤ s.wdtCount) then
    { (s.put Reg.WDT_EVENT Fl.WDT_EVENT_WARN 1) with wdtWarned := true }
  else s

end State

end Sys2Proof.Machine
end

