-- ==== Sys2Proof/Machine/Cascade.lean ====
section
/-! DEFINITION. The cascade port (chapter 17): the lane, link-up, frames on a follower and at the lead, positions and transits of a
follower. Latencies count in units of 62.5 ps, of which 24 ns is 384. -/
namespace Sys2Proof.Machine

/-- Word `i` of a frame. -/
abbrev frameWord (l : List Nat) (i : Nat) : Nat := l.getD i 0
/-- `n` words of a frame from word `i`, highest first. -/
def frameNat (l : List Nat) (i n : Nat) : Nat := (List.range n).foldl (fun v k => v * 2 ^ 16 + frameWord l (i + k)) 0

/-- W0 is a valid header (Table 17-1). -/
def casHeader (l : List Nat) : Bool :=
  let w := frameWord l 0
  l.length == 125 && w / 2 ^ 12 == 0xA && !w.testBit 10 && w / 2 ^ 6 % 16 == 6

/-- R489: the frame is good. -/
def casGood (l : List Nat) : Bool := casHeader l && hcrc (l.take 124) == frameWord l 124

/-- Rounded half up: `num / den`. -/
def roundHalf (num : Int) (den : Nat) : Int := (2 * num + den).fdiv (2 * den)

/-- R490: CORR_k of a chain of `n` modules, from the sum of 64 ring latencies, RP_0 and the RP of positions 1 to 3. -/
def casCorr (n sum rp0 : Nat) (rps : List Nat) (k : Nat) : Nat :=
  let total := rp0 + (rps.take (n - 1)).foldl (· + ·) 0
  let f64 : Int := (sum : Int) - 64 * (384 * (2 * n - 1) + total : Nat)
  let fixed : Nat := 384 * k + (rps.take k).foldl (· + ·) 0 + 384 * (k - 1)
  (roundHalf (64 * n * fixed + k * f64) (64 * n)).toNat

namespace State

def modCas (s : State) (f : Cascade → Cascade) : State := { s with cas := f s.cas }
def modCasLane (s : State) (f : CasLane → CasLane) : State := s.modCas fun c => { c with lane := f c.lane }
def setCasState (s : State) (v : Nat) : State := s.put Reg.CAS_STATUS Fl.CAS_STATUS_STATE v
def casEvent (s : State) (f : Fld) : State := s.put Reg.CAS_EVENT f 1
def casPos (s : State) : Nat := s.get Reg.CAS_STATUS Fl.CAS_STATUS_POSITION
/-- CHAIN_LENGTH of the committed Chart; 1 before any. -/
def casLen (s : State) : Nat := s.get Reg.CAS_STATUS Fl.CAS_STATUS_LENGTH + 1
def casAligned (s : State) : Bool := s.flag Reg.CAS_STATUS Fl.CAS_STATUS_ALIGNED

/-! ## Link-up (R490, R492) -/

/-- The cascade lanes power down (R482, R501). DEDUCED, log entry 96. -/
def casOff (s : State) : State :=
  let s := (s.setCasState 0).put Reg.CAS_STATUS Fl.CAS_STATUS_ALIGNED 0
  s.modCas fun c => { c with lane := { casLaneReset with calFail := c.lane.calFail }, attempt := false, corrValid := false,
                             dueSamples := [], dueMsgs := [] }

/-- Table 17-2, step 1. -/
def casStart (s : State) : State :=
  if s.casLen ≤ 1 then s
  else
    let s := (s.casOff.setCasState 1).put Reg.CAS_STATUS Fl.CAS_STATUS_CAUSE 0
    let s := s.modCasLane fun l => { l with rx := if l.calFail then 0 else 2, tx := 6 }
    s.modCas fun c => { c with attempt := true, start := s.clk.ts, badRun := 0, goodRun := 0, ringSum := 0, missRun := 0 }

def casFail (s : State) (cause : Nat) : State :=
  if s.cas.attempt then
    let s := ((s.setCasState 4).put Reg.CAS_STATUS Fl.CAS_STATUS_CAUSE cause).casEvent Fl.CAS_EVENT_LINK_FAIL
    s.modCas fun c => { c with attempt := false, failed := s.clk.ts }
  else s

/-- Table 17-2, step 3, once transmitter and receiver are ready. -/
def casReady (s : State) : State :=
  let l := s.cas.lane
  if s.casState = 1 ∧ l.tx = 3 ∧ l.rx = 3 ∧ l.comma then
    (s.setCasState 2).modCas fun c => { c with frameTs := s.clk.ts, goodRun := 0, ringSum := 0 }
  else s

def casUpEnter (s : State) : State :=
  ((s.setCasState 3).casEvent Fl.CAS_EVENT_LINK_UP).modCas fun c => { c with attempt := false, badRun := 0, missRun := 0 }

/-- The transmitter's synthesiser (R303, R484). -/
def casSynLock (s : State) : State := if s.cas.lane.tx = 6 then (s.modCasLane fun l => { l with tx := 3 }).casReady else s
def casSynTimeout (s : State) : State := if s.cas.lane.tx = 6 then (s.modCasLane fun l => { l with tx := 7 }).casFail 1 else s

/-! ## Losses (R499, R500) -/

def casInputLoss (s : State) : State :=
  let s := ((s.setCasState 4).put Reg.CAS_STATUS Fl.CAS_STATUS_ALIGNED 0).casEvent Fl.CAS_EVENT_INPUT_LOSS
  let s := (s.bump Reg.CAS_CNT Fl.CAS_CNT_LOSS).modCas fun c => { c with failed := s.clk.ts, badRun := 0, dueSamples := [], dueMsgs := [] }
  s.raise 18

def casReturnLoss (s : State) : State :=
  let s := ((s.setCasState 2).casEvent Fl.CAS_EVENT_RETURN_LOSS).bump Reg.CAS_CNT Fl.CAS_CNT_LOSS
  (s.modCas fun c => { c with badRun := 0, missRun := 0, goodRun := 0, ringSum := 0 }).raise 18

/-! ## The receiver of CAS_IN (R484, as R295 to R301) -/

def casFault (s : State) : State := (s.modCasLane fun l => { l with rx := 7, locked := false }).casFail 2

def casPhaseLock (s : State) : State :=
  let l := s.cas.lane
  if l.rx = 2 ∧ !l.locked then s.modCasLane fun l => { l with locked := true }
  else if l.rx = 4 then s.modCasLane fun l => { l with locked := true, rx := 5 }
  else s

/-- CAS_IN reaches ACTIVE. -/
def casActive (s : State) (efm ctle : Nat) (taps : Taps) : State :=
  let s := s.put Reg.CAS_EFM Fl.CAS_EFM_LAST efm
  (s.modCasLane fun l => { l with rx := 3, base := efm, ctle := ctle, taps := taps.clamp, trial := none, forced := false, fresh := true }).casReady

def casAcqDone (s : State) (ctle efm : Nat) (taps : Taps) : State :=
  let l := s.cas.lane
  if l.rx = 2 ∧ l.locked then (if efm < 16 then s.casFault else s.casActive efm ctle taps) else s

def casNoLock (s : State) : State := if s.cas.lane.rx = 2 ∧ !s.cas.lane.locked then s.casFault else s

def casReacqDone (s : State) (efm : Nat) (taps : Taps) : State :=
  if s.cas.lane.rx = 5 then (if efm < 16 then s.casFault else s.casActive efm s.cas.lane.ctle taps) else s

/-- A lock loss; an UP follower has lost its input. -/
def casLockLoss (s : State) : State :=
  let l := s.cas.lane
  if l.rx = 3 ∨ l.rx = 5 then
    let s := s.modCasLane fun l => { l with rx := 4, locked := false, comma := false, trial := none, forced := false }
    if s.casState = 3 ∧ s.casPos ≠ 0 then s.casInputLoss else s
  else if l.rx = 2 ∧ l.locked then
    s.modCasLane fun l => { l with locked := false, taps := casLaneReset.taps, ctle := casLaneReset.ctle }
  else s

def casEfmTest (s : State) (m : Nat) : State :=
  let s := s.put Reg.CAS_EFM Fl.CAS_EFM_MIN (min m (s.get Reg.CAS_EFM Fl.CAS_EFM_MIN))
  if m < s.get Reg.CAS_EFM_LOW Fl.CAS_EFM_LOW_THRESHOLD then s.casEvent Fl.CAS_EVENT_EFM_LOW else s

/-- A window ends with EFM `m`; REVERT is 8. -/
def casWindowEnd (s : State) (m : Nat) : State :=
  let l := s.cas.lane
  if l.rx ≠ 3 ∨ l.fresh then s
  else
    let s := s.put Reg.CAS_EFM Fl.CAS_EFM_LAST m
    match l.trial with
    | none => (s.modCasLane fun l => { l with base := m }).casEfmTest m
    | some h =>
      if l.base ≤ m + 8 then (s.modCasLane fun l => { l with taps := h, base := m, trial := none }).casEfmTest m
      else s.modCasLane fun l => { l with trial := none, forced := true }

def casEpochEnd (s : State) (acc : Taps) : State :=
  s.modCasLane fun l =>
    if l.rx ≠ 3 then l
    else if l.fresh then { l with fresh := false }
    else
      let d := acc.propose
      { l with trial := if d != Taps.zero && !l.forced then some (l.taps.add d).clamp else none, forced := false }

/-- A training block arrives on CAS_IN with this LANE (R490). -/
def casBlock (s : State) (laneId : Nat) (ok : Bool) : State :=
  if s.cas.lane.rx ≠ 3 ∨ !ok then s
  else if laneId = (s.casPos + s.casLen - 1) % s.casLen then
    (s.modCasLane fun l => { l with comma := true, badHeads := 0 }).casReady
  else s.casFail 3

/-! ## Frames on a follower (R488, R489, R491) -/

/-- The follower's status word. -/
def casStatusWord (s : State) (corrValid : Bool) : Nat :=
  if corrValid then
    2 ^ 15 + 2 ^ 14 * ofBool s.casAligned + 2 ^ 13 * ofBool (decide (2 ≤ s.get Reg.SYS_SVC Fl.SYS_SVC_LEVEL)) +
      s.get Reg.CAS_EFM Fl.CAS_EFM_LAST
  else 2 ^ 15 + 2 ^ 13 * s.get Reg.CAS_STATUS Fl.CAS_STATUS_LENGTH + s.get Reg.CAS_RP Fl.CAS_RP_RP

/-- The frame as forwarded. DEDUCED, log entry 94. -/
def casForward (s : State) (l : List Nat) (good corrValid : Bool) : List Nat :=
  if l.isEmpty then []
  else
    let l := l.set (36 + s.casPos) (s.casStatusWord corrValid)
    if good then l.set 124 (hcrc (l.take 124)) else l

/-- Bookkeeping of a bad frame at either end; two bad headers in a row misalign the lane. -/
def casBad (s : State) (l : List Nat) : State :=
  let heads := if casHeader l then 0 else s.cas.lane.badHeads + 1
  let s := (s.bump Reg.CAS_CNT Fl.CAS_CNT_BAD).modCasLane fun x => { x with badHeads := heads, comma := x.comma && decide (heads < 2) }
  s.modCas fun c => { c with badRun := c.badRun + 1, goodRun := 0, ringSum := 0 }

/-- The timestamp steps forward by `d` (R46); what the model measures from an earlier cycle keeps its distance. DEDUCED, log entry 98. -/
def stepTime (s : State) (d : Nat) : State :=
  { s with
    clk := { s.clk with ts := s.clk.ts + d, bootTs := s.clk.bootTs + d },
    fns := s.fns.map fun x => { x with start := x.start + d, drain := x.drain + d, lastTick := x.lastTick + d,
                                       unmet := x.unmet.map fun y => (y.1, y.2 + d) },
    lanes := s.lanes.map fun x => { x with start := x.start + d, lockFrom := x.lockFrom + d },
    ports := s.ports.map fun x => { x with start := x.start + d, lastTrig := x.lastTrig.map (· + d),
                                           awaited := x.awaited.map fun a => { a with since := a.since + d } },
    blockResets := s.blockResets.map fun x => (x.1, x.2 + d),
    commit := s.commit.map fun c => { c with start := c.start + d },
    bist := { s.bist with start := s.bist.start + d, lastStart := s.bist.lastStart.map (· + d),
                          running := s.bist.running.map fun r => { r with start := r.start + d } },
    hz := { s.hz with trainStart := s.hz.trainStart + d, launchedTo := s.hz.launchedTo + d / 20,
                      flight := s.hz.flight.map fun x => (x.1 + d / 20, x.2) },
    jens := { s.jens with launchedTo := s.jens.launchedTo + d / 20, flight := s.jens.flight.map fun x => (x.1 + d / 20, x.2) },
    cas := { s.cas with start := s.cas.start + d, failed := s.cas.failed + d } }

/-- Samples that a frame carries as VALID: channel and value. -/
def casSamples (l : List Nat) : List (Nat × Nat) :=
  (List.range 4).filterMap fun c =>
    let v := frameNat l (5 + 3 * c) 3
    if v.testBit 47 then some (c, v % 2 ^ 40) else none

def casMessages (l : List Nat) : List CasMsg :=
  (List.range 4).filterMap fun i =>
    let o := 17 + 5 * i
    let w := frameWord l o
    let kind := w / 2 ^ 14
    if kind = 1 ∨ kind = 2 then
      some ⟨kind, w / 2 ^ 11 % 8, w / 2 ^ 3 % 256, w / 2 % 4, frameNat l (o + 1) 2, frameNat l (o + 3) 2, 0⟩
    else none

/-- R491: the follower takes its timestamp, its replicas and high-water marks from a frame. -/
def casAlign (s : State) (l : List Nat) : State :=
  let corr := frameWord l (39 + s.casPos)
  let trim := signed 32 (s.reg Reg.CAS_TRIM).toNat
  let want := ((frameNat l 1 4 : Int) + (corr * 125 + 2 * trim + 2000).fdiv 4000).toNat
  let own := s.clk.ts
  let s := s.put Reg.CAS_CORR Fl.CAS_CORR_CORR corr
  let s := if own ≤ want then (s.stepTime (want - own)).put Reg.CAS_TS_AHEAD Fl.CAS_TS_AHEAD_CYCLES 0
    else (s.put Reg.CAS_TS_AHEAD Fl.CAS_TS_AHEAD_CYCLES (own - want)).casEvent Fl.CAS_EVENT_TS_AHEAD
  let s := (casSamples l).foldl (fun s x => s.modCas fun c =>
      { c with replica := c.replica.setIfInBounds x.1 x.2, hwm := c.hwm.setIfInBounds x.1 x.2 }) s
  (s.put Reg.CAS_STATUS Fl.CAS_STATUS_ALIGNED 1).casUpEnter

/-- A good frame on a follower. -/
def casTake (s : State) (l : List Nat) : State :=
  let corrValid := (frameWord l 0).testBit 11
  let s := s.modCas fun c => { c with badRun := 0 }
  let s := s.modCasLane fun x => { x with badHeads := 0 }
  let s := if corrValid && !s.casAligned then s.casAlign l else s
  let s := s.put Reg.CAS_STATUS Fl.CAS_STATUS_VALID ((casSamples l).foldl (fun v x => v + 2 ^ x.1) 0)
  if s.casState = 3 then
    let ts := frameNat l 1 4
    let base := 600 + s.get Reg.CAS_TS_AHEAD Fl.CAS_TS_AHEAD_CYCLES
    s.modCas fun c => { c with
      dueSamples := c.dueSamples ++ (casSamples l).map fun x => (ts - 20 * ((4 - x.1) % 4) + base, x.1, x.2),
      dueMsgs := c.dueMsgs ++ (casMessages l).map fun m => (ts + base, m) }
  else s

/-- CAS_FRAME_RECEIVED: a frame reaches a follower's logic in this cycle; no words: it does not arrive. DEDUCED, log entry 101. -/
def casReceive (s : State) (l : List Nat) (rp : Nat) : State :=
  if s.casPos = 0 ∨ s.casLen ≤ 1 ∨ (s.casState ≠ 2 ∧ s.casState ≠ 3) then s
  else
    let l := if s.cas.lane.comma && s.cas.lane.rx == 3 then l else []
    let s := if l.isEmpty then s else s.put Reg.CAS_RP Fl.CAS_RP_RP rp
    let corrValid := (frameWord l 0).testBit 11
    if casGood l then
      let s := s.casTake l
      s.modCas fun c => { c with lastOut := s.casForward l true corrValid }
    else
      let s := s.casBad l
      let s := s.modCas fun c => { c with lastOut := s.casForward l false corrValid }
      if s.casState = 3 ∧ 8 ≤ s.cas.badRun then s.casInputLoss else s

/-! ## Frames returned to the lead (R490, R495, R500) -/

/-- Status words of the followers' positions. -/
def casWords (s : State) (l : List Nat) : List Nat := (List.range (s.casLen - 1)).map fun k => frameWord l (37 + k)

def casShowStatus (s : State) (l : List Nat) : State :=
  (s.casWords l).zipIdx.foldl (fun s x =>
    if x.1.testBit 15 then s.setReg (Reg.CAS_F_STATUS x.2) (BitVec.ofNat 32 (2 ^ 31 + x.1))
    else s.put (Reg.CAS_F_STATUS x.2) Fl.CAS_F_STATUS_PRESENT 0) s

/-- 64 good frames have been measured: CORR is computed and sent. The rounding of the average that LINKUP shows is not stated
(DESIGN CHOICE, log entry 14). -/
def casCompute (s : State) (rp0 : Nat) : State :=
  let n := s.casLen
  let sum := s.cas.ringSum
  let corr := fun k => casCorr n sum rp0 s.cas.rps.toList k
  if 14400 < corr (n - 1) + 2560 then s.casFail 5
  else
    let s := s.put Reg.CAS_RING Fl.CAS_RING_LINKUP (if Config.ringRoundUp sum then ceilDiv sum 64 else sum / 64)
    let s := (List.range (n - 1)).foldl (fun s k => s.put (Reg.CAS_F_CORR k) Fl.CAS_F_CORR_CORR (corr (k + 1))) s
    s.modCas fun c => { c with corrValid := true, goodRun := 64 }

/-- A good frame at the lead while it measures. DEDUCED, log entry 97. -/
def casMeasure (s : State) (l : List Nat) (ring rp0 : Nat) : State :=
  let ws := s.casWords l
  let every := ws.all (·.testBit 15)
  let first := !(frameWord l 0).testBit 11
  let s := if first then
      ws.zipIdx.foldl (fun s x => if x.1.testBit 15 then s.modCas fun c => { c with rps := c.rps.setIfInBounds x.2 (x.1 % 2 ^ 13) } else s) s
    else s
  if first && ws.any fun w => w.testBit 15 && w / 2 ^ 13 % 4 + 1 != s.casLen then s.casFail 4
  else if s.cas.goodRun < 64 then
    if every then
      let s := s.modCas fun c => { c with goodRun := c.goodRun + 1, ringSum := c.ringSum + ring }
      if s.cas.goodRun = 64 then s.casCompute rp0 else s
    else s.modCas fun c => { c with goodRun := 0, ringSum := 0 }
  else if !first && every && ws.all (·.testBit 14) then s.casUpEnter
  else s

/-- A good frame at the lead in UP. -/
def casWatch (s : State) (l : List Nat) (ring : Nat) : State :=
  let s := if 512 < ((64 * ring : Nat) - (s.cas.ringSum : Int)).natAbs then s.casEvent Fl.CAS_EVENT_DRIFT else s
  if (s.casWords l).all (·.testBit 15) then s.modCas fun c => { c with missRun := 0 }
  else
    let s := s.modCas fun c => { c with missRun := c.missRun + 1 }
    if 8 ≤ s.cas.missRun then s.casReturnLoss else s

/-- CAS_FRAME_RETURNED: a frame of the lead comes back (no words: it does not), with its ring latency and the lead's own RP. -/
def casReturned (s : State) (l : List Nat) (ring rp0 : Nat) : State :=
  if s.casPos ≠ 0 ∨ s.casLen ≤ 1 ∨ (s.casState ≠ 2 ∧ s.casState ≠ 3) then s
  else
    let l := if s.cas.lane.comma && s.cas.lane.rx == 3 then l else []
    if casGood l then
      let s := (s.put Reg.CAS_RP Fl.CAS_RP_RP rp0).put Reg.CAS_RING Fl.CAS_RING_NOW ring
      let s := (s.casShowStatus l).modCas fun c => { c with badRun := 0 }
      let s := s.modCasLane fun x => { x with badHeads := 0 }
      if s.casState = 2 then s.casMeasure l ring rp0 else s.casWatch l ring
    else
      let s' := s.casBad l
      let s' := if s.casState = 3 ∨ 64 ≤ s.cas.goodRun then s'.modCas fun c => { c with goodRun := s.cas.goodRun, ringSum := s.cas.ringSum } else s'
      if s'.casState = 3 ∧ 8 ≤ s'.cas.badRun then s'.casReturnLoss else s'

/-! ## What a follower applies (R493, R497) -/

/-- The oldest due sample of channel `c` is applied when its cycle has come. -/
def casApplySample (s : State) (c : Fin 4) : State :=
  match s.cas.dueSamples.find? fun x => x.2.1 == c.val with
  | none => s
  | some x =>
    if s.casState ≠ 3 ∨ s.clk.ts < x.1 then s
    else
      let s := s.modCas fun k => { k with
        dueSamples := k.dueSamples.erase x, replica := k.replica.set c x.2.2,
        hwm := if 0 < sdiff 40 x.2.2 k.hwm[c] then k.hwm.set c x.2.2 else k.hwm }
      s.positionChecks

/-- OPEN for lead function `n` (R21, R24). -/
def casOpen (s : State) (m : CasMsg) : State :=
  if !s.fnDefined m.fn then s
  else if s.fnTrigger m.fn ≠ m.chan then s.casEvent Fl.CAS_EVENT_FN_MISMATCH
  else if s.fnArmed m.fn || s.fnRunning m.fn then
    match s.freeSlot m.fn with
    | none => s.overrun m.fn
    | some slot => (s.openWith m.fn slot m.tid none (some m.pos)).lepChecks m.fn m.tid
  else s

def casTep (s : State) (m : CasMsg) : State :=
  match s.transit? m.fn m.tid with
  | some t => if t.tep.isNone then s.fixTep m.fn m.tid m.pos else s
  | none => s

/-- The oldest due message is applied when its cycle has come. DEDUCED, log entry 99. -/
def casApplyMessage (s : State) : State :=
  match s.cas.dueMsgs with
  | [] => s
  | (t, m) :: rest =>
    if s.casState ≠ 3 ∨ s.clk.ts < t then s
    else
      let s := s.modCas fun c => { c with dueMsgs := rest }
      if s.cas.applied.contains m.mseq then s
      else
        let gap := match s.cas.applied with | a :: _ => m.mseq != (a + 1) % 256 | [] => false
        let s := if gap then
            let s := (s.casEvent Fl.CAS_EVENT_MSG_LOSS).bump Reg.CAS_CNT Fl.CAS_CNT_MSG_LOSS
            s.transits.foldl (fun s x => s.degrade x.fn x.tid) s
          else s
        let s := s.modCas fun c => { c with applied := (m.mseq :: c.applied).take 2 }
        if m.kind = 1 then s.casOpen m else s.casTep m

/-! ## Timers and commands -/

/-- R492: step 4 or step 6 has not been reached 50 ms after the start. DEDUCED, log entry 100. -/
def casTimeout (s : State) : State := if s.cas.attempt && decide (s.cas.start + 25000000 ≤ s.clk.ts) then s.casFail 6 else s

/-- R490: 100 ms after a failed attempt or a loss, with AUTO set. DEDUCED, log entry 95. -/
def casRetry (s : State) : State :=
  if s.casState = 4 ∧ s.flag Reg.CAS_CTRL Fl.CAS_CTRL_AUTO ∧ s.cas.failed + 50000000 ≤ s.clk.ts then s.casStart else s

def casCntClear (s : State) : State := (s.setReg Reg.CAS_CNT 0).put Reg.CAS_EFM Fl.CAS_EFM_MIN 255

end State

end Sys2Proof.Machine
end

