-- ==== Sys2Proof/Machine/Sha.lean ====
section
/-! DEFINITION. SHA-256 and ECDSA over P-256, as R87, R92 and R93 name them. The algorithms and their constants are those of FIPS 180-4
and FIPS 186-5; the spec names both and gives neither (PRESUMED, log entry 13). -/
namespace Sys2Proof.Machine

/-! ## SHA-256 over a list of byte values -/

def shaK0 : List Word :=
  [0x428a2f98, 0x71374491, 0xb5c0fbcf, 0xe9b5dba5, 0x3956c25b, 0x59f111f1, 0x923f82a4, 0xab1c5ed5,
   0xd807aa98, 0x12835b01, 0x243185be, 0x550c7dc3, 0x72be5d74, 0x80deb1fe, 0x9bdc06a7, 0xc19bf174,
   0xe49b69c1, 0xefbe4786, 0x0fc19dc6, 0x240ca1cc, 0x2de92c6f, 0x4a7484aa, 0x5cb0a9dc, 0x76f988da,
   0x983e5152, 0xa831c66d, 0xb00327c8, 0xbf597fc7, 0xc6e00bf3, 0xd5a79147, 0x06ca6351, 0x14292967]
def shaK1 : List Word :=
  [0x27b70a85, 0x2e1b2138, 0x4d2c6dfc, 0x53380d13, 0x650a7354, 0x766a0abb, 0x81c2c92e, 0x92722c85,
   0xa2bfe8a1, 0xa81a664b, 0xc24b8b70, 0xc76c51a3, 0xd192e819, 0xd6990624, 0xf40e3585, 0x106aa070,
   0x19a4c116, 0x1e376c08, 0x2748774c, 0x34b0bcb5, 0x391c0cb3, 0x4ed8aa4a, 0x5b9cca4f, 0x682e6ff3,
   0x748f82ee, 0x78a5636f, 0x84c87814, 0x8cc70208, 0x90befffa, 0xa4506ceb, 0xbef9a3f7, 0xc67178f2]
/-- Round constants. -/
def shaK : List Word := shaK0 ++ shaK1
/-- Initial hash value. -/
def shaInit : List Word :=
  [0x6a09e667, 0xbb67ae85, 0x3c6ef372, 0xa54ff53a, 0x510e527f, 0x9b05688c, 0x1f83d9ab, 0x5be0cd19]

def shaRot (x : Word) (n : Nat) : Word := x.rotateRight n
def shaW (l : List Word) (i : Nat) : Word := l.getD i 0

/-- Word `t` of the message schedule, from the sixteen before it, newest first. -/
def shaNext (l : List Word) : Word :=
  let a := shaW l 14
  let b := shaW l 1
  (shaRot b 17 ^^^ shaRot b 19 ^^^ b >>> 10) + shaW l 6 + (shaRot a 7 ^^^ shaRot a 18 ^^^ a >>> 3) + shaW l 15

/-- The 64 words of the schedule. -/
def shaSchedule (block : List Word) : List Word :=
  ((List.range 48).foldl (fun l _ => shaNext l :: l) block.reverse).reverse

def shaRound (h : List Word) (kw : Word) : List Word :=
  let e := shaW h 4
  let a := shaW h 0
  let t1 := shaW h 7 + (shaRot e 6 ^^^ shaRot e 11 ^^^ shaRot e 25) + (e &&& shaW h 5 ^^^ ~~~e &&& shaW h 6) + kw
  let t2 := (shaRot a 2 ^^^ shaRot a 13 ^^^ shaRot a 22) + (a &&& shaW h 1 ^^^ a &&& shaW h 2 ^^^ shaW h 1 &&& shaW h 2)
  [t1 + t2, a, shaW h 1, shaW h 2, shaW h 3 + t1, e, shaW h 5, shaW h 6]

def shaBlock (h : List Word) (block : List Word) : List Word :=
  List.zipWith (· + ·) h ((List.zipWith (· + ·) shaK (shaSchedule block)).foldl shaRound h)

/-- A message with its padding: a one bit, zeros, and the length in bits. -/
def shaPad (l : List Nat) : List Nat :=
  l ++ 0x80 :: List.replicate ((119 - l.length % 64) % 64) 0 ++ (List.range 8).map fun i => 8 * l.length / 2 ^ (56 - 8 * i) % 256

/-- Big-endian value of a run of bytes. -/
def beNat (l : List Nat) : Nat := l.foldl (fun n b => 256 * n + b) 0

def shaWords (l : List Nat) : List Word := (List.range 16).map fun i => BitVec.ofNat 32 (beNat ((l.drop (4 * i)).take 4))

def shaBlocks : Nat → List Word → List Nat → List Word
  | 0, h, _ => h
  | n + 1, h, l => shaBlocks n (shaBlock h (shaWords (l.take 64))) (l.drop 64)

/-- The digest, as a number of 256 bits. -/
def sha256 (l : List Nat) : Nat :=
  let m := shaPad l
  (shaBlocks (m.length / 64) shaInit m).foldl (fun n w => 2 ^ 32 * n + w.toNat) 0

/-! ## ECDSA over P-256 -/

def p256P : Nat := 0xffffffff00000001000000000000000000000000ffffffffffffffffffffffff
def p256N : Nat := 0xffffffff00000000ffffffffffffffffbce6faada7179e84f3b9cac2fc632551
def p256B : Nat := 0x5ac635d8aa3a93e7b3ebbd55769886bc651d06b0cc53b0f63bce3c3e27d2604b
def p256G : Nat × Nat :=
  (0x6b17d1f2e12c4247f8bce6e563a440f277037d812deb33a0f4a13945d898c296, 0x4fe342e2fe1a7f9b8ee7eb4a7c0f9e162bce33576b315ececbb6406837bf51f5)

/-- Bits of a number of 256 bits, highest first. -/
def bits256 (n : Nat) : List Bool := (List.range 256).map fun i => n.testBit (255 - i)

def powMod (m b e : Nat) : Nat := (bits256 e).foldl (fun x d => let y := x * x % m; if d then y * b % m else y) 1
/-- Inverse modulo a prime. -/
def invMod (m a : Nat) : Nat := powMod m (a % m) (m - 2)
def subMod (m a b : Nat) : Nat := (a % m + m - b % m) % m

/-- Addition on the curve; `none` is the point at infinity. -/
def ecAdd : Option (Nat × Nat) → Option (Nat × Nat) → Option (Nat × Nat)
  | none, q => q
  | p, none => p
  | some (x1, y1), some (x2, y2) =>
    if x1 = x2 ∧ (y1 + y2) % p256P = 0 then none
    else
      let k := if x1 = x2 then subMod p256P (3 * x1 * x1) 3 * invMod p256P (2 * y1) % p256P
        else subMod p256P y2 y1 * invMod p256P (subMod p256P x2 x1) % p256P
      let x := subMod p256P (k * k) (x1 + x2)
      some (x, subMod p256P (k * subMod p256P x1 x) y1)

def ecMul (k : Nat) (p : Nat × Nat) : Option (Nat × Nat) :=
  (bits256 k).foldl (fun a d => let a := ecAdd a a; if d then ecAdd a (some p) else a) none

def ecOnCurve (x y : Nat) : Bool :=
  decide (x < p256P) && decide (y < p256P) && y * y % p256P == (x * x * x + (p256P - 3) * x + p256B) % p256P

/-- The signature (r, s) of digest `z` verifies with the key (x, y). -/
def ecdsaValid (x y r s z : Nat) : Bool :=
  ecOnCurve x y && decide (0 < r) && decide (r < p256N) && decide (0 < s) && decide (s < p256N) &&
    let w := invMod p256N s
    match ecAdd (ecMul (z * w % p256N) p256G) (ecMul (r * w % p256N) (x, y)) with
    | none => false
    | some q => q.1 % p256N == r

end Sys2Proof.Machine
end

