-- ==== Sys2Proof/Machine/Check.lean ====
section
/-! DEFINITION. The checks of COMMIT, stages 2 to 8 (R98, Tables 3-14 and 3-15). -/
namespace Sys2Proof.Machine

/-- A rule that a section breaks: byte offset of the field within the section, result code and DETAIL. -/
structure Issue where
  off : Nat
  code : Nat
  detail : Nat
  deriving DecidableEq, Repr

/-- Why a COMMIT fails: CODE, SECTION, DETAIL, and the image offset of the failing field, where there is one. -/
structure CheckFail where
  code : Nat
  sec : Nat
  detail : Nat
  off : Option Nat
  deriving DecidableEq, Repr

/-- The issue when `bad` holds. -/
def ck (bad : Bool) (off code : Nat) (detail : Nat := 0) : List Issue := if bad then [⟨off, code, detail⟩] else []
/-- RESERVED: `n` bytes at `o` must be 0. -/
def rsv (d : List Nat) (o n : Nat) : List Issue := ck ((List.range n).any fun i => u8 d (o + i) != 0) o 0x40
/-- RANGE: a value within bounds. -/
def rng (o v lo hi : Nat) : List Issue := ck (decide (v < lo) || decide (hi < v)) o 0x41

/-- The failing field with the lowest offset; of several rules on one field, the first listed. -/
def firstIssue (l : List Issue) : Option Issue :=
  l.foldl (fun b x => match b with | none => some x | some y => if x.off < y.off then some x else b) none

/-- The first failure over sections in table order (R98). -/
def firstFail (f : Section → List Issue) : Nat → List Section → Option CheckFail
  | _, [] => none
  | i, x :: r => match firstIssue (f x) with
    | some e => some ⟨e.code, i, e.detail, some (x.offset + e.off)⟩
    | none => firstFail f (i + 1) r

/-! ## Stage 2 (R71) -/

/-- The image as the store holds it: byte `i`. -/
abbrev Image := Nat → Nat

def imgList (f : Image) (o n : Nat) : List Nat := (List.range n).map fun i => f (o + i)
def img32 (f : Image) (o : Nat) : Nat := f o + 2 ^ 8 * f (o + 1) + 2 ^ 16 * f (o + 2) + 2 ^ 24 * f (o + 3)
def img16 (f : Image) (o : Nat) : Nat := f o + 2 ^ 8 * f (o + 1)

def headerFail (f : Image) (id : Nat) : Option CheckFail :=
  let fail := fun c o => some (⟨c, 0xFF, 0, some o⟩ : CheckFail)
  let n := img32 f 0x10
  if imgList f 0 4 ≠ [0x4C, 0x51, 0x43, 0x48] then fail 0x10 0
  else if img16 f 4 ≠ 1 then fail 0x11 4
  else if img16 f 6 ≠ 0 then fail 0x11 6
  else if (id ^^^ img32 f 8) &&& img32 f 0xC ≠ 0 then fail 0x12 8
  else if n < 128 ∨ 2097152 < n ∨ n % 16 ≠ 0 then fail 0x13 0x10
  else if crc32 (imgList f 0 0x3C ++ imgList f 0x40 (16 * img16 f 0x14)) ≠ img32 f 0x3C then fail 0x14 0x3C
  else none

/-! ## Stage 3 (R72, R75) -/

/-- Highest instance of a section type (Table 3-3); none for a value that is no type. -/
def maxInstance (t : Nat) : Option Nat :=
  if t = 1 ∨ t = 2 ∨ t = 5 ∨ t = 7 ∨ t = 8 ∨ t = 0x7F then some 0
  else if t = 3 ∨ t = 4 then some 3
  else if t = 6 then some 1
  else if t = 0x10 then some 7
  else if t = 0x11 ∨ t = 0x12 ∨ t = 0x13 then some 15
  else none

/-- The length a section's type defines, from the counts it holds. -/
def sectionLength (t : Nat) (d : List Nat) : Nat :=
  if t = 1 then 16 else if t = 2 then 8 else if t = 3 then 32 else if t = 4 then 16 else if t = 5 then 256
  else if t = 6 then 8 + 16 * u8 d 1
  else if t = 7 then 64
  else if t = 8 then 16 + 64 * u16 d 0
  else if t = 0x10 then 64 + 4 * u8 d 0xD
  else if t = 0x11 then 8 + 64 * u16 d 2
  else if t = 0x12 then 40
  else if t = 0x13 then 24 + 32 * u8 d 4
  else 144

/-- Entry `i` of the section table with its section. -/
def entryAt (f : Image) (i : Nat) : Section :=
  let e := 0x40 + 16 * i
  ⟨f e, f (e + 1), img32 f (e + 4), img32 f (e + 8), img32 f (e + 12), imgList f (img32 f (e + 4)) (min (img32 f (e + 8)) 2097152)⟩

def keyLess (a b : Nat × Nat) : Bool := decide (a.1 < b.1) || (a.1 == b.1 && decide (a.2 < b.2))

/-- One entry against those before it; `fin` is the end of the section (or of the table) before. -/
def entryFail (len i fin : Nat) (x : Section) (before : List Section) : Option CheckFail :=
  let e := 0x40 + 16 * i
  let fail := fun c d o => some (⟨c, i, d, some o⟩ : CheckFail)
  match maxInstance x.typ with
  | none => fail 0x21 i e
  | some m =>
    if m < x.inst then fail 0x21 i (e + 1)
    else if before.any fun y => y.typ == x.typ && y.inst == x.inst then fail 0x22 i e
    else if before.any fun y => keyLess (x.typ, x.inst) (y.typ, y.inst) then fail 0x20 i e
    else if x.offset % 16 ≠ 0 ∨ x.offset < fin then fail 0x20 i (e + 4)
    else if len < x.offset + x.length then fail 0x20 i (e + 8)
    else if sectionLength x.typ x.data ≠ x.length then fail 0x24 0 (e + 8)
    else none

def tableFail (len : Nat) : Nat → Nat → List Section → List Section → Option CheckFail
  | _, _, _, [] => none
  | i, fin, before, x :: r => match entryFail len i fin x before with
    | some e => some e
    | none => tableFail len (i + 1) (x.offset + x.length) (before ++ [x]) r

/-- The sections a Chart must hold (Table 3-3). -/
def requiredSections (c : Chart) (enforce : Bool) : List (Nat × Nat) :=
  let fns := c.functions
  [(1, 0), (2, 0)] ++
  ((List.range 4).filter fun p => fns.any fun n => (u8 (c.fn n) 1).testBit p).flatMap (fun p => [(3, p), (4, p)]) ++
  (if fns.any fun n => u8 (c.fn n) 0 == 3 then [(5, 0)] else []) ++
  ((List.range 2).filter fun l => fns.any fun n => u8 (c.fn n) 3 == 1 && u8 (c.fn n) 4 / 128 == l).map (fun l => (6, l)) ++
  [(7, 0)] ++
  ((List.range 16).filter fun i => fns.any fun n => c.fnProgram n == some i).map (fun i => (0x11, i)) ++
  ((List.range 16).filter fun i => c.sections.any fun x => x.typ == 0x11 && u8 x.data 0 == i).map (fun i => (0x12, i)) ++
  ((List.range 16).filter fun i => fns.any fun n => c.fnVerdict n == some i).map (fun i => (0x13, i)) ++
  (if enforce then [(0x7F, 0)] else [])

/-- A SIGNATURE that Table 3-13 requires is reported at stage 5. -/
def missingFail (c : Chart) : Option CheckFail :=
  ((requiredSections c false).find? fun k => !c.has k.1 k.2).map fun k => ⟨0x23, 0xFF, 256 * k.1 + k.2, none⟩

/-! ## Stage 4 (R73) -/

def crcFail : Nat → List Section → Option CheckFail
  | _, [] => none
  | i, x :: r => if x.typ ≠ 0x7F ∧ crc32 x.data ≠ x.crc then some ⟨0x25, i, 0, some (0x40 + 16 * i + 12)⟩ else crcFail (i + 1) r

/-! ## Stage 5 (R92, R93) -/

/-- Table 3-13: the failure, if any. `hash` and `enforce` are the fuses. -/
def signatureFail (f : Image) (sections : List Section) (hash : Option (BitVec 256)) (enforce : Bool) : Option CheckFail :=
  match sections.findIdx? (·.typ == 0x7F), sections.find? (·.typ == 0x7F) with
  | some i, some x =>
    let at' := fun o => some (x.offset + o)
    let big := fun o => beNat ((x.data.drop o).take 32)
    let keyOk := match hash with | some h => sha256 ((x.data.drop 16).take 64) == h.toNat | none => true
    if enforce && hash.isNone then some ⟨0x31, i, 0, none⟩
    else if !keyOk then some ⟨0x32, i, 0, at' 16⟩
    else if !ecdsaValid (big 16) (big 48) (big 80) (big 112) (sha256 (imgList f 0 x.offset)) then some ⟨0x33, i, 0, at' 80⟩
    else none
  | _, _ => if enforce then some ⟨if hash.isNone then 0x31 else 0x30, 0xFF, 0, none⟩ else none

/-! ## Stage 6: reserved fields and ranges of each section -/

def globalIssues (d : List Nat) : List Issue :=
  rng 0 (u16 d 0) 1 65535 ++ rng 2 (u8 d 2) 1 255 ++ rsv d 3 1 ++ rng 4 (u32 d 4) 0 16000 ++ rng 8 (u16 d 8) 0 1600 ++
  (if u16 d 0xA = 0 then [] else rng 0xA (u16 d 0xA) 100 65535) ++ rsv d 0xC 4

def clockIssues (d : List Nat) : List Issue :=
  let expect := fun o => ck (!(u8 d o ≤ 1) && u8 d o != 0xFF) o 0x41
  expect 0 ++ expect 1 ++ rng 2 (u8 d 2) 1 4 ++ rng 3 (u8 d 3) 0 3 ++
  ck (u16 d 4 != 0x8000 && decide (2000 < (s16 d 4).natAbs)) 4 0x41 ++ rsv d 6 2

/-- R328, Table 10-6. -/
def channelCode (c : Nat) : Bool := decide (1 ≤ c ∧ c ≤ 8) || decide (0x80 ≤ c ∧ c ≤ 0xFE)

def portIssues (d : List Nat) : List Issue :=
  rng 0 (u8 d 0) 0 1 ++ rng 1 (u8 d 1) 1 8 ++ rng 2 (u16 d 2) 1 16384 ++ rng 4 (u32 d 4) 1 400000 ++ rng 8 (u16 d 8) 1 65535 ++
  rng 0xA (u16 d 0xA) 1 65535 ++ rng 0x12 (u8 d 0x12) 1 16 ++ rng 0x13 (u8 d 0x13) 1 16 ++
  ((List.range 8).flatMap fun k =>
    ck (!(if k < u8 d 1 then channelCode (u8 d (0x14 + k)) else u8 d (0x14 + k) == 0xFF)) (0x14 + k) 0x41) ++
  rng 0x1C (u8 d 0x1C) 0 3 ++ rsv d 0x1D 3

/-- R79. `fwd`: the PORT of the instance selects forwarded-clock mode. -/
def laneIssues (d : List Nat) (fwd : Bool) : List Issue :=
  ((List.range 3).flatMap fun r =>
    if r = 2 ∧ fwd then (List.range 4).flatMap fun b => rng (8 + b) (u8 d (8 + b)) 0 0
    else rng (4 * r) (u8 d (4 * r)) 0 18 ++ rng (4 * r + 1) (u8 d (4 * r + 1)) 1 255 ++
      ck (decide (1 < u8 d (4 * r + 3))) (4 * r + 3) 0x40) ++
  rng 12 (u8 d 12) 0 3 ++ rsv d 13 3

def miroIssues (d : List Nat) (k : Nat) : List Issue :=
  let o := 4 * k
  let src := u8 d o
  rng o src 0 3 ++ rng (o + 1) (u8 d (o + 1)) 0 (if src = 1 ∨ src = 2 then 7 else 0) ++ rng (o + 2) (u8 d (o + 2)) 0 1 ++ rsv d (o + 3) 1

/-- R190. -/
def pfiIssues (d : List Nat) (c : Nat) : List Issue :=
  let o := 0x48 + 8 * c
  let mode := u8 d o
  let off := mode == 0
  let teeth := u16 d (o + 2)
  let kind := u8 d (o + 4)
  rng o mode 0 2 ++
  ck (if off then u8 d (o + 1) != 0 else !([1, 3, 5].contains (u8 d (o + 1)))) (o + 1) 0x41 ++
  ck (if mode = 2 then decide (teeth < 8) || decide (1024 < teeth) else teeth != 0) (o + 2) 0x41 ++
  ck (if mode = 2 then kind == 0 || decide (4 < kind) else kind != 0) (o + 4) 0x41 ++
  rng (o + 5) (u8 d (o + 5)) 0 (if off then 0 else 1) ++
  (if off then rng (o + 6) (u16 d (o + 6)) 0 0 else rsv d (o + 6) 2)

def sourceIssue (o v : Nat) : List Issue := ck (decide (3 < v) && v != 0xFF) o 0x41

def emuIssues (d : List Nat) (e : Nat) : List Issue :=
  let o := 0x68 + 16 * e
  sourceIssue o (u8 d o) ++ rsv d (o + 1) 1 ++ rng (o + 2) (u16 d (o + 2)) 1 65535 ++ rng (o + 4) (u16 d (o + 4)) 1 65535 ++
  rsv d (o + 6) 2 ++ rng (o + 8) (u32 d (o + 8)) 1 10000000

/-- R217; records of units that no function owns are not range-checked. -/
def gateIssues (d : List Nat) (c : Chart) : List Issue :=
  ((List.range 4).flatMap fun k =>
    let o := 0x90 + 8 * k
    if c.functions.any fun n => c.fnOwnsGhs n k then
      rng o (u16 d o) 0 25500 ++ rng (o + 4) (u16 d (o + 4)) 1000 50000 ++ rsv d (o + 6) 2
    else []) ++
  ((List.range 8).flatMap fun j =>
    let o := 0xB0 + 8 * j
    if c.functions.any fun n => c.fnOwnsGls n j then
      rng o (u8 d o) 1 255 ++ rng (o + 1) (u8 d (o + 1)) (max 1 (u8 d o)) 255 ++ rsv d (o + 3) 1 ++ rsv d (o + 6) 2
    else [])

def fspIssues (d : List Nat) : List Issue :=
  let role := u8 d 0xF0
  rng 0xF0 role 0 2 ++
  (if role = 0 then rng 0xF1 (u8 d 0xF1) 0 0 ++ rng 0xF2 (u16 d 0xF2) 0 0
   else rng 0xF1 (u8 d 0xF1) 0 3 ++ rng 0xF2 (u16 d 0xF2) 100 25000)

def fieldIssues (d : List Nat) (c : Chart) : List Issue :=
  (List.range 12).flatMap (miroIssues d) ++
  ((List.range 12).flatMap fun k => rng (0x30 + 2 * k) (u8 d (0x30 + 2 * k)) 0 7 ++ rsv d (0x31 + 2 * k) 1) ++
  (List.range 4).flatMap (pfiIssues d) ++ (List.range 2).flatMap (emuIssues d) ++
  ((List.range 2).flatMap fun p => sourceIssue (0x88 + 4 * p) (u8 d (0x88 + 4 * p)) ++ rsv d (0x89 + 4 * p) 3) ++
  gateIssues d c ++ fspIssues d ++ rng 0xF4 (u8 d 0xF4) 0 1 ++ rsv d 0xF5 11

def factoryNumber (d : List Nat) (i : Nat) : Nat := u32 d (12 + 16 * i) + 2 ^ 32 * u16 d (16 + 16 * i)

/-- R81, R274. DEDUCED, log entry 83. -/
def zhombeIssues (d : List Nat) : List Issue :=
  rng 0 (u8 d 0) 0 1 ++ rng 1 (u8 d 1) 0 24 ++ rsv d 2 6 ++
  (List.range (u8 d 1)).flatMap fun i =>
    let o := 8 + 16 * i
    rng o (u8 d o) 0 23 ++ ck ((List.range i).any fun k => u8 d (8 + 16 * k) == u8 d o) o 0x41 ++ rng (o + 1) (u8 d (o + 1)) 0 4 ++
    rsv d (o + 2) 2 ++ ck ((List.range i).any fun k => factoryNumber d k == factoryNumber d i) (o + 4) 0x41 ++ rsv d (o + 10) 6

def faultIssues (d : List Nat) : List Issue := (List.range 64).flatMap fun s => ck (decide (8 ≤ u8 d s)) s 0x40

/-- R83. -/
def ringIssues (d : List Nat) : List Issue :=
  rng 0 (u16 d 0) 1 128 ++ rsv d 2 14 ++
  (List.range (u16 d 0)).flatMap fun i =>
    let o := 16 + 64 * i
    let w := u32 d (o + 0x18)
    rng o (u8 d o) 0 127 ++ ck ((List.range i).any fun k => u8 d (16 + 64 * k) == u8 d o) o 0x41 ++
    rng (o + 1) (u8 d (o + 1)) 0 3 ++ rng (o + 2) (u8 d (o + 2)) 0 15 ++ rng (o + 4) (u8 d (o + 4)) 0 7 ++ rsv d (o + 5) 3 ++
    ck (w != 0 && (w % 4 != 0 || decide (1048576 < w))) (o + 0x18) 0x41 ++ rsv d (o + 0x1C) 4

/-- R84, R26. -/
def functionIssues (d : List Nat) : List Issue :=
  let src := u8 d 3
  let idx := u8 d 4
  let timer := u8 d 2 == 0x10
  rng 0 (u8 d 0) 2 3 ++ rng 1 (u8 d 1) 1 15 ++ ck (decide (3 < u8 d 2) && !timer) 2 0x41 ++ rng 3 src 0 2 ++
  ck (if src = 0 then decide (11 < idx) else if src = 1 then decide (23 < idx % 128) else idx != 0) 4 0x41 ++
  rng 5 (u8 d 5) 0 (if src = 2 then 0 else 1) ++ ck (!([16, 32, 64].contains (u8 d 6))) 6 0x41 ++
  ck (decide (15 < u8 d 7) && u8 d 7 != 0xFF) 7 0x41 ++ ck (decide (15 < u8 d 8) && u8 d 8 != 0xFF) 8 0x41 ++
  rng 0xA (u16 d 0xA) 0 0xFFF ++ rng 0xC (u8 d 0xC) 0 3 ++ rng 0xD (u8 d 0xD) 0 32 ++ rsv d 0xE 2 ++
  (if timer then rng 0x10 (u32 d 0x10) 1250 (2 ^ 32 - 1) else rng 0x10 (u32 d 0x10) 0 0) ++ rng 0x14 (u32 d 0x14) 1 25000000 ++
  rng 0x18 (u16 d 0x18) 1 2000 ++ rng 0x1A (u16 d 0x1A) 1 10000 ++ rsv d 0x1C 4 ++ rsv d 0x30 16 ++
  (List.range (u8 d 0xD)).flatMap fun i => rsv d (0x42 + 4 * i) 2

def stepReserved (d : List Nat) (o : Nat) : List Issue :=
  if u8 d o = 1 ∨ u8 d o = 2 then ck (decide (128 ≤ u8 d (o + 0x10))) (o + 0x10) 0x40 ++ rsv d (o + 0x12) 2 ++ rsv d (o + 0x20) 32
  else if 3 ≤ u8 d o ∧ u8 d o ≤ 6 then ck (decide (16 ≤ u8 d (o + 3))) (o + 3) 0x40 ++ rsv d (o + 9) 1 ++ rsv d (o + 0xC) 52
  else []

/-- R86; `before` is the number of steps in the PROGRAM sections before this one. -/
def programIssues (d : List Nat) (before : Nat) : List Issue :=
  ck (decide (15 < u8 d 0) && u8 d 0 != 0xFF) 0 0x41 ++ rsv d 1 1 ++ rng 2 (u16 d 2) 1 1024 ++
  ck (decide (before ≤ 4096) && decide (4096 < before + u16 d 2)) 2 0x41 ++ rsv d 4 4 ++
  (List.range (u16 d 2)).flatMap fun k => stepReserved d (8 + 64 * k)

def gateProgramIssues (d : List Nat) (o : Nat) : List Issue :=
  if u8 d o = 0xFF then rsv d (o + 1) 1 ++ rsv d (o + 2) 1 ++ rsv d (o + 3) 1 ++ rsv d (o + 4) 4 ++ rsv d (o + 8) 4 ++ rsv d (o + 12) 4
  else rng o (u8 d o) 0 7 ++ rng (o + 1) (u8 d (o + 1)) 1 255 ++ rsv d (o + 3) 1 ++ rsv d (o + 12) 4

/-- R90, R408. -/
def verdictIssues (d : List Nat) : List Issue :=
  let n := u8 d 4
  rng 0 (u32 d 0) 1 (2 ^ 31 - 1) ++ rng 4 n 0 64 ++ rsv d 5 3 ++ gateProgramIssues d 8 ++
  (List.range n).flatMap fun r =>
    let o := 24 + 32 * r
    rng o (u8 d o) 0 4 ++ rng (o + 2) (u8 d (o + 2)) 0 (if r + 1 = n then 0 else 1) ++ rsv d (o + 3) 1 ++ rsv d (o + 8) 8 ++
    gateProgramIssues d (o + 16)

/-- Steps of the PROGRAM sections before a section, in table order. -/
def stepsBefore (c : Chart) (x : Section) : Nat :=
  ((c.sections.takeWhile fun y => y.inst != x.inst || y.typ != x.typ).filter fun y => y.typ == 0x11).foldl (fun n y => n + u16 y.data 2) 0

def rangeIssues (c : Chart) (x : Section) : List Issue :=
  let d := x.data
  match x.typ with
  | 0x01 => globalIssues d
  | 0x02 => clockIssues d
  | 0x03 => portIssues d
  | 0x04 => laneIssues d (c.has 3 x.inst && u8 (c.sec 3 x.inst) 0 == 0)
  | 0x05 => fieldIssues d c
  | 0x06 => zhombeIssues d
  | 0x07 => faultIssues d
  | 0x08 => ringIssues d
  | 0x10 => functionIssues d
  | 0x11 => programIssues d (stepsBefore c x)
  | 0x12 => ck (u32 d 0 % 64 != 0) 0 0x41 ++ rng 4 (u32 d 4) 1 (2 ^ 32 - 1)
  | 0x13 => verdictIssues d
  | _ => rng 0 (u32 d 0) 1 1 ++ rsv d 4 12

/-- Reserved fields of the header and of the table entries, then the sections (R98). -/
def rangeFail (f : Image) (c : Chart) : Option CheckFail :=
  let zero := fun o n => (List.range n).all fun i => f (o + i) == 0
  if !zero 0x16 2 then some ⟨0x40, 0xFF, 0, some 0x16⟩
  else if !zero 0x1C 32 then some ⟨0x40, 0xFF, 0, some 0x1C⟩
  else match (List.range c.sections.length).find? fun i => !zero (0x42 + 16 * i) 2 with
    | some i => some ⟨0x40, i, 0, some (0x42 + 16 * i)⟩
    | none => firstFail (rangeIssues c) 0 c.sections

end Sys2Proof.Machine
end

