-- ==== Sys2Proof/Machine/Cross.lean ====
section
/-! DEFINITION. COMMIT stage 7, the rules across sections, and stage 8, the scope (R98, Table 3-14). The functions of this file read a
state that already holds the Chart under test. -/
namespace Sys2Proof.Machine

namespace State

/-- On a follower (R496), as the LEAD strap says. -/
def strapFollower (s : State) : Bool := !s.flag Reg.SYS_STRAP Fl.SYS_STRAP_LEAD

/-! ## Step descriptors (R373, R380, R397, R398) -/

/-- Every failure of a step is PROGRAM with the step's index. -/
def stepBad (k : Nat) (bad : Bool) (o : Nat) : List Issue := ck bad (8 + 64 * k + o) 0x46 k

/-- Bands that the other steps of a program write. -/
def writersOf (s : State) (n b : Nat) : List Nat :=
  (List.range (s.stepCount n)).filter fun k =>
    let d := s.stepBytes n k
    if u8 d 0 ≤ 2 then u8 d 3 == b && !(u8 d 0x10).testBit 6 else u8 d 2 == b

def inBounds (lo hi v : Nat) : Bool := decide (lo ≤ v) && decide (v ≤ hi)

/-- The region of the WEIGHTS-REF of a function's program: its length. -/
def weightsLength (s : State) (n : Nat) : Option Nat :=
  match s.fnProgram n with
  | some p => if u8 (s.sec 0x11 p) 0 = 0xFF then none else some (u32 (s.sec 0x12 (u8 (s.sec 0x11 p) 0)) 4)
  | none => none

/-- Bytes of a weight record (R377). -/
def weightBytes (mce packed : Bool) (kh kw cin cout : Nat) : Nat :=
  if mce then 2048 * ceilDiv cout 64 * ceilDiv cin 32 * kh * kw
  else 16 * ceilDiv cout 16 * kh * kw * (if packed then cin else 16 * ceilDiv cin 16)

/-- R380 for layer step `k`, of which `g` is the shape and `next` the descriptor after it. -/
def layerIssues (s : State) (n k : Nat) (d next : List Nat) (g : Geo) (found signedIn : Bool) : List Issue :=
  let bad := stepBad k
  let mce := u8 d 0 == 1
  let form := u8 d 1
  let packed := !mce && form == 0
  let kh := u8 d 4
  let kw := u8 d 5
  let st := u8 d 6
  let cin := u16 d 8
  let cout := u16 d 0xA
  let pad := fun i => u8 d (0xC + i)
  let fl := u8 d 0x10
  let fuse := fl.testBit 6
  let wp := g.wIn + pad 2 + pad 3
  let wb := weightBytes mce packed kh kw cin cout
  let need := if mce then (kh + st) * ceilDiv cin 32 * 32 * wp
    else (kh + st) * wp * (if packed then cin else 16 * ceilDiv cin 16) + wb
  let own := (s.writersOf n (u8 d 3)).any (· != k)
  let len := (s.weightsLength n).getD 0
  let record := fun o bytes => u32 d o % 64 != 0 || decide (len < u32 d o + bytes)
  let engine := if mce then 19 else 20
  bad (!(s.fnRoute n 5 engine || s.fnRoute n 6 engine)) 0 ++
  bad (!fuse && !(s.fnRoute n (if mce then 7 else 8) 16 || s.fnRoute n (if mce then 7 else 8) 17)) 0 ++
  bad (if mce then form != 0 else decide (1 < form)) 1 ++
  bad (!found || g.bIn != (if mce then 32 else if packed then 0 else 16)) 2 ++
  bad (if fuse then u8 d 3 != 0xFF else decide (0x3F < u8 d 3) || own) 3 ++
  bad (!inBounds (if packed then 3 else 1) 7 kh || decide ((if mce then 1572864 else 131072) < need)) 4 ++
  bad (!inBounds (if packed then 3 else 1) 7 kw || decide (wp < kw)) 5 ++
  bad (!inBounds 1 2 st) 6 ++
  bad (if fuse then u8 d 7 != 0 else !inBounds 1 2 (u8 d 7)) 7 ++
  bad (!inBounds 1 (if mce then 1024 else if packed then 4 else 256) cin || cin != g.cIn) 8 ++
  bad (!inBounds 1 (if mce then 1024 else if packed then 32 else 16) cout) 0xA ++
  bad (decide (6 < pad 0) || decide (kh ≤ pad 0 + pad 1)) 0xC ++ bad (decide (6 < pad 1)) 0xD ++
  bad (decide (6 < pad 2) || decide (kw ≤ pad 2 + pad 3) || decide ((if mce then 4096 else 16396) < wp)) 0xE ++
  bad (decide (6 < pad 3)) 0xF ++
  bad (fl.testBit 0 != signedIn || (fuse && (mce || form != 1 || !(u8 next 0 == 5 || u8 next 0 == 6) || u8 next 1 != 0xFE))) 0x10 ++
  bad ((s.weightsLength n).isNone || record 0x14 wb) 0x14 ++
  bad (record 0x18 (4 * cout)) 0x18 ++ bad (record 0x1C (4 * cout)) 0x1C

/-- R398 for step `k` of kinds 3 to 6; `prev` is the descriptor before it. -/
def pstIssues (s : State) (n k : Nat) (d prev : List Nat) (g : Geo) (found signedIn : Bool) : List Issue :=
  let bad := stepBad k
  let kind := u8 d 0
  let fused := u8 d 1 == 0xFE
  let ob := u8 d 2
  let fl := u8 d 3
  let out := ob != 0xFF
  let lay := u8 d 6
  let outputs := out || fl.testBit 2 || fl.testBit 3
  let a := u8 d 7
  let sameVerdict := fun (j : Nat) =>
    let e := s.stepBytes n j
    decide (4 ≤ u8 e 0) && (u8 e 3).testBit 3 && ((u8 e 0 == 6) == (kind == 6))
  let source := if fused then decide (5 ≤ kind) && decide (0 < k) && u8 prev 0 == 2 && (u8 prev 0x10).testBit 6
    else found && decide (u8 d 1 ≤ 0x3F) && (g.bIn == 16 || g.bIn == 32)
  bad (if fused then !s.fnRoute n 8 21 else !(s.fnRoute n 5 21 || s.fnRoute n 6 21)) 0 ++
  bad (out && !(s.fnRoute n 9 16 || s.fnRoute n 9 17)) 0 ++
  bad (fl.testBit 2 && !s.fnRoute n 9 24) 0 ++ bad (fl.testBit 3 && !s.fnRoute n 9 22) 0 ++
  bad (!source || decide (65536 < rowPitch g.wIn g.cIn g.bIn)) 1 ++
  bad ((out && (decide (0x3F < ob) || (s.writersOf n ob).any (· != k))) || (kind == 3 && !out) || (kind == 6 && out)) 2 ++
  bad (fl.testBit 0 != signedIn || (kind == 3 && (fl.testBit 1 != fl.testBit 0 || fl.testBit 2 || fl.testBit 3)) ||
    (kind != 3 && !outputs) || (kind == 6 && !(fl.testBit 2 || fl.testBit 3)) ||
    (fl.testBit 3 && kind != 3 && (List.range k).any sameVerdict)) 3 ++
  bad (!inBounds 1 1024 (u16 d 4) || u16 d 4 != g.cIn || (decide (5 ≤ kind) && decide (256 < u16 d 4))) 4 ++
  bad (decide (3 < lay) || (kind == 3 && layoutBlock lay != g.bIn) || (kind == 3 && lay == 0) ||
    (kind == 4 && (if out then !inBounds 1 2 lay else lay != 0)) || (kind == 5 && (if out then lay != 3 else lay != 0))) 6 ++
  bad (if kind = 3 then a != 2 && a != 4 || decide (16384 < a * g.wIn)
    else if kind = 4 then a != 0 else if kind = 5 then decide (1 < a) else !inBounds 1 64 a) 7 ++
  bad (if kind = 3 then decide (1 < u8 d 8) else u8 d 8 != 0) 8 ++
  bad (if kind = 6 then decide (minScore d < -128) || decide (255 < minScore d) else u16 d 0xA != 0) 0xA

/-- Every step of the program of function `n`. -/
def stepIssues (s : State) (n : Nat) : List Issue :=
  let g := s.geos n fun _ => none
  (List.range (s.stepCount n)).flatMap fun k =>
    let d := s.stepBytes n k
    let before := g.take k
    let src := if u8 d 0 ≤ 2 then u8 d 2 else u8 d 1
    let dec := decide (0x80 ≤ src) && (s.fnPorts n).contains (src - 0x80)
    let band := decide (src ≤ 0x3F) && before.any fun x => x.outBand == some src
    let sgn := if dec then false
      else if src = 0xFE then (before.getLastD Geo.none).outSigned
      else match before.find? fun x => x.outBand == some src with | some x => x.outSigned | none => false
    let x := geoAt g k
    let kind := u8 d 0
    if kind = 1 ∨ kind = 2 then s.layerIssues n k d (s.stepBytes n (k + 1)) x (dec || band) sgn
    else if 3 ≤ kind ∧ kind ≤ 6 then s.pstIssues n k d (s.stepBytes n (k - 1)) x band sgn
    else stepBad k true 0

/-! ## The other sections -/

/-- R78, R329. -/
def portCross (s : State) (p : Nat) (d : List Nat) : List Issue :=
  let rate := u32 d 4
  let overhead := 160 + 8 * (u16 d 2 % 2)
  let payload := if u8 d 0 = 0 then 50000000000 else 75000000000
  let fns := s.chartFns.filter fun n => (s.fnPorts n).contains p
  ck (decide (payload * 1152 < u8 d 1 * rate * (8 * u16 d 2 + overhead) * 1153)) 4 0x44 p ++
  ck (fns.any fun n => s.fnLineTimer n && decide (rate * u32 (s.fnSec n) 0x10 < 500000000)) 4 0x44 p ++
  ck (fns.any fun n => !s.fnLineTimer n && decide (rate * u16 d 0xA < u32 (s.fnSec n) 0x14 * u16 d 8)) 8 0x44 p

/-- R77. -/
def clockCross (s : State) (d : List Nat) : List Issue :=
  let refsel := s.get Reg.SYS_STRAP Fl.SYS_STRAP_REFSEL
  let lead := s.get Reg.SYS_STRAP Fl.SYS_STRAP_LEAD
  ck (u8 d 0 ≤ 1 && u8 d 0 != refsel) 0 0x43 ++ ck (u8 d 1 ≤ 1 && u8 d 1 != lead) 1 0x43 ++
  ck ((u8 d 3 == 0) != (lead != 0) || decide (u8 d 2 ≤ u8 d 3)) 3 0x43

/-- The reactions Table 15-1 permits: INT 0, TRAP 1, BLOCK 2, CHIP 3. -/
def permitted (src : Nat) : List Nat :=
  if src = 0 ∨ src = 3 ∨ src = 8 ∨ src = 9 ∨ src = 13 ∨ src = 14 ∨ src = 16 ∨ src = 17 ∨ src = 18 then [0, 1, 3]
  else if src = 1 ∨ src = 4 then [0, 1]
  else if src = 2 then [1, 3]
  else if src = 10 ∨ src = 11 ∨ src = 12 ∨ src = 15 then [0, 1, 2, 3]
  else []

/-- R82, R439. -/
def faultCross (d : List Nat) : List Issue :=
  (List.range 64).flatMap fun i =>
    ck (if fcuAssigned.contains i then !(permitted i).contains (u8 d i % 4) else u8 d i != 0) i 0x47 i

/-- R35: the command guard of a function. -/
def commandGuard (s : State) (n : Nat) : Nat := max 1 (ceilDiv (u32 (s.fnSec n) 0x14) 1000000)

/-- R91, the gate program at `o` (its index `r`), for function `n`. -/
def gateCross (s : State) (n : Nat) (d : List Nat) (o r : Nat) : List Issue :=
  let j := u8 d o
  if j = 0xFF then []
  else
    let own := match s.chart with | some c => c.fnOwnsGls n j | none => false
    let lim := fun i => u8 s.field (0xB0 + 8 * j + i)
    let field := s.hasSec 0x05 0
    ck (!own) o 0x48 r ++
    ck (field && !inBounds (lim 0) (lim 1) (u8 d (o + 1))) (o + 1) 0x48 r ++
    ck (field && decide (lim 2 < u8 d (o + 2))) (o + 2) 0x48 r ++
    ck (decide (u32 d (o + 4) < u32 d 0 + s.commandGuard n)) (o + 4) 0x57 r ++
    ck (field && decide (1000 * u16 s.field (0xB4 + 8 * j) < u32 d (o + 8))) (o + 8) 0x48 r

/-- The program of `n` has a VERDICT step of kind 4 or 5, or of kind 6. -/
def hasVerdictStep (s : State) (n : Nat) (topk : Bool) : Bool :=
  (List.range (s.stepCount n)).any fun k =>
    let d := s.stepBytes n k
    decide (4 ≤ u8 d 0) && (u8 d 3).testBit 3 && (u8 d 0 == 6) == topk

/-- R91, R398, R408. -/
def verdictCross (s : State) (v : Nat) (d : List Nat) : List Issue :=
  let rules := List.range (u8 d 4)
  let at' := fun r => 24 + 32 * r
  (rules.flatMap fun r => ck ((u8 d (at' r + 2)).testBit 0 && u8 d (at' r + 16) != 0xFF) (at' r + 2) 0x48 r) ++
  (s.chartFns.filter fun n => s.fnVerdict n == some v).flatMap fun n =>
    s.gateCross n d 8 0xFFFF ++
    rules.flatMap fun r =>
      let op := u8 d (at' r)
      ck ((inBounds 1 3 op && !s.hasVerdictStep n false) || (op == 4 && !s.hasVerdictStep n true)) (at' r) 0x42 ++
      s.gateCross n d (at' r + 16) r

/-- Stream types of an endpoint (Table 1-2): line 1, activation 2, result 4; 0 for an unassigned ID. -/
def sourceTypes (e : Nat) : Nat :=
  if e ≤ 3 then 1 else if e = 4 ∨ e = 7 then 2 else if e = 5 ∨ e = 6 then 3 else if e = 8 ∨ e = 9 then 6 else 0
def sinkTypes (e : Nat) : Nat :=
  if e = 16 ∨ e = 17 ∨ e = 23 then 3 else if e = 18 then 1 else if e = 19 ∨ e = 20 then 2 else if e = 21 then 6
  else if e = 22 ∨ e = 24 then 4 else 0

/-- R12, R13: the routes of function `n`; `k0` is the index of its first. -/
def routeCross (s : State) (n : Nat) : List Issue :=
  let all := s.routes
  let k0 := (all.filter fun r => decide (r.1 < n)).length
  let mine := all.filter fun r => r.1 == n
  mine.zipIdx.flatMap fun x =>
    let o := 0x40 + 4 * x.2
    let k := k0 + x.2
    let src := x.1.2.1
    let sink := x.1.2.2
    ck (sourceTypes src != 0 && sinkTypes sink != 0 && sourceTypes src &&& sinkTypes sink == 0) o 0x50 k ++
    ck (sourceTypes src == 0) o 0x51 k ++
    ck (4 == ((all.take k).filter fun r => r.2.1 == src).length) o 0x52 src ++
    ck ((mine.take x.2).any fun r => r.2 == x.1.2) o 0x53 k ++ ck (k == 32) o 0x54 ++
    ck (sourceTypes src != 0 && sinkTypes sink == 0) (o + 1) 0x51 k

/-- R19, R85: a mask of function `n` that meets the same mask of a function before it. -/
def ownsTwice (s : State) (n : Nat) (mask : List Nat → Nat) : Bool :=
  s.chartFns.any fun m => decide (m < n) && mask (s.fnSec m) &&& mask (s.fnSec n) != 0

/-- High sides owned with a GLS mask (R85). -/
def ghsMask (g : Nat) : Nat := (List.range 4).foldl (fun v k => if g.testBit (2 * k) || g.testBit (2 * k + 1) then v + 2 ^ k else v) 0

/-- R190, R274, R360, R496, R13, R19, R31. -/
def functionCross (s : State) (n : Nat) (d : List Nat) : List Issue :=
  let fol := s.strapFollower
  let timer := u8 d 2 == 0x10
  let src := u8 d 3
  let idx := u8 d 4
  let z := s.sec 0x06 (idx / 128)
  let listed := (List.range (u8 z 1)).any fun i => u8 z (8 + 16 * i) == idx % 32
  let level := u8 d 0
  ck (!fol && !timer && s.hasSec 0x05 0 && u8 s.field (0x48 + 8 * u8 d 2) == 0) 2 0x42 ++
  ck (src == 2 && !timer) 2 0x42 ++ ck (fol && timer) 2 0x42 ++
  ck (src == 1 && u8 z 0 == 0) 3 0x42 ++ ck (src == 1 && u8 z 1 != 0 && !listed) 4 0x42 ++
  ck (fol && src != 0) 3 0x41 ++ ck (fol && idx != 0) 4 0x41 ++ ck (fol && u8 d 5 != 0) 5 0x41 ++
  s.routeCross n ++
  ck (s.ownsTwice n fun x => u8 x 1) 1 0x55 n ++ ck (s.ownsTwice n fun x => ghsMask (u8 x 9)) 9 0x55 n ++
  ck (s.ownsTwice n fun x => u16 x 0xA) 0xA 0x55 n ++ ck (s.ownsTwice n fun x => u8 x 0xC) 0xC 0x55 n ++
  ck (fol && level == 3) 0 0x56 n ++ ck (!fol && level == 2 && !timer) 2 0x56 n ++ ck (!fol && level == 3 && timer) 2 0x56 n ++
  ck (level == 2 && u8 d 9 != 0) 9 0x56 n ++ ck (level == 2 && u16 d 0xA != 0) 0xA 0x56 n

/-- Stage 7 for one section. DEDUCED, log entry 84. -/
def crossIssues (s : State) (x : Section) : List Issue :=
  let d := x.data
  match x.typ with
  | 0x02 => s.clockCross d
  | 0x03 => s.portCross x.inst d
  | 0x05 => (List.range 2).flatMap fun e =>
      let p := u8 d (0x68 + 16 * e)
      ck (decide (p ≤ 3) && u8 d (0x48 + 8 * p) == 0) (0x68 + 16 * e) 0x42
  | 0x07 => faultCross d
  | 0x10 => s.functionCross x.inst d
  | 0x11 => (s.chartFns.filter fun n => s.fnProgram n == some x.inst).flatMap s.stepIssues
  | 0x12 => ck (decide (6291456 < u32 d 0 + u32 d 4)) 4 0x45
  | 0x13 => s.verdictCross x.inst d
  | _ => []

/-! ## Stage 8 (R103) -/

def globalScope (t : Nat) : Bool := [1, 2, 5, 6, 7, 8].contains t

/-- The table entry of a section, for comparison. -/
def entryOf (x : Section) : Nat × Nat × Nat × Nat × Nat := (x.typ, x.inst, x.offset, x.length, x.crc)

/-- The entry of a section differs between two Charts, or is in one of them only. -/
def entryChanged (old new : Chart) (k : Nat × Nat) : Bool := (old.find k.1 k.2).map entryOf != (new.find k.1 k.2).map entryOf

def chartKeys (c : Chart) : List (Nat × Nat) := c.sections.map fun x => (x.typ, x.inst)

/-- Sections that a COMMIT of this scope rebuilds (R102, R104). -/
def rebuilt (old : Option Chart) (new : Chart) (scope : Nat) (k : Nat × Nat) : Bool :=
  scope == 0 || match old with | some o => Chart.functionScope k.1 && entryChanged o new k | none => true

/-- Functions outside SCOPE among the owners of a section under either Chart. -/
def outsideOwners (old new : Chart) (scope : Nat) (k : Nat × Nat) : Bool :=
  (old.owners k.1 k.2 ++ new.owners k.1 k.2).any fun n => !scope.testBit n

def scopeFail (s : State) (new : Chart) (scope : Nat) : Option CheckFail :=
  let fail := fun c => some (⟨5, 0xFF, c, none⟩ : CheckFail)
  if scope = 0 then none
  else match s.chart with
    | none => fail 1
    | some old =>
      let keys := chartKeys old ++ chartKeys new
      let bad := fun c (k : Nat × Nat) => some (⟨5, (new.sections.findIdx? fun x => x.typ == k.1 && x.inst == k.2).getD 0xFF, c, none⟩ : CheckFail)
      if (List.range 8).any fun n => scope.testBit n && !s.fnStopped n then fail 2
      else match keys.find? fun k => globalScope k.1 && entryChanged old new k with
        | some k => bad 3 k
        | none => match keys.find? fun k => Chart.functionScope k.1 && entryChanged old new k && outsideOwners old new scope k with
          | some k => bad 4 k
          | none => none

end State

end Sys2Proof.Machine
end

