-- ==== Sys2Proof/Machine/Commit.lean ====
section
/-! DEFINITION. The Chart store and COMMIT (chapter 3, sections 3 and 4): sessions, acceptance (R97), the check stages (R98), the allocation
of the stripe store (R362, R372) and the build (R37, R102, R104, R161, R214, R271, R447). -/
namespace Sys2Proof.Machine

namespace State

/-! ## The Chart store -/

def chtByte (s : State) (a : Nat) : Nat := (s.cht.read chtId a).toNat

def wordAt (m : Memory) (id a : Nat) : Word :=
  BitVec.ofNat 32 ((List.range 4).foldl (fun n i => n + (m.read id (a + i)).toNat * 2 ^ (8 * i)) 0)

def setCht (s : State) (a : Nat) (l : List Byte) : State := { s with cht := s.cht.writeList a l }

def sessionOpen (s : State) : Bool := s.flag Reg.CHT_STATUS Fl.CHT_STATUS_OPEN
def ownerCode : Path → Nat
  | .pcie => 1
  | .spi => 2
def sessionOwner (s : State) : Nat := s.get Reg.CHT_STATUS Fl.CHT_STATUS_OWNER

/-- A session of this path is open (R94). -/
def sessionOf (s : State) (p : Path) : Bool := s.sessionOpen && s.sessionOwner == ownerCode p
/-- The other path holds a session. -/
def sessionOther (s : State) (p : Path) : Bool := s.sessionOpen && s.sessionOwner != ownerCode p
def sessionEnd (s : State) : State := (s.put Reg.CHT_STATUS Fl.CHT_STATUS_OPEN 0).put Reg.CHT_STATUS Fl.CHT_STATUS_OWNER 0

/-- R94: OPEN; nothing while the other path holds a session. -/
def chtOpen (s : State) (p : Path) : State :=
  if s.sessionOpen then s
  else (s.put Reg.CHT_STATUS Fl.CHT_STATUS_OPEN 1).put Reg.CHT_STATUS Fl.CHT_STATUS_OWNER (ownerCode p)

/-- R94: CLOSE ends the session of the path that writes it (DEDUCED, log entry 20). -/
def chtClose (s : State) (p : Path) : State := if s.sessionOf p then s.sessionEnd else s

/-- R95: a section of the committed Chart that holds byte `a` is protected. -/
def extentProtected (s : State) (a : Nat) : Bool :=
  match s.chart with
  | none => false
  | some c => c.sections.any fun x => decide (x.offset ≤ a ∧ a < x.offset + x.length) &&
      (if Chart.functionScope x.typ then (c.owners x.typ x.inst).any fun n => !s.fnStopped n else !s.allStopped)

/-- R95: a write of these bytes by path `p` has no effect. -/
def storeRefuses (s : State) (p : Path) (bytes : List Nat) : Bool := !s.sessionOf p || s.commitBusy || bytes.any s.extentProtected

/-! ## Results -/

/-- What a COMMIT reports when it fails or is refused; without a failing field the offset is a free value (DESIGN CHOICE, log entry 21). -/
def commitFails (s : State) (f : CheckFail) (us : Nat) : State :=
  let o := match f.off with
    | some o => (s, o)
    | none => s.free 21
  let s := o.1
  let s := s.setReg Reg.CHT_RESULT (BitVec.ofNat 32 (f.code + 2 ^ 8 * f.sec + 2 ^ 16 * f.detail))
  let s := s.put Reg.CHT_ERR_OFFSET Fl.CHT_ERR_OFFSET_OFFSET o.2
  let s := s.put Reg.CHT_EVENT Fl.CHT_EVENT_FAILED 1
  s.put Reg.CHT_COMMIT_TIME Fl.CHT_COMMIT_TIME_TIME_US us

/-- The functions not STOPPED, as a mask. -/
def runningMask (s : State) : Nat := (List.range 8).foldl (fun m n => if s.fnStopped n then m else m + 2 ^ n) 0

/-- R97, in the order of Table 3-14, and R471: the refusal of a COMMIT, as code and DETAIL. -/
def commitRefused (s : State) (other : Bool) (scope : Nat) : Option (Nat × Nat) :=
  if s.commitBusy || other then some (1, 0)
  else if s.parked then some (2, s.pwState)
  else if s.trap then some (3, 0)
  else if scope = 0 ∧ !s.allStopped then some (4, s.runningMask)
  else if s.sliceFenced 16 then some (6, 0)
  else none

/-- COMMIT written by path `p`. -/
def chtCommit (s : State) (p : Path) (scope : Nat) : State :=
  match s.commitRefused (s.sessionOther p) scope with
  | some (c, d) => s.commitFails ⟨c, 0xFF, d, none⟩ 0
  | none => { s.sessionEnd.put Reg.CHT_STATUS Fl.CHT_STATUS_BUSY 1 with commit := some ⟨scope, s.clk.ts, false, []⟩ }

/-! ## Allocation of the stripe store (R362, R372) -/

/-- The steps of function `n` that write activation band `b`. -/
def activationGeo (s : State) (n b : Nat) : Option Geo := (s.geos n fun _ => none).find? fun g => g.outBand == some b

def align4k (n : Nat) : Nat := 4096 * ceilDiv n 4096

/-- The bands a Chart asks for, in the order of R362 and R372: function, kind, index, bytes, pitch. -/
def bandWants (s : State) : List (Nat × Nat × Nat × Nat × Nat) :=
  (s.chartFns.flatMap fun n => (s.fnPorts n).flatMap fun p =>
    let l := s.stripeLines n
    let rp := 64 * ceilDiv (s.portPixels p) 64
    let rd := 64 * ceilDiv (s.decWidth p * s.decCb p) 64
    [(n, 0, p, align4k (3 * l * s.portChannels p * rp), rp), (n, 1, p, align4k (3 * l * rd), rd)]) ++
  (s.chartFns.flatMap fun n => (List.range 64).filterMap fun b =>
    (s.activationGeo n b).map fun g =>
      let ra := rowPitch g.wOut g.cOut g.bOut
      (n, 2, b, align4k (3 * s.stripeLines n * ra), ra))

def storeBytes : Nat := 16777216

/-- The lowest address at which `size` bytes fit beside the bands placed so far. -/
def placeAt (placed : List Band) (size : Nat) : Option Nat :=
  let fits := fun a => decide (a + size ≤ storeBytes) && placed.all fun b => decide (a + size ≤ b.base) || decide (b.base + b.size ≤ a)
  ((0 :: placed.map fun b => b.base + b.size).mergeSort (· ≤ ·)).find? fits

/-- Bands are placed one after another; `placed` holds the bands of the functions that keep theirs. The function of the first that does not
fit is the answer otherwise. -/
def placeBands (keep : Nat → Nat → Nat → Option Band) : List Band → List (Nat × Nat × Nat × Nat × Nat) → List Band × Option Nat
  | _, [] => ([], none)
  | placed, (n, kind, idx, size, pitch) :: r =>
    match keep n kind idx with
    | some b => let x := placeBands keep placed r; (b :: x.1, x.2)
    | none =>
      if 128 ≤ placed.length then ([], some n)
      else match placeAt placed size with
        | none => ([], some n)
        | some a =>
          let b : Band := ⟨n, kind, idx, a, size, pitch, 0, []⟩
          let x := placeBands keep (b :: placed) r
          (b :: x.1, x.2)

/-- A function whose structure this COMMIT leaves alone. -/
def keepsFn (scope n : Nat) : Bool := scope != 0 && !scope.testBit n

/-- The bands of the Chart in `s` under a COMMIT of this scope. DEDUCED, log entry 85. -/
def allocateBands (s : State) (scope : Nat) : List Band × Option Nat :=
  let kept := s.bands.filter fun b => keepsFn scope b.fn
  placeBands (fun n k i => if keepsFn scope n then s.band? n k i else none) kept s.bandWants

/-! ## Stages 2 to 8 -/

/-- The section that configures a block that was reset while it was being built (R101). -/
def brokenSection (c : Chart) (src : Nat) (built : Nat × Nat → Bool) : Option Nat :=
  c.sections.findIdx? fun x => built (x.typ, x.inst) &&
    (if src = 15 then x.typ == 0x10 && !(c.fnRoutes x.inst).isEmpty
     else x.typ == 0x11 && (List.range (u16 x.data 2)).any fun k =>
       let d := u8 x.data (8 + 64 * k)
       (if d = 1 then 10 else if d = 2 then 11 else 12) == src)

/-- The candidate Chart of the store. -/
def storeChart (s : State) : Chart :=
  let f := s.chtByte
  let l := (List.range (min (img16 f 0x14) 72)).map (entryAt f)
  ⟨img32 f 0x10, img32 f 0x18, l.any (·.typ == 0x7F), l⟩

/-- The section that holds a store address, as CHT_RESULT.SECTION names it. -/
def sectionOf (c : Chart) (a : Nat) : Nat := (c.sections.findIdx? fun x => decide (x.offset ≤ a ∧ a < x.offset + x.length)).getD 0xFF

/-- Stage `n` of Table 3-14. -/
def stageFail (s : State) (c : Chart) (run : CommitRun) (n : Nat) : Option CheckFail :=
  let f := s.chtByte
  let t := { s with chart := some c }
  match n with
  | 2 => headerFail f (s.reg Reg.SYS_ID).toNat
  | 3 =>
    let k := img16 f 0x14
    if k < 3 ∨ 72 < k then some ⟨0x20, 0xFF, 0, some 0x14⟩
    else match tableFail c.length 0 (0x40 + 16 * k) [] c.sections with
      | some e => some e
      | none => missingFail c
  | 4 => crcFail 0 c.sections
  | 5 => signatureFail f c.sections Config.keyHash Config.enforce
  | 6 => rangeFail f c
  | 7 => firstFail t.crossIssues 0 c.sections
  | 8 => match s.scopeFail c run.scope with
    | some e => some e
    | none =>
      match (t.allocateBands run.scope).2 with
      | some n => some ⟨0x41, (c.sections.findIdx? fun x => x.typ == 0x10 && x.inst == n).getD 0xFF, 0, none⟩
      | none => (run.broken.filterMap fun b => brokenSection c b (rebuilt s.chart c run.scope)).head?.map fun k => ⟨0x41, k, 0, none⟩
  | _ => none

/-- The stages in order. An uncorrectable error met in a stage, at a store address, fails the COMMIT there (R98). -/
def stages (s : State) (c : Chart) (run : CommitRun) (ecc : Option (Nat × Nat)) : List Nat → Option CheckFail
  | [] => none
  | n :: r =>
    match ecc with
    | some (k, a) =>
      if k = n then some ⟨6, if 4 ≤ n then sectionOf c a else 0xFF, 0, some a⟩
      else match s.stageFail c run n with | some e => some e | none => s.stages c run ecc r
    | none => match s.stageFail c run n with | some e => some e | none => s.stages c run ecc r

/-- DEDUCED, log entry 82. -/
def commitFail (s : State) (c : Chart) (run : CommitRun) (ecc : Option (Nat × Nat)) : Option CheckFail :=
  s.stages c run ecc [2, 3, 4, 5, 6, 7, 8]

/-! ## The build -/

/-- A Jens field tuned by registers: the shadow takes the value, and Jens while Horizon is UP (R180). -/
def tuneJens (s : State) (a : Nat) (l : List (Fld × Nat)) : State :=
  let s := s.setShadow a (l.foldl (fun w x => putF w x.1 x.2) (s.shadowReg a))
  if s.hzUp then (s.jensWrite a (l.foldl (fun w x => putF w x.1 x.2) (s.jreg a))).1 else s

/-- One ring record (Table 3-9). -/
def buildRing (s : State) (d : List Nat) (o : Nat) : State :=
  let r := u8 d o
  let s := s.setReg (Reg.DLV_FILTER r) ([(Fl.DLV_FILTER_SIDE_MASK, u8 d (o + 1)), (Fl.DLV_FILTER_PORT_MASK, u8 d (o + 2)),
    (Fl.DLV_FILTER_CHANNEL_MASK, u8 d (o + 3)), (Fl.DLV_FILTER_OBJECTS, u8 d (o + 4))].foldl (fun w x => putF w x.1 x.2) (s.reg (Reg.DLV_FILTER r)))
  let s := s.setPair (Reg.DLV_VMASK_LO r) (Reg.DLV_VMASK_HI r) (u64 d (o + 8))
  let s := (s.put (Reg.DLV_CROP_X r) Fl.DLV_CROP_X_X0 (u16 d (o + 0x10))).put (Reg.DLV_CROP_X r) Fl.DLV_CROP_X_WIDTH (u16 d (o + 0x12))
  let s := (s.put (Reg.DLV_CROP_Y r) Fl.DLV_CROP_Y_Y0 (u16 d (o + 0x14))).put (Reg.DLV_CROP_Y r) Fl.DLV_CROP_Y_HEIGHT (u16 d (o + 0x16))
  let s := if u32 d (o + 0x18) = 0 then s else s.put (Reg.DLV_WIN_SIZE r) Fl.DLV_WIN_SIZE_KIB (u32 d (o + 0x18))
  (List.range 8).foldl (fun s i => s.setReg (Reg.DLV_CLASS r i) (BitVec.ofNat 32 (u32 d (o + 0x20 + 4 * i)))) s

/-- R37: the initial values one rebuilt section supplies. -/
def initialValues (s : State) (x : Section) : State :=
  let d := x.data
  match x.typ with
  | 0x01 =>
    let s := if u32 d 4 = 0 then s else s.put Reg.WDT_TIMEOUT Fl.WDT_TIMEOUT_MS (u32 d 4)
    let s := if u16 d 8 = 0 then s else s.put Reg.BIST_CAP Fl.BIST_CAP_CAP (clampNat 500 1600 (u16 d 8))
    if u16 d 0xA = 0 then s else s.put Reg.BIST_BUDGET Fl.BIST_BUDGET_US (u16 d 0xA)
  | 0x02 => if u16 d 4 = 0x8000 then s else s.setReg Reg.CAS_TRIM (BitVec.ofInt 32 (s16 d 4))
  | 0x04 => (List.range 3).foldl (fun s r =>
      if u8 d (4 * r + 2) = 0 then s else s.put (Reg.LN_EFM_LOW (4 * x.inst + r)) Fl.LN_EFM_LOW_THRESHOLD (u8 d (4 * r + 2))) s
  | 0x05 =>
    let s := (List.range 2).foldl (fun s e =>
      let o := 0x68 + 16 * e
      let s := s.tuneJens (Reg.EMU_RATIO e) [(Fl.EMU_RATIO_N, u16 d (o + 2)), (Fl.EMU_RATIO_M, u16 d (o + 4))]
      let s := s.tuneJens (Reg.EMU_SLEW e) [(Fl.EMU_SLEW_SLEW, u32 d (o + 8))]
      s.tuneJens (Reg.EMU_LAG_LIMIT e) [(Fl.EMU_LAG_LIMIT_LIMIT, u32 d (o + 12))]) s
    if u8 d 0xF0 = 0 then s
    else s.tuneJens Reg.FSP_CFG [(Fl.FSP_CFG_SPI_MODE, u8 d 0xF1), (Fl.FSP_CFG_CLK_KHZ, u16 d 0xF2)]
  | 0x08 => (List.range (u16 d 0)).foldl (fun s i => s.buildRing d (16 + 64 * i)) s
  | _ => s

/-- R22, R102, R104: a function of the scope enters STOPPED or is UNDEFINED, with the records of the last Chart cleared. -/
def buildFn (s : State) (n : Nat) : State :=
  let v := if s.chartFns.contains n then 0 else 7
  let s := if s.fnState n = v then s else s.setFnState n v
  let s := (s.setCause n 0).put (Reg.SYS_FN_STATE n) Fl.SYS_FN_STATE_REQ_LEVEL (if v = 0 then s.fnReqLevel n else 0)
  (s.setReg (Reg.SYS_FN_CLOSED n) 0).setReg (Reg.SYS_FN_LATE n) 0

/-- R88, R102, R104: the record of a WEIGHTS-REF. -/
def buildWref (s : State) (i : Nat) : State :=
  s.setReg (Reg.CHT_WREF i) (if s.hasSec 0x12 i then 1 else 0)

/-- R439, R447: every reaction comes from FAULT. -/
def buildReactions (s : State) : State :=
  fcuAssigned.foldl (fun s i =>
    let b := u8 (s.sec 0x07 0) i
    (s.put (Reg.FCU_REACT i) Fl.FCU_REACT_REACTION (b % 4)).put (Reg.FCU_REACT i) Fl.FCU_REACT_ERR (b / 4 % 2)) s

/-- R271: the ZHOMBE section of a line has changed. A line in fail-safe stays halted; a line that is not enabled is OFF (DEDUCED, log entry 22). -/
def rebuildLine (s : State) (l : Fin 2) : State :=
  let s := s.loadZhombe l
  if s.zlState l = 5 then s else ((s.zlAbandon l).setZlState l 0).zlStart l

/-- What the build writes to Jens while Horizon is UP (R161, R214, R271). -/
def buildJens (s : State) (changed : Nat × Nat → Bool) : State :=
  if !s.hzUp then s
  else
    let cfg := Vector.ofFn fun c : Fin 4 => s.jreg (Reg.PFI_CFG c)
    let s := if changed (5, 0) then s.loadField cfg else s
    let s := if (List.range 16).any fun v => changed (0x13, v) then s.loadGates else s
    let s := if changed (6, 0) then s.rebuildLine 0 else s
    if changed (6, 1) then s.rebuildLine 1 else s

/-- R490: link-up starts after a COMMIT with CHAIN_LENGTH above 1; the place in the chain is that of CLOCK. -/
def buildCascade (s : State) : State :=
  if 1 < s.chainLength then
    ((s.put Reg.CAS_STATUS Fl.CAS_STATUS_POSITION s.chainPos).put Reg.CAS_STATUS Fl.CAS_STATUS_LENGTH (s.chainLength - 1)).casStart
  else ((s.casOff).put Reg.CAS_STATUS Fl.CAS_STATUS_POSITION 0).put Reg.CAS_STATUS Fl.CAS_STATUS_LENGTH 0

/-- The build after stage 8. DEDUCED, log entry 86. DEDUCED, log entry 119. -/
def commitBuild (s : State) (c : Chart) (scope : Nat) : State :=
  let old := s.chart
  let isBuilt := rebuilt old c scope
  let changed := fun k => match old with | some o => entryChanged o c k | none => c.has k.1 k.2
  let s := { s with chart := some c }
  let s := { s with bands := (s.allocateBands scope).1 }
  let inScope := (List.range 8).filter fun n => scope == 0 || scope.testBit n
  let s := inScope.foldl buildFn s
  let s := (c.sections.filter fun x => isBuilt (x.typ, x.inst)).foldl initialValues s
  let s := ((List.range 16).filter fun i => isBuilt (0x12, i)).foldl buildWref s
  let s := ((List.range 16).filter fun v => isBuilt (0x13, v)).foldl (fun s v => (List.range 64).foldl (fun s p => s.setReg (Reg.VRD_HIT v p) 0) s) s
  let s := s.buildJens changed
  let s := if scope = 0 then s.buildReactions else s
  let s := (s.put Reg.CHT_STATUS Fl.CHT_STATUS_COMMITTED 1).putFlag Reg.CHT_STATUS Fl.CHT_STATUS_SIGNED c.signed
  let s := (s.putFlag Reg.CHT_STATUS Fl.CHT_STATUS_SCOPED (scope != 0)).buildCascade
  s.put Reg.SYS_SVC Fl.SYS_SVC_CHART_OK 1

def microseconds (d : Nat) : Nat := min (d / 500) 0xFFFFFF

/-- The outcome of the COMMIT in progress; the held PWR_CMD is left to the caller (R101). -/
def commitEnd (s : State) (run : CommitRun) (ecc : Option (Nat × Nat)) : State :=
  let us := microseconds (s.clk.ts - run.start)
  let s := { s.put Reg.CHT_STATUS Fl.CHT_STATUS_BUSY 0 with commit := none }
  let c := s.storeChart
  match s.commitFail c run ecc with
  | some f =>
    let s := s.commitFails f us
    if f.code = 6 then s.raise 14 else s
  | none =>
    let s := (s.commitBuild c run.scope).put Reg.CHT_COMMIT_TIME Fl.CHT_COMMIT_TIME_TIME_US us
    (s.setReg Reg.CHT_RESULT 0xFF00).put Reg.CHT_EVENT Fl.CHT_EVENT_DONE 1

end State

end Sys2Proof.Machine
end

