-- ==== Sys2Proof/Machine/Bist.lean ====
section
/-! DEFINITION. Self-test (chapter 16): slices, the queues of a full test and their power stagger, fencing, the record and its way to boot
flash (R138 to R140), and retest. -/
namespace Sys2Proof.Machine

/-! ## Slices (Table 16-1) -/

/-- Memory slices, the spare bay (45) among them. -/
def memorySlice (k : Nat) : Bool := decide (k ≤ 16) || k == 45

/-- Segments of a memory slice, and 64-bit words of each (R463). -/
def sliceSegments (k : Nat) : Nat := if k ≤ 10 ∨ k = 16 then 8 else if k = 11 ∨ k = 12 then 3 else 1
def segmentWords (k : Nat) : Nat := if k = 13 then 16384 else 32768

/-- R464, R466: SCLK cycles from one slice boundary to the next; phases 1 and 3 are omitted for the bay. -/
def boundaryCycles (k : Nat) : Nat :=
  if memorySlice k then 64 + 22 * segmentWords k / 8 + (if k = 45 then 0 else 2 * segmentWords k / 16) else 5000

/-- Full-test time of a logic slice in µs. -/
def logicUs (k : Nat) : Nat :=
  if k ≤ 32 then 600 else if k = 33 then 400 else if k ≤ 37 then 300 else if k = 38 then 200 else if k ≤ 40 then 300
  else if k = 41 then 150 else if k ≤ 43 then 500 else if k = 44 then 400 else if k = 46 then 300 else 500

def fullCycles (k : Nat) : Nat := if memorySlice k then sliceSegments k * boundaryCycles k else 500 * logicUs k

/-- Test power of a logic slice, units of 10 mW. -/
def testPower (k : Nat) : Nat :=
  if k ≤ 32 then 90 else if k = 33 then 60 else if k ≤ 37 then 50 else if k = 38 then 30 else if k ≤ 40 then 40
  else if k = 41 then 20 else if k ≤ 43 then 80 else if k = 44 then 60 else if k = 46 then 40 else 70

/-- Memory, first byte and bytes that a memory slice other than the bay covers. -/
def sliceRange (k : Nat) : Option (Nat × Nat × Nat) :=
  if k < 8 then some (stsId, 2097152 * k, 2097152)
  else if k < 11 then some (wsId, 2097152 * (k - 8), 2097152)
  else if k < 13 then some (mceLbId, 786432 * (k - 11), 786432)
  else if k = 13 then some (eleLbId, 0, 131072)
  else if k < 16 then some (tdrId, 262144 * (k - 14), 262144)
  else if k = 16 then some (chtId, 0, 2097152)
  else none

/-- Cycle of the first slice boundary of a run at or after cycle `x`. -/
def nextBoundary (r : SliceRun) (x : Nat) : Nat :=
  r.start + min (fullCycles r.slice) (boundaryCycles r.slice * max 1 (ceilDiv (x - r.start) (boundaryCycles r.slice)))

/-- Segment in which a run that stops at `x` stops. -/
def stopSegment (r : SliceRun) (x : Nat) : Nat := if memorySlice r.slice then (x - r.start) / boundaryCycles r.slice - 1 else 0

/-- Queue order of R467: `first` before the others, each in ascending number. -/
def queueOrder (first : Nat → Bool) (l : List Nat) : List Nat := l.filter first ++ l.filter fun k => !first k

/-- Little-endian bytes of a number. -/
def natBytes (n v : Nat) : List Nat := (List.range n).map fun i => v / 2 ^ (8 * i) % 256

/-- A record with the CRC over its first 212 bytes (R473). -/
def sealRecord (l : List Nat) : List Nat := l.take 212 ++ natBytes 4 (crc32 (l.take 212))

namespace State

/-! ## On-chip memories by number -/

def getMem (s : State) (id : Nat) : Memory :=
  if id = stsId then s.sts else if id = wsId then s.ws else if id = chtId then s.cht else if id = mceLbId then s.mceLb
  else if id = eleLbId then s.eleLb else s.tdr

def setMem (s : State) (id : Nat) (m : Memory) : State :=
  if id = stsId then { s with sts := m } else if id = wsId then { s with ws := m } else if id = chtId then { s with cht := m }
  else if id = mceLbId then { s with mceLb := m } else if id = eleLbId then { s with eleLb := m } else { s with tdr := m }

/-- Bytes become undefined. -/
def loseBytes (s : State) (id a : Nat) : Nat → State
  | 0 => s
  | n + 1 =>
    let r := s.free 8
    loseBytes (r.1.setMem id ((r.1.getMem id).write a (BitVec.ofNat 8 r.2))) id (a + 1) n

def loseSlice (s : State) (k : Nat) : State :=
  match sliceRange k with
  | some (id, a, n) => s.loseBytes id a n
  | none => s

/-! ## The controller's state -/

def bistPhase (s : State) : Nat := s.get Reg.BIST_STATUS Fl.BIST_STATUS_PHASE
def setPhase (s : State) (p : Nat) : State := (s.put Reg.BIST_STATUS Fl.BIST_STATUS_PHASE p).putFlag Reg.BIST_STATUS Fl.BIST_STATUS_RUNNING (p != 0)
def modBist (s : State) (f : Bist → Bist) : State := { s with bist := f s.bist }
def bistEvent (s : State) (f : Fld) : State := s.put Reg.BIST_EVENT f 1
def runOf (s : State) (k : Nat) : Option SliceRun := s.bist.running.find? (·.slice == k)
def memoryRuns (s : State) : Bool := s.bist.running.any fun r => memorySlice r.slice

/-- R471: the fence map changes. -/
def setFences (s : State) (m : Nat) : State :=
  if s.fenceMap = m then s else (s.setPair Reg.BIST_FENCE_LO Reg.BIST_FENCE_HI m).bistEvent Fl.BIST_EVENT_FENCE_CHG

/-- DEDUCED, log entry 91. -/
def fence (s : State) (k : Nat) : State := if s.fenceMap.testBit k then s else (s.setFences (s.fenceMap ||| 2 ^ k)).bistEvent Fl.BIST_EVENT_FAIL
def unfence (s : State) (k : Nat) : State := if s.fenceMap.testBit k then s.setFences (s.fenceMap - 2 ^ k) else s

/-- R469: the charged total, in units of 10 mW. -/
def bistCharge (s : State) : Nat :=
  300 + (if !s.bist.memQ.isEmpty || s.memoryRuns then 180 else 0) +
    (s.bist.running.foldl (fun n r => if memorySlice r.slice then n else n + testPower r.slice) 0)

/-- R469: the logic head fits under the latched cap. -/
def logicFits (s : State) (k : Nat) : Bool := decide (s.bistCharge + testPower k ≤ s.bist.cap)

/-- PEAK_10MW and LOGIC_WAIT follow. -/
def bistPower (s : State) : State :=
  if s.bistPhase = 1 then
    let s := s.put Reg.BIST_STATUS Fl.BIST_STATUS_PEAK_10MW (max (s.get Reg.BIST_STATUS Fl.BIST_STATUS_PEAK_10MW) s.bistCharge)
    s.putFlag Reg.BIST_STATUS Fl.BIST_STATUS_LOGIC_WAIT (match s.bist.logQ with | k :: _ => !s.logicFits k | [] => false)
  else s

/-! ## The record (R473 to R476) -/

def recordTakes (l : List Nat) (o n : Nat) : Nat := (List.range n).foldl (fun v i => v + u8 l (o + i) * 2 ^ (8 * i)) 0
def retained (s : State) : List Nat := (List.range 54).flatMap fun w => natBytes 4 (s.reg (Reg.BIST_REC w)).toNat
def setRetained (s : State) (l : List Nat) : State := (List.range 54).foldl (fun s w => s.setReg (Reg.BIST_REC w) (BitVec.ofNat 32 (u32 l (4 * w)))) s
def opHours (s : State) : Nat := (s.reg Reg.BIST_OPTIME).toNat / 3600
/-- The operating time boot tests under R68. -/
def testedHours (s : State) (rec' : List Nat) : Nat := min 65535 (recordTakes rec' 0x10 4 + s.opHours)

def unfinished (l : List (Nat × Nat)) : Nat := (List.range 48).foldl (fun m k => if l.any fun x => x.1 == k && (x.2 == 3 || x.2 == 4) then m + 2 ^ k else m) 0
def resultOf (l : List (Nat × Nat)) (k : Nat) : Nat := ((l.find? (·.1 == k)).map (·.2)).getD 0

/-- Table 16-4: OP_TIME and QUICK_STARTS of a new record. Without a record in force both start from 0 (DEDUCED, log entry 24). -/
def newCounts (s : State) (full complete : Bool) : Nat × Nat :=
  if full && !complete then
    match s.bist.inForce with
    | some (r, cleared) => (s.testedHours r, min 255 (recordTakes r 0x14 1 + cleared))
    | none => (min 65535 s.opHours, 0)
  else (0, 0)

/-- Table 16-2. -/
def recordBytes (s : State) (full aborted : Bool) (us : Nat) : List Nat :=
  let b := s.bist
  let unf := unfinished b.results
  let counts := s.newCounts full (unf == 0)
  let bay := resultOf b.results 45 == 2
  let fail := match b.failed with
    | some (k, seg, off) => k + seg * 2 ^ 6 + off * 2 ^ 10 + b.failCount * 2 ^ 32
    | none => 0
  let ofFull := fun n => if full then n else 0
  sealRecord ([0x4C, 0x51, 0x42, 0x52, 1, 0, if full then 1 else 2, ofBool aborted + 2 * ofBool bay + 4 * ofBool (unf == 0)] ++
    natBytes 8 Config.uid.toNat ++ natBytes 4 counts.1 ++ [counts.2, 0, 0, 0] ++ natBytes 8 s.ts64 ++ natBytes 8 s.fenceMap ++
    natBytes 8 unf ++ ((List.range 48).map fun k => resultOf b.results k) ++ natBytes 4 (min us (2 ^ 32 - 1)) ++
    natBytes 2 (ofFull (s.get Reg.BIST_STATUS Fl.BIST_STATUS_PEAK_10MW)) ++ natBytes 2 (ofFull b.cap) ++ natBytes 4 (ofFull b.budget) ++
    natBytes 8 fail ++ List.replicate 96 0)

/-! ### Record slots of the boot flash (R138 to R140) -/

def flashByte (s : State) (a : Nat) : Nat := (s.bsp.flash.read flashId a).toNat
def flashList (s : State) (a n : Nat) : List Nat := (List.range n).map fun i => s.flashByte (a + i)
def slotAddr (area i : Nat) : Nat := area + 256 * i
def slotMark (s : State) (area i : Nat) : Nat := s.flashByte (slotAddr area i + 0x20)
def recordSeq (s : State) (area i : Nat) : Nat := recordTakes (s.flashList (slotAddr area i + 0x24) 4) 0 4
/-- The valid slot with the highest SLOT_SEQ. -/
def newestSlot (s : State) (area : Nat) : Option Nat :=
  ((List.range 32).filter fun i => s.slotMark area i == 0x3C).foldl (fun b i => match b with
    | none => some i
    | some j => if s.recordSeq area j < s.recordSeq area i then some i else b) none
/-- Cleared bits of QUICK_MAP. -/
def quickCleared (s : State) (area i : Nat) : Nat :=
  (s.flashList (slotAddr area i) 32).foldl (fun n b => n + ((List.range 8).filter fun k => !b.testBit k).length) 0

/-- R140: where a new record goes: slot, sequence number, and whether its sector is erased first. Without a valid slot the first sector is
erased (DEDUCED, log entry 24). -/
def recordSlot (s : State) (area : Nat) : Nat × Nat × Bool :=
  match s.newestSlot area with
  | none => (0, 1, true)
  | some i =>
    match ((List.range 16).map (16 * (i / 16) + ·)).find? fun k => s.slotMark area k == 0xFF with
    | some k => (k, s.recordSeq area i + 1, false)
    | none => (16 * (1 - i / 16), s.recordSeq area i + 1, true)

/-- The write of a new record to flash starts; without a record area there is none to write. -/
def recordToFlash (s : State) (bytes : List Nat) : State :=
  match s.bsp.recordArea with
  | none => s
  | some area =>
    let x := s.recordSlot area
    { s with bsp := { s.bsp with record := some (.slot (slotAddr area x.1) x.2.1 x.2.2 bytes) } }

/-- A write to the record area completes. -/
def recordDone (s : State) : State :=
  let s := match s.bsp.record with
    | some (.slot a seq erase bytes) =>
      let s := if erase then s.flashPut (a / 4096 * 4096) (List.replicate 4096 0xFF) else s
      let s := (s.flashPut (a + 0x20) [0x3C]).flashPut (a + 0x24) ((natBytes 4 seq ++ bytes).map (BitVec.ofNat 8))
      let s := s.put Reg.BSP_STATUS Fl.BSP_STATUS_RECORD_FAIL 0
      s.put Reg.BSP_STATUS Fl.BSP_STATUS_RECORD_SLOT ((a - s.bsp.recordArea.getD a) / 256)
    | some (.quick a v) => (s.flashPut a [BitVec.ofNat 8 v]).put Reg.BSP_STATUS Fl.BSP_STATUS_RECORD_FAIL 0
    | none => s
  { s with bsp := { s.bsp with record := none } }

/-- A write that fails its flash timeouts; what it had under way is undefined (R140, R142). -/
def recordFailed (s : State) : State :=
  let s := { s with bsp := { s.bsp with op := none } }.flashAbandon
  { (s.put Reg.BSP_STATUS Fl.BSP_STATUS_RECORD_FAIL 1) with bsp := { s.bsp with record := none } }

/-- R474: a record is written to the retained registers, and then to flash. -/
def writeRecord (s : State) (full aborted : Bool) : State :=
  let us := (s.clk.ts - s.bist.start) / 500
  let bytes := s.recordBytes full aborted us
  let s := (s.setRetained bytes).put Reg.BIST_STATUS Fl.BIST_STATUS_REC_INTACT 1
  let s := (s.setPair Reg.BIST_UNFIN_LO Reg.BIST_UNFIN_HI (unfinished s.bist.results)).setReg Reg.BIST_LAST_US (BitVec.ofNat 32 (min us (2 ^ 32 - 1)))
  let s := { (s.setReg Reg.BIST_OPTIME 0) with clk := { s.clk with opFrac := 0 } }
  let s := (s.modBist fun b => { b with inForce := some (bytes, 0) }).bistEvent Fl.BIST_EVENT_DONE
  s.recordToFlash bytes

/-! ## Tests -/

/-- The result of a slice is recorded. -/
def sliceResult (s : State) (k result us seg : Nat) : State :=
  let s := s.modBist fun b => { b with results := (k, result) :: b.results.filter (·.1 != k) }
  s.setReg (Reg.BIST_RESULT k) ([(Fl.BIST_RESULT_RESULT, result), (Fl.BIST_RESULT_TIME_US, min us 0xFFFF), (Fl.BIST_RESULT_SEGMENT, seg)].foldl
    (fun w x => putF w x.1 x.2) 0)

/-- A result with no run of its own: UNFINISHED before its turn, or SKIPPED. -/
def sliceUnrun (s : State) (result k : Nat) : State := s.sliceResult k result 0 0

/-- The slice fails: it is fenced in this cycle. -/
def sliceFails (s : State) (k seg off : Nat) : State :=
  (s.fence k).modBist fun b => { b with failed := some (b.failed.getD (k, seg, off)), failCount := b.failCount + 1 }

/-- R468: the bay has failed; memory slices that have not yet run are skipped (full test), or go on without it (quick test). -/
def bayFails (s : State) : State :=
  if s.bistPhase = 1 then (s.bist.memQ.foldl (sliceUnrun · 4) s).modBist fun b => { b with memQ := [] } else s

/-- A run ends, now. -/
def runEnds (s : State) (r : SliceRun) (result seg : Nat) : State :=
  let s := s.modBist fun b => { b with running := b.running.filter (·.slice != r.slice) }
  let s := s.sliceResult r.slice result ((s.clk.ts - r.start) / 500) seg
  s.put Reg.BIST_STATUS Fl.BIST_STATUS_DONE (s.get Reg.BIST_STATUS Fl.BIST_STATUS_DONE + 1)

/-- R469: BIST_CAP and BIST_BUDGET are latched. -/
def bistLatch (s : State) : State :=
  let cap := s.get Reg.BIST_CAP Fl.BIST_CAP_CAP
  let budget := s.get Reg.BIST_BUDGET Fl.BIST_BUDGET_US
  (s.modBist fun b => { b with cap := cap, budget := budget, start := s.clk.ts, lastStart := none, failed := none, failCount := 0,
                               aborted := false, results := [] }).putFlag
    Reg.BIST_STATUS Fl.BIST_STATUS_SHORT_BUDGET (decide (500 * budget < fullCycles 0))

/-- Fenced slices are left out of a test: NOT_RUN (R467, R477). DEDUCED, log entry 93. -/
def leftOut (s : State) : State := ((List.range 48).filter fun k => s.fenceMap.testBit k).foldl (sliceUnrun · 0) s

def unfencedOf (s : State) (l : List Nat) : List Nat := l.filter fun k => !s.fenceMap.testBit k

/-- R467: the full test starts. -/
def fullTestStart (s : State) : State :=
  let s := s.bistLatch.leftOut
  let unf := s.pair Reg.BIST_UNFIN_LO Reg.BIST_UNFIN_HI
  let first := fun k => unf.testBit k
  let mem := s.unfencedOf (List.range 17)
  let log := s.unfencedOf ((List.range 28).map (17 + ·) ++ [46, 47])
  let bay := s.fenceMap.testBit 45
  let s := if bay then mem.foldl (sliceUnrun · 4) s else s
  let s := s.modBist fun b => { b with memQ := if bay then [] else 45 :: queueOrder first mem, logQ := queueOrder first log }
  let s := ((s.setPhase 1).put Reg.BIST_STATUS Fl.BIST_STATUS_REC_INTACT 0).put Reg.BIST_STATUS Fl.BIST_STATUS_DONE 0
  (s.put Reg.BIST_STATUS Fl.BIST_STATUS_PEAK_10MW 0).bistPower

/-- R477: the quick test starts: one queue, the bay first. -/
def quickTestStart (s : State) : State :=
  let s := s.bistLatch.leftOut
  let s := s.modBist fun b => { b with memQ := s.unfencedOf (45 :: ((List.range 45) ++ [46, 47])), logQ := [] }
  ((s.setPhase 2).put Reg.BIST_STATUS Fl.BIST_STATUS_REC_INTACT 0).put Reg.BIST_STATUS Fl.BIST_STATUS_DONE 0

/-- The queue a slice starts from, if it may start in this cycle: the memory queue (true) or the logic queue. -/
def mayStart (s : State) (k : Nat) : Option Bool :=
  let memory := match s.bist.memQ with
    | m :: _ => (if s.bistPhase = 1 then !s.memoryRuns else s.bist.running.isEmpty) && m == k
    | [] => false
  let memoryWaits := !s.bist.memQ.isEmpty && !s.memoryRuns
  let logic := match s.bist.logQ with
    | m :: _ => m == k && s.logicFits m && !memoryWaits
    | [] => false
  if s.bistPhase = 2 then (if memory then some true else none)
  else if s.bistPhase ≠ 1 ∨ s.pw.wakeHeld ∨ (s.bist.lastStart.any fun x => s.clk.ts / 500 ≤ x / 500) then none
  else if memory then some true
  else if logic then some false
  else none

/-- R467, R469: a queued slice starts. -/
def sliceStart (s : State) (k : Nat) : State :=
  match s.mayStart k with
  | none => s
  | some mem =>
    (s.modBist fun b => { b with memQ := if mem then b.memQ.drop 1 else b.memQ, logQ := if mem then b.logQ else b.logQ.drop 1,
                                 running := b.running ++ [⟨k, s.clk.ts, none⟩], lastStart := some s.clk.ts }).bistPower

/-- The quick test is over: the memory slices hold nothing (R477). -/
def quickLoses (s : State) : State :=
  let s := { s with sts := s.sts.lose, ws := s.ws.lose, mceLb := s.mceLb.lose, eleLb := s.eleLb.lose }
  if s.fenceMap.testBit 45 then { s with tdr := s.tdr.lose, cht := s.cht.lose } else s

/-- Both queues are empty: step 4 of Table 2-7, or the end of the quick test. A host flash operation finishes first (R141). DEDUCED, log entry 115. -/
def testEnd (s : State) : State :=
  if !(s.bist.memQ.isEmpty && s.bist.logQ.isEmpty && s.bist.running.isEmpty) || s.bsp.op.isSome then s
  else if s.bistPhase = 1 then
    let s := ((s.writeRecord true false).setPhase 0).put Reg.BIST_STATUS Fl.BIST_STATUS_LOGIC_WAIT 0
    { s with pw := { s.pw with parkStep := if s.bsp.record.isSome then 4 else 5 } }
  else if s.bistPhase = 2 then ((s.quickLoses).writeRecord false false).setPhase 0
  else s

/-- How a slice test came out: the first mismatch (segment, word offset), words copied raw at save, and an uncorrectable bay word. -/
def outcomeRun (s : State) (r : SliceRun) (fail : Option (Nat × Nat)) (uncorr : Nat) (bay : Bool) : State :=
  let s := s.bumpBy Reg.BIST_SAVE Fl.BIST_SAVE_UNCORR uncorr
  let s := match fail with
    | some (seg, off) => if memorySlice r.slice then (s.runEnds r 2 seg).sliceFails r.slice seg off else (s.runEnds r 2 0).sliceFails r.slice 0 0
    | none => s.runEnds r 1 0
  let s := if bay && r.slice != 45 && memorySlice r.slice && !s.fenceMap.testBit 45 then (s.sliceResult 45 2 0 0).sliceFails 45 0 0 else s
  if s.fenceMap.testBit 45 && (bay || r.slice == 45) then s.bayFails else s

/-- The cycle in which a full test or a retest of the slice ends, when it takes `unit` cycles a boundary. -/
def endCycle (r : SliceRun) (unit n : Nat) (fail : Option (Nat × Nat)) : Nat :=
  match fail with
  | some (seg, _) => r.start + (if memorySlice r.slice then unit * (min seg (n - 1) + 1) else unit * n)
  | none => r.start + unit * n

/-- R464, R466, R477: a slice test completes. A slice whose budget or whose wake came first stops elsewhere (R470, R57). DEDUCED, log entry 90. -/
def sliceDone (s : State) (k : Nat) (fail : Option (Nat × Nat)) (uncorr : Nat) (bay : Bool) (t : Nat) : State :=
  match s.runOf k with
  | none => s
  | some r =>
    if s.bistPhase = 1 then
      let e := endCycle r (boundaryCycles k) (fullCycles k / boundaryCycles k) fail
      let limit := nextBoundary r (r.start + 500 * s.bist.budget)
      let stop := match r.stop with | some w => nextBoundary r w | none => e
      let beyond := decide (r.start + 500 * s.bist.budget < e)
      if stop < e ∨ limit < e ∨ (beyond && fail.isNone) then s
      else (((s.atTime e).outcomeRun r fail uncorr bay).bistPower).testEnd
    else if s.bistPhase = 2 then ((s.atTime t).outcomeRun r fail uncorr bay).testEnd
    else s

/-- R470: the budget expires, and the slice stops at its next boundary. -/
def budgetExpiry (s : State) (k : Nat) : State :=
  match s.runOf k with
  | none => s
  | some r =>
    let e := nextBoundary r (r.start + 500 * s.bist.budget)
    if s.bistPhase = 1 ∧ 500 * s.bist.budget < fullCycles k then
      let s := s.atTime e
      ((s.runEnds r 3 (stopSegment r e)).bistPower).testEnd
    else s

/-- R477: a slice of the quick test exceeds 34 ms. -/
def quickTimeout (s : State) (k : Nat) : State :=
  match s.runOf k with
  | some r => if s.bistPhase = 2 then let s := s.atTime (r.start + 17000000); (s.runEnds r 3 0).testEnd else s
  | none => s

/-- R57: every slice stopped or not yet started is UNFINISHED. -/
def abortRuns (s : State) : State :=
  let s := s.bist.running.foldl (fun s r =>
    let e := nextBoundary r (r.stop.getD s.clk.ts)
    let s := s.modBist fun b => { b with running := b.running.filter (·.slice != r.slice) }
    (s.sliceResult r.slice 3 ((e - r.start) / 500) (stopSegment r e)).put Reg.BIST_STATUS Fl.BIST_STATUS_DONE
      (s.get Reg.BIST_STATUS Fl.BIST_STATUS_DONE + 1)) s
  let s := (s.bist.memQ ++ s.bist.logQ).foldl (sliceUnrun · 3) s
  s.modBist fun b => { b with memQ := [], logQ := [] }

/-! ## Retest (R478 to R480) -/

/-- A user of the slice is not STOPPED. -/
def sliceUsed (s : State) (k : Nat) : Bool := (List.range 8).any fun n => !s.fnStopped n && s.usesSlice n k

/-- R478: why a retest is refused. The safe state comes first; then the reasons in their order (DEDUCED, log entry 25). -/
def retestRefused (s : State) (k : Nat) : Option Nat :=
  if s.isSafe then some 5
  else if s.sliceUsed k then some 1
  else if !s.isRun || s.parkEntry || s.parkExit then some 2
  else if s.retestSlice.isSome || (k == 16 && (s.sessionOpen || s.commitBusy)) ||
      ((k == 14 || k == 15) && (List.range 128).any fun r => s.ringEnabled r && (s.ringFns r).isEmpty) then some 3
  else if decide (k ≤ 16) && !s.fenceMap.testBit k && s.fenceMap.testBit 45 then some 4
  else if 47 < k then some 6
  else none

def retestStart (s : State) (k : Nat) : State :=
  match s.retestRefused k with
  | some reason =>
    -- a refusal during a retest leaves BUSY
    let s := (s.put Reg.BIST_RETEST_STATUS Fl.BIST_RETEST_STATUS_RESULT 3).put Reg.BIST_RETEST_STATUS Fl.BIST_RETEST_STATUS_REASON reason
    s.bistEvent Fl.BIST_EVENT_RETEST_DONE
  | none =>
    let s := (s.setPhase 3).setReg Reg.BIST_RETEST_STATUS 1
    s.modBist fun b => { b with running := [⟨k, s.clk.ts, none⟩] }

/-- R479: cycles of a segment or of a logic slice under retest. -/
def retestCycles (k : Nat) (destructive : Bool) : Nat :=
  if memorySlice k then 64 + 22 * segmentWords k / 2 + (if destructive || k == 45 then 0 else 2 * segmentWords k / 16)
  else 4 * fullCycles k

/-- The retained copy takes the result: RESULT byte and FENCE bits, with a new CRC. -/
def retainResult (s : State) (k result : Nat) : State :=
  let r := s.retained
  let r := r.take 0x20 ++ natBytes 8 s.fenceMap ++ (r.drop 0x28).take 8 ++ ((r.drop 0x30).take 48).set k result ++ r.drop 0x60
  s.setRetained (sealRecord r)

/-- R479: a retest completes. -/
def retestDone (s : State) (fail : Option (Nat × Nat)) (uncorr : Nat) (bay : Bool) : State :=
  match s.bist.running, s.bistPhase with
  | r :: _, 3 =>
    let k := r.slice
    let destructive := decide (k ≤ 16) && s.fenceMap.testBit k
    let n := if memorySlice k then sliceSegments k else 1
    let s := s.atTime (endCycle r (retestCycles k destructive) n fail)
    let s := s.bumpBy Reg.BIST_SAVE Fl.BIST_SAVE_UNCORR uncorr
    let seg := match fail with | some (g, _) => if memorySlice k then g else 0 | none => 0
    let s := s.setReg (Reg.BIST_RESULT k) ([(Fl.BIST_RESULT_RESULT, if fail.isNone then 1 else 2),
      (Fl.BIST_RESULT_TIME_US, min ((s.clk.ts - r.start) / 500) 0xFFFF), (Fl.BIST_RESULT_SEGMENT, seg)].foldl (fun w x => putF w x.1 x.2) 0)
    let s := if destructive then s.loseSlice k else s
    let s := if fail.isNone then s.unfence k else s.fence k
    let s := s.retainResult k (if fail.isNone then 1 else 2)
    let s := if bay && memorySlice k && k != 45 && !destructive && !s.fenceMap.testBit 45 then
        ((s.fence 45).put (Reg.BIST_RESULT 45) Fl.BIST_RESULT_RESULT 2).retainResult 45 2
      else s
    let s := (s.setPhase 0).setReg Reg.BIST_RETEST_STATUS (if fail.isNone then 2 else 4)
    (s.modBist fun b => { b with running := [] }).bistEvent Fl.BIST_EVENT_RETEST_DONE
  | _, _ => s

end State

end Sys2Proof.Machine
end

