-- ==== Sys2Proof/Machine/Boot.lean ====
section
/-! DEFINITION. Supplies, clocks, resets, boot and power states (chapter 2), with the boot reading of chapter 4 (R136, R137, R139). -/
namespace Sys2Proof.Machine

namespace State

def modPw (s : State) (f : Power → Power) : State := { s with pw := f s.pw }
def bootTo (s : State) (n : Nat) : State := s.modPw fun p => { p with bootStep := n }
def setPwState (s : State) (v : Nat) : State := s.put Reg.PWR_STATE Fl.PWR_STATE_STATE v
def setPwPhase (s : State) (v : Nat) : State := s.put Reg.PWR_STATE Fl.PWR_STATE_PHASE v

/-! ## Supplies and clocks -/

/-- Step 3 is reached: the rails are good, the straps sampled, REFCLK seen. -/
def step3 (s : State) : State :=
  if !s.pw.held && s.pw.rails && s.pw.strapped && s.flag Reg.CLK_STATUS Fl.CLK_STATUS_REFCLK_OK && decide (s.pw.bootStep < 3) then s.bootTo 3
  else s

/-- R48, R49: VH rises above 2.60 V; from below 1.60 V a power-on reset is held. -/
def vhPowerOn (s : State) : State :=
  match s.pw.vh with
  | .below160 =>
    { (outside s) with pw := { State.reset.pw with vh := .good, held := true, rails := false, bootStep := 1, vf := s.pw.vf, vfPor := s.pw.vfPor } }
  | .between => s.modPw fun p => { p with vh := .good }
  | .good => s

/-- R48: VH falls below 2.50 V. -/
def vhBrownOut (s : State) : State :=
  if s.pw.vh = .good then (s.modPw fun p => { p with vh := .between }).chipReset 2 0 else s

/-- R49: VH falls below 1.60 V: OFF, and the retained domain is lost. -/
def vhPowerLoss (s : State) : State :=
  let s := s.flashAbandon
  { (outside s) with pw := { State.reset.pw with vh := .below160, off := true, held := true, rails := false, bootStep := 0,
                                                 vf := s.pw.vf, vfPor := s.pw.vfPor } }

/-- R50, R38: every rail reports power good; REFSEL and LEAD are sampled once after chip reset. DEDUCED, log entry 81. -/
def railsGood (s : State) (refsel lead refclk : Bool) : State :=
  if s.pw.off || s.pw.vh != .good || s.pw.level1 || decide (3 ≤ s.pw.bootStep) then s
  else
    let s := if s.pw.strapped then s
      else (s.putFlag Reg.SYS_STRAP Fl.SYS_STRAP_REFSEL refsel).putFlag Reg.SYS_STRAP Fl.SYS_STRAP_LEAD lead
    let s := s.putFlag Reg.CLK_STATUS Fl.CLK_STATUS_REFCLK_OK refclk
    ((s.modPw fun p => { p with rails := true, strapped := true }).bootTo 2).step3

/-- R62, R45: the chip reset ends; a VH-caused one waits for the rails (R48). -/
def chipResetEnd (s : State) : State :=
  let vhCaused := s.get Reg.SYS_RESET_CAUSE Fl.SYS_RESET_CAUSE_CAUSE % 4 != 0
  if s.pw.held && s.pw.vh == .good && (!vhCaused || s.pw.rails) then
    let s := { (s.modPw fun p => { p with held := false }) with clk := { s.clk with ts := 0 } }
    (if s.pw.rails then s.bootTo 2 else s).step3
  else s

/-- Level 1 is reached (R64): sources that are asserted are latched from now on. DEDUCED, log entry 111. -/
def level1 (s : State) : State :=
  let s := { (s.modPw fun p => { p with level1 := true, bootStep := 5 }) with clk := { s.clk with sclk := true, bootTs := s.clk.ts } }
  [1, 2, 3, 4, 17].foldl (fun s i => if s.fcuRaw i then (s.bump (Reg.FCU_CNT i) Fl.FCU_CNT_COUNT).latch i else s) s

/-- R42: the PLL locks. Before level 1 this is steps 4 and 5 of Table 2-9. -/
def pllLock (s : State) : State :=
  if s.pw.held || s.pw.off || !s.flag Reg.CLK_STATUS Fl.CLK_STATUS_REFCLK_OK || s.flag Reg.CLK_STATUS Fl.CLK_STATUS_BYPASS then s
  else if s.pw.level1 then s.put Reg.CLK_STATUS Fl.CLK_STATUS_PLL_LOCK 1
  else if s.pw.bootStep = 3 then (s.put Reg.CLK_STATUS Fl.CLK_STATUS_PLL_LOCK 1).level1
  else s

/-- R42: the PLL loses lock with REFCLK present. -/
def pllLoss (s : State) : State :=
  if s.alive && s.flag Reg.CLK_STATUS Fl.CLK_STATUS_REFCLK_OK && s.flag Reg.CLK_STATUS Fl.CLK_STATUS_PLL_LOCK then
    let s := (s.put Reg.CLK_STATUS Fl.CLK_STATUS_PLL_LOCK 0).put Reg.CLK_EVENT Fl.CLK_EVENT_LOCK_LOST 1
    let s := s.bump Reg.CLK_EVENT Fl.CLK_EVENT_LOCK_LOST_COUNT
    if s.chartOk then s.raise 0 else s
  else s

/-- SCLK stops. -/
def sclkStops (s : State) : State := { (s.put Reg.CLK_STATUS Fl.CLK_STATUS_PLL_LOCK 0) with clk := { s.clk with sclk := false } }

/-- R43: a clock loss, from level 1 onwards the safe state with this cause; before it, boot restarts at step 3. -/
def declareLoss (s : State) (cause : Nat) (runs : Bool) : State :=
  if s.pw.off then s
  else if s.alive then let s := s.enterSafe cause; if runs then s else s.sclkStops
  else s.bootTo (min 2 s.pw.bootStep)

def refclkLoss (s : State) (sclkRuns : Bool) : State := (s.put Reg.CLK_STATUS Fl.CLK_STATUS_REFCLK_OK 0).declareLoss 2 sclkRuns
def sclkLoss (s : State) : State := (s.declareLoss 3 false).step3

/-- R527: REFCLK returns; in the safe state the PLL relocks and SCLK runs again. DEDUCED, log entry 59. -/
def refclkReturn (s : State) : State :=
  let s := s.put Reg.CLK_STATUS Fl.CLK_STATUS_REFCLK_OK 1
  if s.alive then
    if s.isSafe then { (s.put Reg.CLK_STATUS Fl.CLK_STATUS_PLL_LOCK 1) with clk := { s.clk with sclk := true } } else s
  else s.step3

/-- R50: a rail leaves its window after power good. -/
def railOut (s : State) : State :=
  if s.pw.off || !s.pw.rails then s
  else
    let s := s.modPw fun p => { p with rails := false }
    if s.alive then s.enterSafe 4
    else if s.pw.held then s
    else s.bootTo 1

/-! ## Samples (R528) -/

def vhSample (s : State) (mv : Nat) : State := (s.put Reg.PWR_SUPPLY Fl.PWR_SUPPLY_VH_MV (min mv 8191)).level 3 (supplyBad (min mv 8191))

def tempSample (s : State) (c : Int) : State :=
  let c := max (-128) (min 127 c)
  let w : Int := s.get Reg.FCU_THERM Fl.FCU_THERM_WARN_C
  let s := s.put Reg.FCU_THERM Fl.FCU_THERM_TEMP_C (unsigned 8 c)
  (s.hysteresis 1 (decide (w ≤ c)) (decide (c < w - 5))).hysteresis 2 (decide (125 ≤ c)) (decide (c < 120))

def vfSample (s : State) (mv : Nat) : State :=
  if s.hzUp || s.hzKeep then
    let v := min mv 8191
    ((s.put Reg.PWR_SUPPLY Fl.PWR_SUPPLY_VF_MV v).put Reg.PWR_SUPPLY Fl.PWR_SUPPLY_VF_VALID 1).level 4 (supplyBad v)
  else s

/-! ## Jens's supply (R51, R63) -/

def vfPowerOn (s : State) : State :=
  if s.pw.vf then s
  else { (s.modPw fun p => { p with vf := true, vfPor := true }) with jens := jensReset, fregs := [] }.fsUpdate

/-- VF falls below 2.50 V: Jens keeps nothing, and no field output is driven. -/
def vfPowerLoss (s : State) : State :=
  if s.pw.vf then { (s.modPw fun p => { p with vf := false, vfPor := true }) with jens := jensReset, fregs := [] }.fsUpdate else s

/-! ## Boot from flash (R136, R137) -/

def dirByte (s : State) (a : Nat) : Nat := s.flashByte a
def dirEntries (s : State) : List (Nat × Nat × Nat × Nat) :=
  (List.range (recordTakes (s.flashList 6 2) 0 2)).map fun e =>
    let d := s.flashList (0x10 + 16 * e) 16
    (u8 d 0, u32 d 4, u32 d 8, u32 d 12)

/-- R136. -/
def dirValid (s : State) : Bool :=
  let d := s.flashList 0 0x80
  let n := u16 d 6
  let l := s.dirEntries
  d.take 4 == [0x4C, 0x51, 0x46, 0x44] && crc32 (d.take 0x7C) == u32 d 0x7C && decide (1 ≤ n ∧ n ≤ 6) &&
    decide ((l.filter (·.1 == 1)).length ≤ 2) && decide ((l.filter (·.1 == 2)).length ≤ 1) &&
    (l.all fun e => decide (4096 ≤ e.2.1)) &&
    (l.zipIdx.all fun x => (l.take x.2).all fun y => decide (x.1.2.1 + x.1.2.2.1 ≤ y.2.1) || decide (y.2.1 + y.2.2.1 ≤ x.1.2.1))

/-- R137: the image header of a Chart slot passes. -/
def slotPasses (s : State) (off len : Nat) : Bool :=
  let f := fun i => s.flashByte (off + i)
  imgList f 0 4 == [0x4C, 0x51, 0x43, 0x48] && crc32 (imgList f 0 0x3C ++ imgList f 0x40 (16 * img16 f 0x14)) == img32 f 0x3C &&
    decide (img32 f 0x10 ≤ len)

/-- The Chart slot that is copied: index among the Chart slots, offset, image length. -/
def chartSlot (s : State) : Option (Nat × Nat × Nat) :=
  let l := (s.dirEntries.filter (·.1 == 1)).zipIdx.filter fun x => s.slotPasses x.1.2.1 x.1.2.2.1
  let best := l.foldl (fun b x => match b with
    | none => some x
    | some y => if y.1.2.2.2 < x.1.2.2.2 then some x else b) none
  best.map fun x => (x.2, x.1.2.1, img32 (fun i => s.flashByte (x.1.2.1 + i)) 0x10)

/-! ### The record check (R68, R69) -/

/-- The record found: its bytes, its source (1 retained, 2 flash), and the cleared QUICK_MAP bits. -/
def foundRecord (s : State) : Option (List Nat × Nat × Nat) :=
  if s.flag Reg.BIST_STATUS Fl.BIST_STATUS_REC_INTACT then some (s.retained, 1, 0)
  else match s.bsp.recordArea with
    | none => none
    | some area => (s.newestSlot area).map fun i => (s.flashList (slotAddr area i + 0x28) 216, 2, s.quickCleared area i)

/-- R68: the first condition that fails; 0 for none. -/
def recordCheck (s : State) : Nat :=
  match s.foundRecord with
  | none => if s.chartOk then 2 else 1
  | some (r, _, cleared) =>
    if !s.chartOk then 1
    else if crc32 (r.take 212) ≠ u32 r 212 then 3
    else if recordTakes r 8 8 ≠ Config.uid.toNat then 4
    else if u8 r 6 ≠ 1 then 5
    else if u16 (s.sec 1 0) 0 ≤ s.testedHours r then 6
    else if u8 (s.sec 1 0) 2 ≤ u8 r 0x14 + cleared then 7
    else 0

/-- R69: the quick start is counted: the next bit of QUICK_MAP, and the retained copy if that is the record (DEDUCED, log entry 26). -/
def countQuick (s : State) (r : List Nat) (src cleared : Nat) : State :=
  let s := if src = 1 then
      let r' := sealRecord (r.set 0x14 (min 255 (u8 r 0x14 + 1)))
      (s.setRetained r').modBist fun b => { b with inForce := some (r', 0) }
    else s.modBist fun b => { b with inForce := some (r, cleared + 1) }
  match s.bsp.recordArea.bind fun area => (s.newestSlot area).map fun i => (area, i) with
  | none => s
  | some (area, i) =>
    let n := s.quickCleared area i
    let a := slotAddr area i + n / 8
    if 256 ≤ n then s
    else { s with bsp := { s.bsp with record := some (.quick a (s.flashByte a &&& (255 - 2 ^ (n % 8)))) } }

/-- Step 10 of Table 2-9: quick path or cold path (R68, R69, R477). DEDUCED, log entry 92. -/
def bootRecord (s : State) : State :=
  let code := s.recordCheck
  let found := s.foundRecord
  let s := s.put Reg.PWR_BOOT Fl.PWR_BOOT_RECORD_FAIL code
  let s := match found with
    | none => s
    | some (r, src, cleared) =>
      let s := s.put Reg.PWR_BOOT Fl.PWR_BOOT_RECORD_SRC src
      let good := crc32 (r.take 212) == u32 r 212 && recordTakes r 8 8 == Config.uid.toNat
      let s := if good then s.modBist fun b => { b with inForce := some (r, cleared) } else s
      let por := s.get Reg.SYS_RESET_CAUSE Fl.SYS_RESET_CAUSE_CAUSE % 2 == 1
      -- after power-on the fence map is the record's (Table 16-9)
      if good && por then (s.setFences (recordTakes r 0x20 6)).setPair Reg.BIST_UNFIN_LO Reg.BIST_UNFIN_HI (recordTakes r 0x28 6) else s
  let s := s.bootTo 10
  if code = 0 then match found with | some (r, src, cleared) => s.countQuick r src cleared | none => s
  else s.quickTestStart

/-- Steps 7 to 9 are skipped or have ended without a Chart. -/
def bootNoChart (s : State) (why : Nat) : State := ((s.put Reg.PWR_BOOT Fl.PWR_BOOT_CHART why).bootTo 9).bootRecord

/-- Step 6: directory, record and slot headers have been read. -/
def bootDirectory (s : State) : State :=
  if s.pw.bootStep ≠ 5 ∨ !s.isBoot then s
  else
    let ok := s.dirValid
    let s := (s.putFlag Reg.BSP_STATUS Fl.BSP_STATUS_DIR_OK ok).bootTo 6
    if !ok then s.bootNoChart 1
    else
      let area := (s.dirEntries.find? (·.1 == 2)).map (·.2.1)
      let s := { s with bsp := { s.bsp with recordArea := area, subsys := (u16 (s.flashList 8 4) 0, u16 (s.flashList 8 4) 2) } }
      let s := s.put Reg.BSP_STATUS Fl.BSP_STATUS_RECORD_SLOT ((area.bind s.newestSlot).getD 0)
      if s.dirEntries.all (·.1 != 1) then s.bootNoChart 1
      else match s.chartSlot with
        | none => s.bootNoChart 2
        | some (i, off, len) =>
          { s.put Reg.BSP_STATUS Fl.BSP_STATUS_CHART_SLOT (i + 1) with bsp := { s.bsp with slot := some (off, len) } }

/-- WIP stays set for 100 ms at step 6 or in the read of step 7. -/
def bootFlashTimeout (s : State) : State :=
  if s.isBoot && (s.pw.bootStep == 5 || s.pw.bootStep == 6) then
    { s with bsp := { s.bsp with slot := none, recordArea := if s.pw.bootStep = 5 then none else s.bsp.recordArea } }.bootNoChart 3
  else s

/-- Step 7: the image is in the store; steps 8 and 9 run a full COMMIT. -/
def bootChart (s : State) : State :=
  match s.bsp.slot, s.isBoot && s.pw.bootStep == 6 with
  | some (off, len), true =>
    let s := (s.setCht 0 ((s.flashList off len).map (BitVec.ofNat 8))).bootTo 7
    match s.commitRefused false 0 with
    | some (c, d) => (s.commitFails ⟨c, 0xFF, d, none⟩ 0).bootNoChart 2
    | none => { s.put Reg.CHT_STATUS Fl.CHT_STATUS_BUSY 1 with commit := some ⟨0, s.clk.ts, true, []⟩ }
  | _, _ => s

/-- Step 13 (R65): RUN, once the record check, a quick test, every calibration and a record write have ended. Horizon is not waited for
(DEDUCED, log entry 27). -/
def bootFinish (s : State) : State :=
  if s.isBoot && s.pw.bootStep == 10 && s.bistPhase == 0 && s.bsp.record.isNone && decide (13 ≤ s.bist.calDone.length) then
    let s := (s.setPwState 2).bootTo 13
    let s := s.put Reg.PWR_BOOT Fl.PWR_BOOT_PATH (if s.get Reg.PWR_BOOT Fl.PWR_BOOT_RECORD_FAIL = 0 then 1 else 2)
    s.put Reg.PWR_BOOT_TIME Fl.PWR_BOOT_TIME_TIME_US (microseconds (s.clk.ts - s.clk.bootTs))
  else s

/-- R305: one of the 13 lanes calibrated at step 12: 0 to 11 the receive lanes of CP0 to CP3, 12 the cascade lane. -/
def bootCal (s : State) (x : Fin 13) (pass : Bool) : State :=
  if s.isBoot && s.pw.bootStep == 10 && s.bistPhase == 0 && !s.bist.calDone.contains x.val then
    let s := s.modBist fun b => { b with calDone := b.calDone ++ [x.val] }
    let s := if h : x.val = 12 then s.modCasLane fun l => { l with calFail := !pass }
      else s.calResult ⟨4 * (x.val / 3) + x.val % 3, by omega⟩ pass
    s.bootFinish
  else s

/-! ## Power states (Table 2-5) -/

def pwrRefused (s : State) : State := s.put Reg.PWR_STATE Fl.PWR_STATE_CMD_REFUSED 1

/-- A PWR_CMD acted on now. DEDUCED, log entry 88. -/
def pwrAct (s : State) (cmd : Nat) : State :=
  let idle := s.isRun && !s.parkEntry && !s.parkExit && s.allStopped
  if cmd = 1 then
    if idle then ((s.setPwState 3).modPw fun p => { p with woken := false }).lanesOff else s.pwrRefused
  else if cmd = 2 then
    if idle then
      let s := (s.setPwPhase 1).modPw fun p => { p with parkStep := 1, wakeHeld := false, woken := false, hzBeforePark := s.hzUp }
      { s.lanesOff.casOff with ports := s.ports.map fun p => { p with fifo := [] } }
    else s.pwrRefused
  else if cmd = 3 then
    if s.wakes then s.wakeBy fun s => s.put Reg.PWR_WAKE_CAUSE Fl.PWR_WAKE_CAUSE_CMD 1 else s.pwrRefused
  else s

/-- A PWR_CMD is written: held during a COMMIT or a retest (R101, R480). DEDUCED, log entry 114. -/
def pwrCmd (s : State) (cmd : Nat) : State :=
  if cmd = 0 then s
  else if s.isSafe then s.pwrRefused
  else if s.commitBusy || s.retestSlice.isSome then { s with heldPwr := cmd }
  else s.pwrAct cmd

/-- A held PWR_CMD is acted on when nothing holds it any more. -/
def heldRun (s : State) : State :=
  if s.commitBusy || s.retestSlice.isSome || s.heldPwr = 0 then s
  else
    let c := s.heldPwr
    let s := { s with heldPwr := 0 }
    if s.isSafe then s.pwrRefused else s.pwrAct c

/-- R55. -/
def sleepExit (s : State) : State :=
  if s.isSleep && s.pw.woken then
    ((s.setPwState 2).put Reg.EVT_PULSE Fl.EVT_PULSE_WAKE_DONE 1).modPw fun p => { p with woken := false }
  else s

/-- Table 2-7, step 3 (R467). -/
def parkTest (s : State) : State :=
  if s.parkEntry && decide (s.pw.parkStep = 1) && !s.pw.wakeHeld then ((s.modPw fun p => { p with parkStep := 3 }).fullTestStart).testEnd else s

/-- R57: the entry ends; the device is in RUN. -/
def parkBack (s : State) : State :=
  ((s.setPwPhase 0).put Reg.PWR_STATE Fl.PWR_STATE_PARK_ABORTED 1).modPw fun p => { p with parkStep := 0, wakeHeld := false, woken := false }

/-- R57: a wake in steps 1 to 3: the test ends at the next boundary, and the record is written; `ok`: its flash write succeeds.
DEDUCED, log entry 89. -/
def parkAbort (s : State) (ok : Bool) (t : Nat) : State :=
  if s.parkEntry && s.pw.wakeHeld && decide (s.pw.parkStep < 4) then
    let e := s.bist.running.foldl (fun e r => max e (nextBoundary r (r.stop.getD s.clk.ts))) 0
    let s := s.atTime e
    let s := if s.bistPhase = 1 then s.abortRuns
      else let s := s.bistLatch.leftOut; (s.unfencedOf (List.range 48)).foldl (sliceUnrun · 3) s
    let s := (((s.modBist fun b => { b with aborted := true }).writeRecord true true).setPhase 0).put Reg.BIST_STATUS Fl.BIST_STATUS_LOGIC_WAIT 0
    let s := s.atTime t
    (if s.bsp.record.isNone then s else if ok then s.recordDone else s.recordFailed).parkBack
  else s

/-- Table 2-7, step 5. A wake that fired in it starts the exit at once. DEDUCED, log entry 87. -/
def parkEnter (s : State) : State :=
  if s.parkEntry && s.pw.parkStep == 5 then
    let s := if s.hzUp then s.setHzState 6 else s
    let s := (s.put Reg.CLK_STATUS Fl.CLK_STATUS_PLL_LOCK 0).put Reg.CLK_STATUS Fl.CLK_STATUS_BYPASS 1
    let s := (s.setPwState 4).setPwPhase (if s.pw.wakeHeld then 2 else 0)
    s.modPw fun p => { p with parkStep := 0, wakeHeld := false }
  else s

/-- Table 2-8 and R59; `bad`: slices that hold a word with a double-bit error. -/
def parkLeave (s : State) (bad : List (Fin 17)) : State :=
  if s.isPark && s.parkExit then
    let s := (s.put Reg.CLK_STATUS Fl.CLK_STATUS_PLL_LOCK 1).put Reg.CLK_STATUS Fl.CLK_STATUS_BYPASS 0
    let s := bad.foldl (fun s k => s.fence k.val) s
    let s := ((s.setPwState 2).setPwPhase 0).put Reg.EVT_PULSE Fl.EVT_PULSE_WAKE_DONE 1
    (s.modPw fun p => { p with woken := false, rails := true }).casStart
  else s

/-- The write of a record or of a QUICK_MAP byte ends (R140). -/
def recordFlashDone (s : State) (ok : Bool) : State :=
  if s.bsp.record.isNone || s.bsp.op.isSome then s
  else
    let s := if ok then s.recordDone else s.recordFailed
    if s.parkEntry && s.pw.parkStep == 4 then
      if s.pw.wakeHeld then s.parkBack else s.modPw fun p => { p with parkStep := 5 }
    else s.bootFinish

/-- R100: the COMMIT in progress ends. -/
def commitComplete (s : State) (ecc : Option (Nat × Nat)) : State :=
  match s.commit with
  | none => s
  | some run =>
    let s := s.commitEnd run ecc
    if run.boot then (if s.chartOk then ((s.put Reg.PWR_BOOT Fl.PWR_BOOT_CHART 0).bootTo 9).bootRecord else s.bootNoChart 2).heldRun
    else s.heldRun

end State

/-! ## Commands -/

def execVhPowerOn (s : State) : Host.Outcome State Fault Refusal := finish s s.vhPowerOn
def execVhBrownOut (s : State) : Host.Outcome State Fault Refusal := finish s s.vhBrownOut
def execVhPowerLoss (s : State) : Host.Outcome State Fault Refusal := finish s s.vhPowerLoss
def execRailsPowerGood (refsel lead refclk : Bool) (s : State) : Host.Outcome State Fault Refusal := finish s (s.railsGood refsel lead refclk)
def execPllLock (s : State) : Host.Outcome State Fault Refusal := finish s s.pllLock
def execPllLockLoss (t : Nat) (s : State) : Host.Outcome State Fault Refusal := finish s (s.atTime t).pllLoss
def execRefclkLoss (sclkRuns : Bool) (t : Nat) (s : State) : Host.Outcome State Fault Refusal := finish s ((s.atTime t).refclkLoss sclkRuns)
def execSclkLoss (t : Nat) (s : State) : Host.Outcome State Fault Refusal := finish s (s.atTime t).sclkLoss
def execRefclkReturn (s : State) : Host.Outcome State Fault Refusal := finish s s.refclkReturn
def execRailOutOfWindow (t : Nat) (s : State) : Host.Outcome State Fault Refusal := finish s (s.atTime t).railOut
/-- Samples fall at multiples of 1 ms, 100 µs and 10 ms of the timestamp. -/
def execVhSample (mv t : Nat) (s : State) : Host.Outcome State Fault Refusal :=
  finish s (if t % 500000 = 0 ∧ s.clk.ts ≤ t then (s.atTime t).up fun s => s.vhSample mv else s)
def execTempSample (c : Int) (t : Nat) (s : State) : Host.Outcome State Fault Refusal :=
  finish s (if t % 50000 = 0 ∧ s.clk.ts ≤ t then (s.atTime t).up fun s => s.tempSample c else s)
def execVfSample (mv t : Nat) (s : State) : Host.Outcome State Fault Refusal :=
  finish s (if t % 5000000 = 0 ∧ s.clk.ts ≤ t then (s.atTime t).up fun s => s.vfSample mv else s)
def execSleepExitComplete (t : Nat) (s : State) : Host.Outcome State Fault Refusal := finish s ((s.atTime t).live State.sleepExit)
def execParkSelftestStart (t : Nat) (s : State) : Host.Outcome State Fault Refusal := finish s ((s.atTime t).live State.parkTest)
def execParkEntryComplete (t : Nat) (s : State) : Host.Outcome State Fault Refusal := finish s ((s.atTime t).live State.parkEnter)
def execParkEntryAborted (ok : Bool) (t : Nat) (s : State) : Host.Outcome State Fault Refusal := finish s (s.live fun s => s.parkAbort ok t)
def execParkExitComplete (bad : List (Fin 17)) (t : Nat) (s : State) : Host.Outcome State Fault Refusal :=
  finish s ((s.atTime t).live fun s => s.parkLeave bad)
def execResetPin (t : Nat) (s : State) : Host.Outcome State Fault Refusal := finish s ((s.atTime t).chipReset 4 0)
def execChipResetEnd (s : State) : Host.Outcome State Fault Refusal := finish s s.chipResetEnd
def execVfPowerOn (s : State) : Host.Outcome State Fault Refusal := finish s s.vfPowerOn
def execVfPowerLoss (s : State) : Host.Outcome State Fault Refusal := finish s s.vfPowerLoss
def execCommitComplete (ecc : Option (Nat × Nat)) (t : Nat) (s : State) : Host.Outcome State Fault Refusal :=
  finish s ((s.atTime t).up fun s => s.commitComplete ecc)
def execBootDirectoryRead (t : Nat) (s : State) : Host.Outcome State Fault Refusal := finish s ((s.atTime t).live State.bootDirectory)
def execBootFlashTimeout (t : Nat) (s : State) : Host.Outcome State Fault Refusal := finish s ((s.atTime t).live State.bootFlashTimeout)
def execBootChartRead (t : Nat) (s : State) : Host.Outcome State Fault Refusal := finish s ((s.atTime t).live State.bootChart)
def execOffsetCalDone (x : Fin 13) (pass : Bool) (t : Nat) (s : State) : Host.Outcome State Fault Refusal :=
  finish s ((s.atTime t).live fun s => s.bootCal x pass)
def execBistSliceStart (k : Fin 48) (t : Nat) (s : State) : Host.Outcome State Fault Refusal := finish s ((s.atTime t).live fun s => s.sliceStart k.val)
def execBistSliceDone (k : Fin 48) (fail : Option (Nat × Nat)) (uncorr : Nat) (bay : Bool) (t : Nat) (s : State) :
    Host.Outcome State Fault Refusal := finish s (s.live fun s => (s.sliceDone k.val fail uncorr bay t).bootFinish)
def execBistBudgetExpiry (k : Fin 48) (s : State) : Host.Outcome State Fault Refusal := finish s (s.live fun s => s.budgetExpiry k.val)
def execBistRecordFlashDone (ok : Bool) (t : Nat) (s : State) : Host.Outcome State Fault Refusal :=
  finish s ((s.atTime t).live fun s => s.recordFlashDone ok)
def execBistQuickSliceTimeout (k : Fin 48) (s : State) : Host.Outcome State Fault Refusal :=
  finish s (s.live fun s => (s.quickTimeout k.val).bootFinish)
def execBistRetestDone (fail : Option (Nat × Nat)) (uncorr : Nat) (bay : Bool) (s : State) : Host.Outcome State Fault Refusal :=
  finish s (s.live fun s => (s.retestDone fail uncorr bay).heldRun)

end Sys2Proof.Machine
end

