-- ==== Sys2Proof/Machine/BusRead.lean ====
section
/-! DEFINITION. The register bus, reading: which accesses are refused (R1, R3, R113), register pairs (R4), and the registers whose value is
formed when they are read. -/
namespace Sys2Proof.Machine

/-- A word from field values. -/
def wordOf (l : List (Fld × Nat)) : Word := l.foldl (fun w x => putF w x.1 x.2) 0

/-- Change fields of a word. -/
def withF (w : Word) (l : List (Fld × Nat)) : Word := l.foldl (fun w x => putF w x.1 x.2) w

/-- Offset of the FX window in BAR0 (Table 4-3). -/
def fxBase : Nat := 0x50000
def inFx (off : Nat) : Bool := decide (fxBase ≤ off) && decide (off < 0x60000)

/-- The blocks that answer in PARK (Table 4-3). -/
def answersInPark (off : Nat) : Bool :=
  decide (off < 0x10000) || decide (0x21000 ≤ off ∧ off < 0x22000) || decide (0x500000 ≤ off ∧ off < 0x600000)

/-- Low words of 64-bit pairs (R4). -/
def pairLow (off : Nat) : Bool :=
  [Reg.SYS_UID_LO, Reg.SYS_TS_LO, Reg.FCU_STATUS_LO, Reg.FCU_RAW_LO, Reg.FCU_FIRST_TS_LO, Reg.PCX_HOSTLOSS_TS_LO, Reg.E_BUSY_LO 0,
    Reg.E_BUSY_LO 1, Reg.BIST_FENCE_LO, Reg.BIST_UNFIN_LO].contains off ||
  (decide (0x400000 ≤ off ∧ off < 0x408000) && [0x08, 0x14, 0x34, 0x84].contains (off % 0x100))

def pairHigh (off : Nat) : Bool := decide (4 ≤ off) && pairLow (off - 4)

/-- Low words of the pairs software can write (R5). -/
def writePairLow (off : Nat) : Bool :=
  off == Reg.FCU_STATUS_LO || (decide (0x400000 ≤ off ∧ off < 0x408000) && [0x08, 0x14, 0x34].contains (off % 0x100))

def writePairHigh (off : Nat) : Bool := decide (4 ≤ off) && writePairLow (off - 4)

/-- Byte enables of the first doubleword of an access of `size` bytes. -/
def byteEnables (off size : Nat) : Nat := (2 ^ size - 1) * 2 ^ (off % 4) % 16

/-- An address of Jens that a register or the gate-program table holds (Table 5-9). -/
def fxAssigned (a : Nat) : Bool := decide (0x8000 ≤ a ∧ a < 0xC100 ∧ a % 4 = 0) || (fieldReg a).isSome

namespace State

/-- R1, R3, R113: why an access of `size` bytes at a BAR0 offset is refused: its size, then PARK, then an unassigned offset. DEDUCED, log entry 44. -/
def busReason (s : State) (off size : Nat) : Option Reason :=
  if size ≠ 4 ∨ off % 4 ≠ 0 then some .size
  else if s.isPark && !answersInPark off then some .park
  else if inFx off then none
  else if (barReg off).isNone then some .unassigned
  else none

/-! ## Registers formed when they are read -/

def sysLive (s : State) (off : Nat) : Word :=
  if off = Reg.SYS_UID_LO then BitVec.ofNat 32 Config.uid.toNat
  else if off = Reg.SYS_UID_HI then BitVec.ofNat 32 (Config.uid.toNat / 2 ^ 32)
  else if off = Reg.SYS_TS_LO then BitVec.ofNat 32 s.clk.ts
  else if off = Reg.SYS_TS_HI then BitVec.ofNat 32 (s.clk.ts / 2 ^ 32)
  else if 0x500 ≤ off ∧ off < 0x580 then
    match s.routes[(off - 0x500) / 4]? with
    | some (n, src, sink) => wordOf [(Fl.SYS_SW_ROUTE_SRC, src), (Fl.SYS_SW_ROUTE_SINK, sink), (Fl.SYS_SW_ROUTE_FN, n), (Fl.SYS_SW_ROUTE_VALID, 1)]
    | none => 0
  else s.reg off

/-- CHT_SECTk, the entries of the committed table. -/
def sectLive (s : State) (off : Nat) : Word :=
  match s.chart.bind fun c => c.sections[(off - 0x10100) / 16]? with
  | none => 0
  | some x =>
    if off % 16 = 0 then wordOf [(Fl.CHT_SECT_ID_TYPE, x.typ), (Fl.CHT_SECT_ID_INSTANCE, x.inst), (Fl.CHT_SECT_ID_VALID, 1)]
    else BitVec.ofNat 32 (if off % 16 = 4 then x.offset else if off % 16 = 8 then x.length else x.crc)

def chtLive (s : State) (off : Nat) : Word :=
  if off = Reg.CHT_STATUS then
    withF (s.reg off) [(Fl.CHT_STATUS_KEY_FUSED, ofBool Config.keyHash.isSome), (Fl.CHT_STATUS_ENFORCE, ofBool Config.enforce)]
  else if off = Reg.CHT_TAG then BitVec.ofNat 32 ((s.chart.map (·.tag)).getD 0)
  else if off = Reg.CHT_LENGTH then BitVec.ofNat 32 ((s.chart.map (·.length)).getD 0)
  else if 0x10100 ≤ off then s.sectLive off
  else s.reg off

/-- Time to the expiry of the watchdog, µs. -/
def wdtRemain (s : State) : Nat := if s.wdtOn then (s.wdtTimeout * 500000 - s.wdtCount) / 500 else 0

def fcuLive (s : State) (off : Nat) : Word :=
  if off = Reg.FCU_TRAP then
    wordOf [(Fl.FCU_TRAP_ASSERTED, ofBool s.trap), (Fl.FCU_TRAP_SAFE, ofBool s.isSafe), (Fl.FCU_TRAP_SAFE_CAUSE, s.pw.safeCause),
      (Fl.FCU_TRAP_TRAP_SRC, s.trapSource)]
  else if off = Reg.FCU_DEBUG then
    putF (s.reg off) Fl.FCU_DEBUG_HALTED (ofBool (s.flag off Fl.FCU_DEBUG_HALT && s.running.toList.all (·.isNone)))
  else if off = Reg.WDT_REMAIN then BitVec.ofNat 32 s.wdtRemain
  else s.reg off

/-- READY of Table 4-7: the last READ's first word has completed. -/
def spiReady (s : State) : Bool := s.spi.late.all fun x => !x.first

/-- The status byte of the service SPI (Table 4-7). -/
def sspStatusByte (s : State) : Nat :=
  0x80 + 0x40 * ofBool s.spiReady + 0x20 * ofBool (!s.spi.wfifo.isEmpty) +
    0x10 * ofBool (s.reg Reg.SSP_ERR0 != 0 || s.reg Reg.SSP_ERR1 != 0) + 8 * ofBool (s.flag Reg.SSP_AEL_COUNT Fl.SSP_AEL_COUNT_EVENT) +
    4 * ofBool s.trap + 2 * ofBool (s.flag Reg.PCX_HOSTLOSS Fl.PCX_HOSTLOSS_ACTIVE)

def sspStatus (s : State) : Word := wordOf [(Fl.SSP_STATUS_STATUS, s.sspStatusByte), (Fl.SSP_STATUS_WFIFO, s.spi.wfifo.length)]

def pcxLive (s : State) (off : Nat) : Word :=
  if off = Reg.SSP_STATUS then s.sspStatus
  else if off = Reg.BSP_STATUS then putF (s.reg off) Fl.BSP_STATUS_BUSY (ofBool (s.bsp.op.isSome || s.bsp.record.isSome))
  else s.reg off

def hzLive (s : State) (off : Nat) : Word :=
  if off = Reg.HZ_STATUS then putF (s.reg off) Fl.HZ_STATUS_FS_HOLD (ofBool s.fsHoldNow)
  else if off = Reg.HZ_SER_STATUS then
    withF (s.reg off) [(Fl.HZ_SER_STATUS_TX_LEVEL, s.hz.serTx.length), (Fl.HZ_SER_STATUS_RX_LEVEL, s.hz.serRx.length)]
  else if off = Reg.HZ_MIRI then putF (s.reg off) Fl.HZ_MIRI_VALID (ofBool s.hzUp)
  else if 0x40140 ≤ off ∧ off < 0x40170 then
    let k := (off - 0x40140) / 4
    wordOf [(Fl.HZ_MIRO_MAP_SOURCE, u8 s.field (4 * k)), (Fl.HZ_MIRO_MAP_INDEX, u8 s.field (4 * k + 1)),
      (Fl.HZ_MIRO_MAP_SAFE_LEVEL, u8 s.field (4 * k + 2))]
  else if 0x40180 ≤ off ∧ off < 0x401B0 then wordOf [(Fl.HZ_MIRI_MAP_FILTER_BEATS, s.miriFilter ((off - 0x40180) / 4))]
  else s.reg off

/-- DEDUCED, log entry 117. -/
def ltgLive (s : State) (off : Nat) : Word :=
  let p := (off - 0x201000) / 0x40
  let r := off % 0x40
  let sec := s.portSec p
  if r = 0 then wordOf [(Fl.LTG_P_CFG_RATIO_LINES, u16 sec 8), (Fl.LTG_P_CFG_RATIO_COUNTS, u16 sec 0x0A)]
  else if r = 4 then BitVec.ofNat 32 (u32 sec 0x0C)
  else if r = 0x0C then
    if s.hasSec 0x03 p then
      wordOf [(Fl.LTG_P_DECIM_DX, s.decimX p), (Fl.LTG_P_DECIM_DY, s.decimY p), (Fl.LTG_P_DECIM_FN, (s.portFn p).getD 0), (Fl.LTG_P_DECIM_VALID, 1)]
    else 0
  else if r = 0x14 then (match s.ltgServed p with | some (t, c) => BitVec.ofInt 32 (s.ltgAcc t c) | none => s.reg off)
  else if r = 0x10 then
    withF (s.reg off) [(Fl.LTG_P_STATUS_ACTIVE, ofBool (s.ltgActive p).isSome), (Fl.LTG_P_STATUS_SLOT, (s.ltgActive p).getD 0)]
  else s.reg off

def stsBandLive (s : State) (off : Nat) : Word :=
  match s.bands[(off - 0x202100) / 8]? with
  | none => 0
  | some b =>
    if off % 8 = 0 then wordOf [(Fl.STS_BAND_BASE_BASE, b.base / 4096), (Fl.STS_BAND_BASE_VALID, 1)]
    else wordOf [(Fl.STS_BAND_INFO_SIZE, b.size / 4096), (Fl.STS_BAND_INFO_FN, b.fn), (Fl.STS_BAND_INFO_KIND, b.kind),
      (Fl.STS_BAND_INFO_PORT, if b.kind = 2 then 0 else b.idx)]

def acqLive (s : State) (off : Nat) : Word :=
  if off < 0x200800 then
    let n := (off - 0x200000) / 0x100
    if off % 0x100 = 0 then
      wordOf [(Fl.ACQ_FN_CFG_TRIGGER, s.fnTrigger n), (Fl.ACQ_FN_CFG_OPEN_SOURCE, s.fnOpenSource n), (Fl.ACQ_FN_CFG_OPEN_EDGE, s.fnOpenEdge n),
        (Fl.ACQ_FN_CFG_OPEN_INDEX, s.fnOpenIndex n), (Fl.ACQ_FN_CFG_STRIPE_LINES, s.fnStripeLines n)]
    else s.reg off
  else if 0x201000 ≤ off ∧ off < 0x201100 then s.ltgLive off
  else if 0x201200 ≤ off ∧ off < 0x201280 ∧ off % 0x10 = 0 then
    let n := (off - 0x201200) / 0x10
    if s.fnLineTimer n then BitVec.ofNat 32 (u32 (s.fnSec n) 0x10) else 0
  else if off = Reg.STS_USED then BitVec.ofNat 32 (s.bands.foldl (fun n b => n + b.size) 0)
  else if 0x202100 ≤ off then s.stsBandLive off
  else s.reg off

def engineLive (s : State) (off : Nat) : Word :=
  if off = Reg.E_STATUS 0 ∨ off = Reg.E_STATUS 1 ∨ off = Reg.PST_STATUS then putF (s.reg off) Fl.E_STATUS_HELD (ofBool s.trap)
  else if off = Reg.E_QUEUE 0 ∨ off = Reg.E_QUEUE 1 then BitVec.ofNat 32 (min 255 (s.readyJobs ((off - 0x300000) / 0x1000)).length)
  else if 0x303000 ≤ off ∧ off < 0x303200 then
    match s.fnVerdict ((off - 0x303000) / 0x40) with
    | some v =>
      if off % 0x40 = 0 then
        wordOf [(Fl.VRD_FN_CFG_INSTANCE, v), (Fl.VRD_FN_CFG_VALID, 1), (Fl.VRD_FN_CFG_RULE_COUNT, u8 (s.sec 0x13 v) 4)]
      else if off % 0x40 = 4 then BitVec.ofNat 32 (u32 (s.sec 0x13 v) 0)
      else s.reg off
    | none => s.reg off
  else s.reg off

def dlvLive (s : State) (off : Nat) : Word :=
  if off < 0x408000 ∧ off % 0x100 = 4 then
    let r := (off - 0x400000) / 0x100
    withF (s.reg off) [(Fl.DLV_STATUS_GATED, ofBool (s.ringGated r)), (Fl.DLV_STATUS_BOUND, (s.ringFns r).foldl (fun m n => m + 2 ^ n) 0)]
  else if 0x408400 ≤ off ∧ off < 0x408420 then
    let k := (off - 0x408400) / 4
    BitVec.ofNat 32 ((List.range 32).foldl (fun m b => m + 2 ^ b * ofBool (s.srcAsserted (32 * k + b))) 0)
  else s.reg off

def bistLive (s : State) (off : Nat) : Word :=
  if 0x500100 ≤ off ∧ off < 0x5001C0 then putF (s.reg off) Fl.BIST_RESULT_FENCED (ofBool (s.fenceMap.testBit ((off - 0x500100) / 4)))
  else s.reg off

/-- Chapter 9, Registers: the bits of the lane register at offset `r` whose fields apply to a lane of this role; the others read 0 and take no
write. A lane without a role has them all. DEDUCED, log entry 108. -/
def laneFields (role r : Nat) : Nat :=
  let all := 0xFFFFFFFF
  if role = 1 then (if r = 0x34 then 0 else all)
  else if role = 2 then
    if r = 0x04 then 0x2F else if r = 0x0C then 2 else if r = 0x2C then 0xFF000007
    else if [0x10, 0x14, 0x18, 0x1C, 0x20, 0x34, 0x38].contains r then 0 else all
  else if role = 3 then
    if r = 0x04 then 0x1F else if r = 0x0C then 2
    else if [0x10, 0x14, 0x18, 0x1C, 0x20, 0x2C, 0x30, 0x38].contains r then 0 else all
  else all

/-- The bits of a register that a read shows and a write reaches. -/
def fieldsAt (s : State) (off : Nat) : Word :=
  if 0x180000 ≤ off ∧ off < 0x190000 then BitVec.ofNat 32 (laneFields (s.laneRole ((off - 0x180000) / 0x1000)) (off % 0x1000)) else 0xFFFFFFFF

def laneLive (s : State) (off : Nat) : Word :=
  (if off % 0x1000 = 0 then s.laneCfg ((off - 0x180000) / 0x1000) else s.reg off) &&& s.fieldsAt off

/-- The stored or formed word of a register of Nahar. -/
def regLive (s : State) (off : Nat) : Word :=
  if off < 0x10000 then s.sysLive off
  else if off < 0x20000 then s.chtLive off
  else if off < 0x30000 then s.fcuLive off
  else if off < 0x40000 then s.pcxLive off
  else if off < 0x50000 then s.hzLive off
  else if 0x180000 ≤ off ∧ off < 0x190000 then s.laneLive off
  else if 0x200000 ≤ off ∧ off < 0x300000 then s.acqLive off
  else if 0x300000 ≤ off ∧ off < 0x400000 then s.engineLive off
  else if 0x400000 ≤ off ∧ off < 0x500000 then s.dlvLive off
  else if 0x500000 ≤ off ∧ off < 0x600000 then s.bistLive off
  else s.reg off

/-- What a read without side effects returns. -/
def shown (s : State) (off : Nat) : Word :=
  match barReg off with
  | some d => readWord d (s.regLive off)
  | none => 0

/-! ## Reads with side effects -/

/-- HZ_SER_RX: the oldest received byte is popped (Table 5-19). -/
def serRxRead (s : State) : State × Word :=
  match s.hz.serRx with
  | b :: r => (s.modHz fun h => { h with serRx := r }, BitVec.ofNat 32 (b.toNat + 2 ^ 8))
  | [] => (s, 0)

/-- HZ_SER_RXW: four bytes are popped if they are there. -/
def serRxwRead (s : State) : State × Word :=
  match s.hz.serRx with
  | a :: b :: c :: d :: r =>
    (s.modHz fun h => { h with serRx := r }, BitVec.ofNat 32 (a.toNat + 2 ^ 8 * b.toNat + 2 ^ 16 * c.toNat + 2 ^ 24 * d.toNat))
  | _ => (s, 0)

def chtAddr (s : State) : Nat := 4 * s.get Reg.CHT_ADDR Fl.CHT_ADDR_ADDR
/-- CHT_ADDR advances by 4 and wraps at 2 MiB (R96). -/
def chtAdvance (s : State) : State := s.put Reg.CHT_ADDR Fl.CHT_ADDR_ADDR (s.get Reg.CHT_ADDR Fl.CHT_ADDR_ADDR + 1)

/-- R96: CHT_DATA reads the word at CHT_ADDR. -/
def chtDataRead (s : State) : State × Word := (s.chtAdvance, wordAt s.cht chtId s.chtAddr)

/-- A pair's low word: the high word goes into the path's latch (R4). -/
def latchHigh (s : State) (p : Path) (off : Nat) : State := s.setPath p { s.pathOf p with latch := s.shown (off + 4) }

/-- An access to a field address that no register holds is recorded (R3, R176). DEDUCED, log entry 51. -/
def fxRecord (s : State) (p : Path) (a : Nat) (write : Bool) : State :=
  if fxAssigned a then s else s.ael p (bar0Access (fxBase + a) write) .unassigned

/-- A read of the FX window (R177, R178); none while the relay has still to answer. -/
def fxRead (s : State) (p : Path) (a : Nat) : State × Option Word :=
  let s := s.fxRecord p a false
  if s.hzUp then ((s.setPath p { s.pathOf p with lastRead := none }).relayQueue ⟨.read, some p, a, 0⟩, none) else (s, some 0xFFFFFFFF)

/-- A read of an assigned register; none while the relay has still to answer. -/
def regRead (s : State) (p : Path) (off : Nat) : State × Option Word :=
  if inFx off then s.fxRead p (off - fxBase)
  else if pairHigh off then (s, some (s.pathOf p).latch)
  else if pairLow off then (s.latchHigh p off, some (s.shown off))
  else if off = Reg.HZ_SER_RX then (s.serRxRead.1, some s.serRxRead.2)
  else if off = Reg.HZ_SER_RXW then (s.serRxwRead.1, some s.serRxwRead.2)
  else if off = Reg.CHT_DATA then (s.chtDataRead.1, some s.chtDataRead.2)
  else (s, some (s.shown off))

/-- A 32-bit read of BAR0 (R3, R4). -/
def busRead (s : State) (p : Path) (off : Nat) : State × Option Word :=
  match s.busReason off 4 with
  | some r => (s.ael p (bar0Access off false) r, some 0)
  | none => s.regRead p off

/-- A read of BAR0 whose answer the path keeps. -/
def pathRead (s : State) (p : Path) (off : Nat) : State :=
  match s.busRead p off with
  | (s, some w) => s.readReturns p w
  | (s, none) => s

end State

end Sys2Proof.Machine
end

