-- ==== Sys2Proof/Machine/BusWrite.lean ====
section
/-! DEFINITION. The register bus, writing: owners (R8, R9, R20), stored ranges, writable pairs (R5, R526), and what a write does beyond
storing its fields. -/
namespace Sys2Proof.Machine

namespace State

/-! ## Owners and stored values -/

def portFns (s : State) (p : Nat) : List Nat := s.chartFns.filter fun n => (u8 (s.fnSec n) 1).testBit p

/-- The functions that the committed Chart binds the unit of a BAR0 register to (R8, R20). -/
def busOwners (s : State) (off : Nat) : List Nat :=
  if 0x100000 ≤ off ∧ off < 0x140000 then s.portFns ((off - 0x100000) / 0x10000)
  else if 0x180000 ≤ off ∧ off < 0x190000 then s.portFns ((off - 0x180000) / 0x4000)
  else if 0x200000 ≤ off ∧ off < 0x200800 then s.chartFns.filter (· == (off - 0x200000) / 0x100)
  else if 0x201000 ≤ off ∧ off < 0x201100 then s.portFns ((off - 0x201000) / 0x40)
  else if 0x303000 ≤ off ∧ off < 0x303200 then s.chartFns.filter (· == (off - 0x303000) / 0x40)
  else if 0x400000 ≤ off ∧ off < 0x408000 then s.ringFns ((off - 0x400000) / 0x100)
  else []

/-- A signed register held within ±`m`. -/
def clampSigned (m : Nat) (w : Word) : Word := BitVec.ofInt 32 (intClamp (-(m : Int)) m (signed 32 w.toNat))

/-- ±MERIDIAN_TRIM_LIMIT of a configured port (R353). DEDUCED, log entry 38. -/
def clampTrim (s : State) (p : Nat) (w : Word) : Word := if s.hasSec 0x03 p then clampSigned (u16 (s.portSec p) 0x10) w else w

/-- R434: a vector number that names no vector is stored as 0. -/
def storedVector (w : Word) : Word := if 263 < getF w Fl.EVT_MAP_VECTOR then putF w Fl.EVT_MAP_VECTOR 0 else w

def clampAcq (r : Nat) (w : Word) : Word :=
  if r = 0x08 then clampF Fl.ACQ_FN_MAX_LEN_COUNTS 1 (2 ^ 31 - 1) w
  else if r = 0x0C then clampF Fl.ACQ_FN_CLOSE_POS_COUNTS 0 (2 ^ 31 - 1) w
  else if r = 0x10 then clampF Fl.ACQ_FN_REV_HYST_COUNTS 1 65535 w
  else if r = 0x14 then clampF Fl.ACQ_FN_TIMER_LEN_LINES 1 (2 ^ 31 - 1) w
  else if r = 0x18 then clampF Fl.ACQ_FN_TIMER_GAP_LINES 0 (2 ^ 31 - 1) w
  else w

/-- The ranges that registers of Nahar are stored within. -/
def clampBus (s : State) (off : Nat) (w : Word) : Word :=
  if off = Reg.FCU_THERM then clampF Fl.FCU_THERM_WARN_C 60 120 w
  else if off = Reg.WDT_TIMEOUT then clampF Fl.WDT_TIMEOUT_MS 1 16000 w
  else if 0x100000 ≤ off ∧ off < 0x140000 ∧ off % 0x10000 = 8 then clampF Fl.CP_CFG_LINE_TIMEOUT_US 10 4095 w
  else if 0x200000 ≤ off ∧ off < 0x200800 then clampAcq (off % 0x100) w
  else if off = Reg.ACQ_TID_NEXT then (if w = 0 then 1 else w)
  else if 0x201000 ≤ off ∧ off < 0x201100 ∧ off % 0x40 = 8 then s.clampTrim ((off - 0x201000) / 0x40) w
  else if 0x400000 ≤ off ∧ off < 0x408000 ∧ off % 0x100 = 0x10 then clampF Fl.DLV_DESC_SIZE_LOG2 7 15 w
  else if 0x400000 ≤ off ∧ off < 0x408000 ∧ off % 0x100 = 0x6C then clampF Fl.DLV_BP_LIMIT_US 1 65535 w
  else if 0x408000 ≤ off ∧ off < 0x408400 then storedVector w
  else if off = Reg.EVT_VMASK 0 then w &&& 0xFFFFFFFE
  else if off = Reg.EVT_VMASK 8 then w &&& 0xFF
  else if off = Reg.BIST_CAP then clampF Fl.BIST_CAP_CAP 500 1600 w
  else if off = Reg.BIST_BUDGET then clampF Fl.BIST_BUDGET_US 100 65535 w
  else if off = Reg.CAS_TRIM then clampSigned 2000 w
  else w

/-- Bits that act and read 0, in registers whose other fields are stored. -/
def dropBus (off : Nat) (w : Word) : Word :=
  if off = Reg.HZ_CTRL then putF w Fl.HZ_CTRL_RETRAIN 0
  else if off = Reg.FCU_INJECT then putF w Fl.FCU_INJECT_INTEGRITY 0
  else if off = Reg.CAS_CTRL then putF w Fl.CAS_CTRL_RELINK 0
  else w

/-- The written value with every refused field 0: what the device acts on. -/
def acceptedBits (d : RegD) (val : Word) (refused : Acc → Bool) : Word :=
  d.fields.foldl (fun w f => if refused f.acc then putF w f.fld 0 else w) val

/-- R8, R20, R526: the record of a write that refuses fields. -/
def recordRefused (s : State) (p : Path) (off : Nat) (f : Option FieldD) : State :=
  match f with
  | some f => s.ael p (bar0Access off true) (accReason f.acc)
  | none => s

/-! ## Host flash operations (R141, R142) -/

/-- First byte and length of what an operation touches. -/
def flashExtent (op addr len : Nat) : Nat × Nat := if op = 2 then (addr / 4096 * 4096, 4096) else (addr, len)

def touchesRecords (s : State) (x : Nat × Nat) : Bool :=
  match s.bsp.recordArea with
  | some a => decide (x.1 < a + 8192) && decide (a < x.1 + x.2)
  | none => false

/-- R141: the operation is refused. -/
def flashRefused (s : State) (op addr len : Nat) : Bool :=
  decide (s.pw.bootStep < 13) || s.bsp.record.isSome || s.parkEntry || (op != 1 && s.touchesRecords (flashExtent op addr len)) ||
    (op == 3 && decide (256 < addr % 256 + len))

/-- R142: the operation ends with RANGE. -/
def flashRange (op addr len : Nat) : Bool :=
  if op = 2 then addr % 4096 != 0 else len == 0 || decide (256 < len) || decide (2 ^ 24 < addr + len)

def flashEnd (s : State) (code : Nat) : State := (s.put Reg.BSP_RESULT Fl.BSP_RESULT_CODE code).put Reg.BSP_EVENT Fl.BSP_EVENT_DONE 1

def bufByte (s : State) (i : Nat) : Byte := BitVec.ofNat 8 ((s.reg (Reg.BSP_BUF (i / 4))).toNat / 2 ^ (8 * (i % 4)))

/-- BSP_OP. The boot SPI master issues no command in the safe state (Table 15-4), nor for a write while an operation runs (DEDUCED, log entry 30). -/
def flashOp (s : State) (op : Nat) : State :=
  if op = 0 ∨ s.isSafe ∨ s.bsp.op.isSome then s
  else
    let addr := s.get Reg.BSP_ADDR Fl.BSP_ADDR_ADDR
    let len := s.get Reg.BSP_LEN Fl.BSP_LEN_LEN
    if s.flashRefused op addr len then s.flashEnd 1
    else if flashRange op addr len then s.flashEnd 3
    else { s with bsp := { s.bsp with op := some ⟨op, addr, len, (List.range len).map s.bufByte⟩ } }

/-- Bytes copied into BSP_BUF. -/
def setBuf (s : State) (l : List Byte) : State :=
  l.zipIdx.foldl (fun s x => s.put (Reg.BSP_BUF (x.2 / 4)) ⟨8 * (x.2 % 4), 8⟩ x.1.toNat) s

/-- The operation in progress completes. DESIGN CHOICE, log entry 43. -/
def flashDone (s : State) : State :=
  match s.bsp.op with
  | none => s
  | some o =>
    let s := if o.op = 1 then s.setBuf ((s.flashList o.addr o.len).map (BitVec.ofNat 8))
      else if o.op = 2 then s.flashPut o.addr (List.replicate 4096 0xFF)
      else s.flashPut o.addr o.data
    ({ s with bsp := { s.bsp with op := none } }.flashEnd 0).testEnd

/-- R142: TIMEOUT leaves the sector or page undefined. -/
def flashTimeout (s : State) : State :=
  match s.bsp.op with
  | none => s
  | some o =>
    let s := if o.op = 2 then s.flashFree o.addr 4096 else if o.op = 3 then s.flashFree (o.addr / 256 * 256) 256 else s
    ({ s with bsp := { s.bsp with op := none } }.flashEnd 2).testEnd

/-! ## Effects of writes, by block -/

/-- Keys of SYS_RESET_CMD (R60) and FCU_SAFE_CMD (R452). -/
def resetKey : Word := 0x2640C0DE
def safeKey : Word := 0x5AFE2640

def badKey (s : State) (p : Path) (off : Nat) : State := s.ael p (bar0Access off true) .resetKey

def resetCmd (s : State) (p : Path) (val : Word) : State :=
  if val = resetKey then s.chipReset (match p with | .pcie => 32 | .spi => 64) 0 else s.badKey p Reg.SYS_RESET_CMD

def fnCmd (s : State) (n cmd : Nat) : State :=
  if cmd = 1 then s.fnStart n else if cmd = 2 then s.fnStopCmd n else if cmd = 3 then s.fnAbort n else s

/-- DESIGN CHOICE, log entry 58. -/
def sysEffect (s : State) (p : Path) (off : Nat) (val : Word) : State :=
  if off = Reg.SYS_RESET_CMD then s.resetCmd p val
  else if off = Reg.PWR_CMD then s.pwrCmd (getF val Fl.PWR_CMD_CMD)
  else if 0x400 ≤ off ∧ off < 0x480 ∧ off % 0x10 = 0 then s.fnCmd ((off - 0x400) / 0x10) (getF val Fl.SYS_FN_CMD_CMD)
  -- a count is one W1C field: a written 1 clears it
  else if 0x580 ≤ off ∧ off < 0x5A4 ∧ val ≠ 0 then s.setReg off 0
  else s

def chtCmd (s : State) (p : Path) (cmd scope : Nat) : State :=
  if cmd = 1 then s.chtOpen p else if cmd = 2 then s.chtClose p else if cmd = 3 then s.chtCommit p scope else s

/-- Bytes of a write to the Chart store, those that R95 refuses left out; with the record of a refusal. -/
def chtStore (s : State) (p : Path) (acc : Access) (l : List (Nat × Byte)) : State :=
  let ok := l.filter fun x => !s.storeRefuses p [x.1]
  let s := if ok.length = l.length then s else s.ael p acc .store
  ok.foldl (fun s x => { s with cht := s.cht.write x.1 x.2 }) s

/-- The bytes of a word, lowest first. -/
def wordLe (w : Word) : List Byte := (List.range 4).map fun i => BitVec.ofNat 8 (w.toNat / 2 ^ (8 * i))

/-- R95, R96: a write of CHT_DATA. -/
def chtDataWrite (s : State) (p : Path) (val : Word) : State :=
  (s.chtStore p (bar0Access Reg.CHT_DATA true) ((wordLe val).zipIdx.map fun x => (s.chtAddr + x.2, x.1))).chtAdvance

def chtEffect (s : State) (p : Path) (off : Nat) (val : Word) : State :=
  if off = Reg.CHT_CMD then s.chtCmd p (getF val Fl.CHT_CMD_CMD) (getF val Fl.CHT_CMD_SCOPE)
  else if off = Reg.CHT_DATA then s.chtDataWrite p val
  else s

def safeCmd (s : State) (p : Path) (val : Word) : State := if val = safeKey then s.enterSafe 5 else s.badKey p Reg.FCU_SAFE_CMD

/-- R451. DEDUCED, log entry 124. -/
def inject (s : State) (val : Word) : State :=
  let s := if getF val Fl.FCU_INJECT_GO = 1 then s.raise (s.get Reg.FCU_INJECT Fl.FCU_INJECT_SOURCE) else s
  if getF val Fl.FCU_INJECT_INTEGRITY = 1 then s.collectorUpset ⟨1, 0, 1, false⟩ else s

def fcuEffect (s : State) (p : Path) (off : Nat) (val : Word) : State :=
  if off = Reg.FCU_SAFE_CMD then s.safeCmd p val
  else if off = Reg.FCU_INJECT then s.inject val
  else if off = Reg.FCU_CNT_CLR then (if getF val Fl.FCU_CNT_CLR_CLEAR = 1 then s.fcuCntClear else s)
  else if off = Reg.WDT_CTRL then (if getF val Fl.WDT_CTRL_ENABLE = 1 then s.wdtEnable else s)
  else if off = Reg.WDT_KEY then s.wdtKey (getF val Fl.WDT_KEY_KEY)
  else s

/-- R126. -/
def hostRelease (s : State) : State :=
  ((s.put Reg.PCX_HOSTLOSS Fl.PCX_HOSTLOSS_ACTIVE 0).put Reg.PCX_HOSTLOSS Fl.PCX_HOSTLOSS_FIELD_HELD 0).put Reg.PCX_HOSTLOSS
    Fl.PCX_HOSTLOSS_DISCARDED 0

def sspErrClear (s : State) : State := (s.setReg Reg.SSP_ERR0 0).setReg Reg.SSP_ERR1 0

def pcxEffect (s : State) (off : Nat) (val : Word) : State :=
  let one := getF val ⟨0, 1⟩ == 1
  if off = Reg.PCX_HOSTLOSS_CTRL then (if one then s.hostRelease else s)
  else if off = Reg.PCX_AEL_CTRL then (if one then s.aelClear .pcie else s)
  else if off = Reg.SSP_AEL_CTRL then (if one then s.aelClear .spi else s)
  else if off = Reg.SSP_ERR_CLR then (if one then s.sspErrClear else s)
  else if off = Reg.BSP_OP then s.flashOp (getF val Fl.BSP_OP_OP)
  else s

/-- R529, R149; R455: no effect in the safe state. -/
def hzRetrain (s : State) : State := if s.isSafe then s else (s.linkDown 1).trainStart

/-- DEDUCED, log entry 40. -/
def hzCntClear (s : State) : State :=
  let s := [Reg.HZ_BAD_RX, Reg.HZ_BAD_TX, Reg.HZ_LOSS, Reg.HZ_GC, Reg.HZ_GC_ERR].foldl (fun s a => s.setReg a 0) s
  (s.put Reg.HZ_RELAY_ERR Fl.HZ_RELAY_ERR_TIMEOUT 0).put Reg.HZ_RELAY_ERR Fl.HZ_RELAY_ERR_RETRY 0

/-- R174: bytes for the transmit FIFO, all of them or none. -/
def serTxWrite (s : State) (l : List Byte) : State :=
  if s.hz.serTx.length + l.length ≤ 64 then s.modHz fun h => { h with serTx := h.serTx ++ l }
  else (s.bumpBy Reg.HZ_SER_ERR Fl.HZ_SER_ERR_TX_DROP l.length).put Reg.HZ_EVENT Fl.HZ_EVENT_SER_DROP 1

def hzEffect (s : State) (off : Nat) (val : Word) : State :=
  if off = Reg.HZ_CTRL then (if getF val Fl.HZ_CTRL_RETRAIN = 1 then s.hzRetrain else s)
  else if off = Reg.HZ_CNT_CLR then (if getF val Fl.HZ_CNT_CLR_CLEAR = 1 then s.hzCntClear else s)
  else if off = Reg.HZ_SER_TX then s.serTxWrite [BitVec.ofNat 8 val.toNat]
  else if off = Reg.HZ_SER_TXW then s.serTxWrite (wordLe val)
  else s

def cpEffect (s : State) (off : Nat) (val : Word) : State :=
  let p := fin4 ((off - 0x100000) / 0x10000)
  if off = Reg.CP_CTRL p then (if getF val Fl.CP_CTRL_RETRAIN = 1 then s.cpRetrain p else s)
  else if off = Reg.CP_HC_CMD p then
    (if getF val Fl.CP_HC_CMD_OP = 1 then s.hcStart p false else if getF val Fl.CP_HC_CMD_OP = 2 then s.hcStart p true else s)
  else if off = Reg.CP_CNT_CLR p then (if getF val Fl.CP_CNT_CLR_CLEAR = 1 then s.cpCntClear p else s)
  else s

def lnEffect (s : State) (off : Nat) (val : Word) : State :=
  let x : Fin 16 := ⟨(off - 0x180000) / 0x1000 % 16, Nat.mod_lt _ (by decide)⟩
  if off = Reg.LN_CNT_CLR x then (if getF val Fl.LN_CNT_CLR_CLEAR = 1 then s.laneCntClear x else s)
  else if off = Reg.LN_CAL x then (if getF val Fl.LN_CAL_RECAL = 1 then s.laneRecal x else s)
  else s

def acqCntClear (s : State) (n : Nat) : State :=
  ((s.setReg (Reg.ACQ_FN_CNT0 n) 0).setReg (Reg.ACQ_FN_CNT1 n) 0).setReg (Reg.ACQ_FN_CNT2 n) 0
def ltgCntClear (s : State) (p : Nat) : State :=
  ((s.setReg (Reg.LTG_P_TRIGGERS p) 0).setReg (Reg.LTG_P_SKIP p) 0).setReg (Reg.LTG_P_ERR p) 0
def stsCntClear (s : State) : State := s.setReg Reg.STS_ECC 0

def acqEffect (s : State) (off : Nat) (val : Word) : State :=
  if getF val ⟨0, 1⟩ ≠ 1 then s
  else if off < 0x200800 ∧ off % 0x100 = 0x34 then s.acqCntClear ((off - 0x200000) / 0x100)
  else if 0x201000 ≤ off ∧ off < 0x201100 ∧ off % 0x40 = 0x28 then s.ltgCntClear ((off - 0x201000) / 0x40)
  else if off = Reg.STS_CNT_CLR then s.stsCntClear
  else s

def pstCntClear (s : State) : State := (s.setReg Reg.PST_CAND 0).setReg Reg.PST_LAST_CYCLES 0
def vrdCntClear (s : State) (n : Nat) : State :=
  ((s.setReg (Reg.VRD_FN_CNT0 n) 0).setReg (Reg.VRD_FN_CNT1 n) 0).setReg (Reg.VRD_FN_MIN_SLACK n) 0x7FFFFFFF
def vrdHitClear (s : State) (mask : Nat) : State :=
  ((List.range 16).filter mask.testBit).foldl (fun s v => (List.range 64).foldl (fun s r => s.setReg (Reg.VRD_HIT v r) 0) s) s

def engineEffect (s : State) (off : Nat) (val : Word) : State :=
  if off = Reg.VRD_HIT_CLR then s.vrdHitClear (getF val Fl.VRD_HIT_CLR_INSTANCE)
  else if getF val ⟨0, 1⟩ ≠ 1 then s
  else if off = Reg.E_CNT_CLR 0 then s.engineCntClear 0
  else if off = Reg.E_CNT_CLR 1 then s.engineCntClear 1
  else if off = Reg.PST_CNT_CLR then s.pstCntClear
  else if 0x303000 ≤ off ∧ off < 0x303200 ∧ off % 0x40 = 0x28 then s.vrdCntClear ((off - 0x303000) / 0x40)
  else s

/-- DLV_Rr_CTRL takes this word (R429). DEDUCED, log entry 37. -/
def dlvCtrl (s : State) (r : Nat) (w : Word) : State :=
  let a := Reg.DLV_CTRL r
  let was := s.flag a Fl.DLV_CTRL_ENABLE
  let now := getF w Fl.DLV_CTRL_ENABLE == 1
  if s.isSafe ∨ was = now then s.setReg a w
  else if now then
    if windowValid (s.get (Reg.DLV_WIN_SIZE r) Fl.DLV_WIN_SIZE_KIB) then (s.setReg a w).ringStart r else s.dlvEvent r Fl.DLV_EVENT_CONFIG
  else (s.setReg a w).ringStop r

def dlvCntClear (s : State) (r : Nat) : State := (s.setReg (Reg.DLV_CNT_DROP r) 0).setReg (Reg.DLV_CNT_VOID r) 0

def dlvEffect (s : State) (off : Nat) (val : Word) : State :=
  let r := (off - 0x400000) / 0x100
  if off % 0x100 = 0x24 then s.consWrite r val.toNat
  else if off % 0x100 = 0x64 then (s.irqCount r).irqTimer r
  else if off % 0x100 = 0x8C ∧ getF val Fl.DLV_CNT_CLR_CLEAR = 1 then s.dlvCntClear r
  else s

/-- R433: a source whose map entry is enabled while it is asserted fires. -/
def mapEnabled (s : State) (n : Nat) (was : Word) : State :=
  if getF was Fl.EVT_MAP_ENABLE = 0 ∧ s.srcAsserted n then (match s.srcVector n with | some v => s.fireVector v | none => s) else s

def bistEffect (s : State) (off : Nat) (val : Word) : State :=
  if off = Reg.BIST_RETEST ∧ getF val Fl.BIST_RETEST_GO = 1 then s.retestStart (s.get Reg.BIST_RETEST Fl.BIST_RETEST_SLICE) else s

def casEffect (s : State) (off : Nat) (val : Word) : State :=
  if off = Reg.CAS_CTRL then (if getF val Fl.CAS_CTRL_RELINK = 1 then s.casStart else s)
  else if off = Reg.CAS_CNT_CLR then (if getF val Fl.CAS_CNT_CLR_CLEAR = 1 then s.casCntClear else s)
  else s

/-- What the device does with the accepted bits of a write. A frozen block does nothing with them (R455). -/
def busEffect (s : State) (p : Path) (off : Nat) (val was : Word) : State :=
  if off < 0x10000 then s.sysEffect p off val
  else if off < 0x20000 then s.chtEffect p off val
  else if off < 0x30000 then s.fcuEffect p off val
  else if off < 0x40000 then s.pcxEffect off val
  else if off < 0x50000 then s.hzEffect off val
  else if 0x408000 ≤ off ∧ off < 0x500000 then
    (if off < 0x408400 then s.mapEnabled ((off - 0x408000) / 4) was else if 0x408500 ≤ off ∧ off < 0x408524 then s.flushVectors else s)
  else if 0x500000 ≤ off ∧ off < 0x600000 then s.bistEffect off val
  else if s.isSafe then s
  else if off < 0x180000 then s.cpEffect off val
  else if off < 0x200000 then s.lnEffect off val
  else if off < 0x300000 then s.acqEffect off val
  else if off < 0x400000 then s.engineEffect off val
  else if off < 0x500000 then s.dlvEffect off val
  else s.casEffect off val

/-! ## One register -/

/-- Registers that take a written value only through their effect: a count that a 1 clears, WDT_CTRL, CHT_DATA and DLV_Rr_CONS.
DEDUCED, log entry 39. -/
def effectOnly (s : State) (off : Nat) : Bool :=
  decide (0x580 ≤ off ∧ off < 0x5A4) || off == Reg.WDT_CTRL || off == Reg.CHT_DATA ||
    (decide (0x400000 ≤ off ∧ off < 0x408000) && off % 0x100 == 0x24 && !s.isSafe) || (off == Reg.ACQ_TID_NEXT && s.follower)

def regWrite (s : State) (p : Path) (off : Nat) (val : Word) : State :=
  match barReg off with
  | none => s
  | some d =>
    let refused := s.refuses (s.busOwners off)
    let was := s.reg off
    let next := s.clampBus off (dropBus off (writeWord d was val refused))
    let reach := s.fieldsAt off
    let now := (was &&& ~~~reach) ||| (next &&& reach)
    let s := s.recordRefused p off (firstRefused d refused)
    let s := if 0x400000 ≤ off ∧ off < 0x408000 ∧ off % 0x100 = 0 then s.dlvCtrl ((off - 0x400000) / 0x100) now
      else if s.effectOnly off then s
      else s.setReg off now
    (s.busEffect p off (acceptedBits d val refused &&& reach) was).refire off

/-! ## Pairs (R5, R526) -/

/-- Bits [11:0] of a ring's addresses read 0. -/
def pairBits (lo : Nat) (w : Word) : Word := if lo % 0x100 = 0x34 then w else w &&& 0xFFFFF000

/-- DEDUCED, log entry 9. -/
def shadowLow (s : State) (p : Path) (val : Word) : State := s.setPath p { s.pathOf p with shadow := some val }

/-- The write of a high word, with the low word that the path's shadow holds, if any. DEDUCED, log entry 35. -/
def pairWrite (s : State) (p : Path) (off : Nat) (val : Word) : State :=
  let lo := off - 4
  let low := (s.pathOf p).shadow
  let s := s.setPath p { s.pathOf p with shadow := none }
  if lo = Reg.FCU_STATUS_LO then (s.fcuClear ((low.getD 0).toNat + 2 ^ 32 * val.toNat)).refire off
  else
    match barReg off, barReg lo with
    | some dh, some dl =>
      let refused := s.refuses (s.busOwners off)
      let s := s.recordRefused p off ((if low.isSome then firstRefused dl refused else none) <|> firstRefused dh refused)
      let s := match low with
        | some w => s.setReg lo (pairBits lo (writeWord dl (s.reg lo) w refused))
        | none => s
      s.setReg off (writeWord dh (s.reg off) val refused)
    | _, _ => s

/-! ## The bus -/

/-- A write into the FX window (R178 to R180). -/
def fxWrite (s : State) (p : Path) (a : Nat) (val : Word) : State :=
  let relayed := s.fxRelayed a val
  let s := (s.fxRecord p a true).fxGate p a val
  match relayed with
  | none => s
  | some w => if s.hzUp then s.relayQueue ⟨.write, some p, a, w⟩ else s

/-- A 32-bit write to BAR0. -/
def busWrite (s : State) (p : Path) (off : Nat) (val : Word) : State :=
  match s.busReason off 4 with
  | some r => s.ael p (bar0Access off true) r
  | none =>
    if inFx off then s.fxWrite p (off - fxBase) val
    else if writePairLow off then s.shadowLow p val
    else if writePairHigh off then s.pairWrite p off val
    else s.regWrite p off val

/-- A path reaches the device: out of chip reset, with SCLK, and on PCI Express over a link that is up. A memory request in D3hot is an
Unsupported Request (R121). -/
def onBus (s : State) (p : Path) (f : State → State) : State :=
  if !s.alive || !s.clk.sclk then s
  else match p with
    | .spi => f s
    | .pcie =>
      if !s.pcie.linkUp then s
      else if s.get Reg.PCX_LINK Fl.PCX_LINK_DSTATE = 3 then { s with pcie := { s.pcie with unsupported := s.pcie.unsupported + 1 } }
      else f s

/-! ## BAR4 (R119) -/

def bar4Access (off size : Nat) (write : Bool) : Access := ⟨2, off, write, byteEnables off size⟩

/-- A write into BAR4: a naturally aligned 32-bit or 64-bit word of the MSI-X table; the pending-bit array is read only. -/
def bar4Write (s : State) (off size : Nat) (val : BitVec 64) : State :=
  if (size ≠ 4 ∧ size ≠ 8) ∨ off % size ≠ 0 then s.ael .pcie (bar4Access off size true) .size
  else if off + size ≤ 264 * 16 then
    let t := cellsSet msixReset s.pcie.msixTable off (BitVec.ofNat 32 val.toNat)
    let t := if size = 8 then cellsSet msixReset t (off + 4) (BitVec.ofNat 32 (val.toNat / 2 ^ 32)) else t
    { s with pcie := { s.pcie with msixTable := t } }.flushPba
  else if 0x2000 ≤ off ∧ off < 0x2028 then s
  else s.ael .pcie (bar4Access off size true) .unassigned

/-- REGISTER_WRITE: an access of `size` bytes at an offset of BAR0 or BAR4. The service SPI writes 32-bit words of BAR0.
DESIGN CHOICE, log entry 57. -/
def registerWrite (s : State) (p : Path) (bar : Bar) (off size : Nat) (val : BitVec 64) : State :=
  match p, bar with
  | .spi, _ => s.busWrite .spi off (BitVec.ofNat 32 val.toNat)
  | .pcie, .bar4 => s.bar4Write off size val
  | .pcie, .bar0 =>
    if size = 4 ∧ off % 4 = 0 then s.busWrite .pcie off (BitVec.ofNat 32 val.toNat)
    else s.ael .pcie ⟨0, off, true, byteEnables off size⟩ .size

end State

end Sys2Proof.Machine
end

