-- ==== Sys2Proof/Machine/Host.lean ====
section
/-! DEFINITION. The host attachment (chapter 4): the PCI Express endpoint and the loss of the host (R106 to R127), BAR2 (R117, R118), the
service SPI (R128 to R134) and the boot flash operations (R141, R142). -/
namespace Sys2Proof.Machine

/-! ## BAR2 (Table 4-4) -/

/-- The memory and the address in it of a BAR2 offset. -/
def bar2Memory (off : Nat) : Option (Nat × Nat) :=
  if off < 0x1000000 then some (stsId, off)
  else if off < 0x1600000 then some (wsId, off - 0x1000000)
  else if off < 0x1800000 then some (chtId, off - 0x1600000)
  else if off < 0x1980000 then some (mceLbId, off - 0x1800000)
  else if off < 0x19A0000 then some (eleLbId, off - 0x1980000)
  else if 0x1A00000 ≤ off ∧ off < 0x1A80000 then some (tdrId, off - 0x1A00000)
  else none

/-- The slice of Table 16-1 that holds an address. -/
def memSlice (id a : Nat) : Nat :=
  if id = stsId then a / 0x200000
  else if id = wsId then 8 + a / 0x200000
  else if id = chtId then 16
  else if id = mceLbId then 11 + a / 0xC0000
  else if id = eleLbId then 13
  else 14 + a / 0x40000

/-- The fault source of a memory's uncorrectable reads (Table 15-1). -/
def memSource (id : Nat) : Nat :=
  if id = stsId then 8 else if id = wsId then 9 else if id = chtId then 14 else if id = mceLbId then 10 else if id = eleLbId then 11 else 13

def bar2Access (off be : Nat) (write : Bool) : Access := ⟨1, off, write, be⟩

/-- Byte enables of the first doubleword of a burst of `n` bytes with these enables. -/
def firstEnables (off : Nat) (en : List Bool) : Nat :=
  (List.range 4).foldl (fun m i => m + 2 ^ i * ofBool (decide (off % 4 ≤ i) && en.getD (i - off % 4) false)) 0

namespace State

/-- The WEIGHTS-REF regions that hold a weight-store byte. -/
def wrefsAt (s : State) (a : Nat) : List Nat :=
  (List.range 16).filter fun i => s.hasSec 0x12 i && decide (u32 (s.sec 0x12 i) 0 ≤ a ∧ a < u32 (s.sec 0x12 i) 0 + u32 (s.sec 0x12 i) 4)

/-- R89: the region of the byte is named by the program of a function that is not STOPPED. -/
def weightProtected (s : State) (a : Nat) : Bool :=
  (s.wrefsAt a).any fun i => s.chartFns.any fun n => !s.fnStopped n && s.fnWref n == some i

/-- Why a read of the byte at a BAR2 offset is refused. -/
def bar2ReadReason (s : State) (off : Nat) : Option Reason :=
  if s.isPark then some .park
  else match bar2Memory off with
    | none => some .unassigned
    | some (id, a) =>
      if s.sliceFenced (memSlice id a) then some .busyMem
      else if id = wsId ∨ id = chtId then none
      else if s.allStopped then none
      else some .busyMem

/-- Why a write of the byte at a BAR2 offset is refused. -/
def bar2WriteReason (s : State) (p : Path) (off : Nat) : Option Reason :=
  if s.isPark then some .park
  else match bar2Memory off with
    | none => some .unassigned
    | some (id, a) =>
      if s.sliceFenced (memSlice id a) then some .busyMem
      else if id = stsId then (if s.allStopped then none else some .readOnly)
      else if id = wsId then (if s.weightProtected a then some .weight else none)
      else if id = chtId then (if s.storeRefuses p [a] then some .store else none)
      else some .readOnly

/-- The byte that a read returns, refused or not. -/
def bar2Byte (s : State) (off : Nat) : Byte :=
  match s.bar2ReadReason off, bar2Memory off with
  | none, some (id, a) => (s.getMem id).read id a
  | _, _ => 0

/-- The first reason of a list. -/
def firstReason : List (Option Reason) → Option Reason
  | [] => none
  | some r :: _ => some r
  | none :: l => firstReason l

/-- A read of `n` bytes (R117, R118, R472); `ecc` is the offset at which an uncorrectable error is met. The last part of the answer says
that it was. The access is recorded once (R526). DESIGN CHOICE, log entry 18. -/
def bar2Read (s : State) (p : Path) (off n : Nat) (ecc : Option Nat) : State × List Byte × Bool :=
  let offs := (List.range n).map (off + ·)
  let be := match p with | .pcie => firstEnables off (List.replicate n true) | .spi => 0xF
  let data := offs.map s.bar2Byte
  let hit := ecc.bind fun e => if offs.contains e && (s.bar2ReadReason e).isNone then bar2Memory e else none
  let t := match firstReason (offs.map s.bar2ReadReason ++ [hit.map fun _ => .ecc]) with
    | some r => s.ael p (bar2Access off be false) r
    | none => s
  match hit with
  | some (id, _) => (t.raise (memSource id), data, true)
  | none => (t, data, false)

/-- R88: a written byte of a region clears VERIFIED. -/
def weightWritten (s : State) (a : Nat) : State :=
  (s.wrefsAt a).foldl (fun s i => (s.put (Reg.CHT_WREF i) Fl.CHT_WREF_VERIFIED 0).put (Reg.CHT_WREF i) Fl.CHT_WREF_DIRTY 1) s

/-- A byte that is not refused is stored. -/
def bar2Put (s : State) (off : Nat) (b : Byte) : State :=
  match bar2Memory off with
  | some (id, a) => let s := s.setMem id ((s.getMem id).write a b); if id = wsId then s.weightWritten a else s
  | none => s

/-- A write of consecutive bytes; `none` is a byte whose enable is 0. Each refused byte has no effect; the write is recorded once.
DESIGN CHOICE, log entry 18. DEDUCED, log entry 19. DEDUCED, log entry 47. -/
def bar2Write (s : State) (p : Path) (off : Nat) (data : List (Option Byte)) : State :=
  let l := data.zipIdx.filterMap fun x => x.1.map fun b => (off + x.2, b)
  let be := match p with | .pcie => firstEnables off (data.map (·.isSome)) | .spi => 0xF
  let ok := l.filter fun x => (s.bar2WriteReason p x.1).isNone
  let t := match firstReason (l.map fun x => s.bar2WriteReason p x.1) with
    | some r => s.ael p (bar2Access off be true) r
    | none => s
  ok.foldl (fun t x => t.bar2Put x.1 x.2) t

/-- What a BAR2 read returned, as its path keeps it. DEDUCED, log entry 46. -/
def bar2Answer (s : State) (p : Path) (off n : Nat) (ecc : Option Nat) : State :=
  let r := s.bar2Read p off n ecc
  let x := r.1.pathOf p
  match p with
  | .pcie => r.1.setPath p { x with block := r.2.1, poisoned := r.2.2 }
  | .spi => r.1.setPath p { x with block := if r.2.2 then List.replicate n 0 else r.2.1, poisoned := false }

/-! ## The endpoint -/

/-- R110: the configuration space and BAR4 return to their reset values. -/
def configReset (s : State) : State :=
  let s := { s with pcie := { s.pcie with msixTable := [], pba := [], msixEnable := false, functionMask := false } }
  (s.put Reg.PCX_LINK Fl.PCX_LINK_BME 0).put Reg.PCX_LINK Fl.PCX_LINK_DSTATE 0

def linkEvent (s : State) (f : Fld) : State := s.put Reg.PCX_LINK_EVENT f 1

/-- The Data Link Layer goes down; the link trains again unless PERST_N holds it (PRESUMED, log entry 32). -/
def linkDrop (s : State) : State :=
  if s.pcie.linkUp then
    ({ s with pcie := { s.pcie with linkUp := false, training := !s.pcie.perst } }.put Reg.PCX_LINK Fl.PCX_LINK_DL_UP 0).linkEvent
      Fl.PCX_LINK_EVENT_DL_DOWN
  else { s with pcie := { s.pcie with training := s.pcie.training && !s.pcie.perst } }

/-- R124: FIELD is committed and asks for fail-safe. -/
def surpriseFailsafe (s : State) : Bool := s.hasSec 0x05 0 && u8 s.field 0xF4 == 0

/-- A host-loss event of a kind (R123, R126, R127). -/
def hostLoss (s : State) (kind : Nat) : State :=
  let was := s.flag Reg.PCX_HOSTLOSS Fl.PCX_HOSTLOSS_ACTIVE
  let s := (s.bump Reg.PCX_HOSTLOSS Fl.PCX_HOSTLOSS_COUNT).put Reg.PCX_HOSTLOSS Fl.PCX_HOSTLOSS_KIND kind
  let s := s.setPair Reg.PCX_HOSTLOSS_TS_LO Reg.PCX_HOSTLOSS_TS_HI s.ts64
  let s := (s.put Reg.PCX_HOSTLOSS Fl.PCX_HOSTLOSS_ACTIVE 1).put Reg.EVT_PULSE Fl.EVT_PULSE_HOSTLOSS 1
  if was || s.isSafe then s
  else
    let s := (List.range 8).foldl (fun s n => s.leaveService n 5) s
    let s := (List.range 128).foldl hostLossRing s
    if s.surpriseFailsafe then s.put Reg.PCX_HOSTLOSS Fl.PCX_HOSTLOSS_FIELD_HELD 1 else s

/-- R96: surprise removal ends the PCI Express session. DEDUCED, log entry 60. -/
def sessionLost (s : State) : State := if s.sessionOf .pcie then s.sessionEnd else s

def bme (s : State) : Bool := s.flag Reg.PCX_LINK Fl.PCX_LINK_BME

/-- The loss of the host with what `change` does to the link and the configuration space: the event comes first, while SCLK runs. -/
def hostEvent (s : State) (kind : Nat) (change : State → State) : State :=
  if !s.alive || !s.clk.sclk then change s
  else
    let s := if s.bme then s.hostLoss kind else s
    change (if kind ≤ 5 then s.sessionLost else s)

/-- R436: a host-loss event clears every EVT_VPEND bit, those of this cycle included. -/
def clearVpend (s : State) : State := (List.range 9).foldl (fun s k => s.setReg (Reg.EVT_VPEND k) 0) s

/-- While SCLK is absent nothing is recorded, but the endpoint follows its pins and its link (R127). -/
def linkRecord (s : State) (f : State → State) : State := if s.alive && s.clk.sclk then f s else s

def perstAssert (s : State) : State :=
  if s.pcie.perst then s
  else
    let t := { s with pcie := { s.pcie with perst := true } }
    t.hostEvent 2 fun s => ((s.linkRecord fun s => s.linkEvent Fl.PCX_LINK_EVENT_PERST).linkDrop).configReset

def perstDeassert (s : State) : State := { s with pcie := { s.pcie with perst := false } }

/-- R109: training starts after the flash directory has been read, with PERST_N deasserted. -/
def linkTrain (s : State) : State :=
  if s.alive && decide (6 ≤ s.pw.bootStep) && !s.pcie.perst && !s.pcie.linkUp then { s with pcie := { s.pcie with training := true } } else s

def changed (s : State) (f ev : Fld) (v : Nat) : State :=
  let was := s.get Reg.PCX_LINK f
  let s := s.put Reg.PCX_LINK f v
  if was ≠ 0 ∧ was ≠ s.get Reg.PCX_LINK f then s.linkEvent ev else s

/-- DEDUCED, log entry 41. -/
def linkUp (s : State) (speed width : Nat) : State :=
  if s.alive && s.pcie.training && !s.pcie.perst then
    let s := { s with pcie := { s.pcie with linkUp := true, training := false } }.put Reg.PCX_LINK Fl.PCX_LINK_DL_UP 1
    ((s.linkEvent Fl.PCX_LINK_EVENT_DL_UP).changed Fl.PCX_LINK_SPEED Fl.PCX_LINK_EVENT_SPEED_CHG speed).changed Fl.PCX_LINK_WIDTH
      Fl.PCX_LINK_EVENT_WIDTH_CHG width
  else s

/-- Link-down, hot reset and link disable: the link goes down and the configuration space is reset. -/
def linkLost (s : State) (kind : Nat) : State := if s.pcie.linkUp then s.hostEvent kind fun s => s.linkDrop.configReset else s

def flr (s : State) : State :=
  if s.pcie.linkUp then s.hostEvent 5 fun s => (s.linkRecord fun s => s.linkEvent Fl.PCX_LINK_EVENT_FLR).configReset else s

def bmeClear (s : State) : State := if s.pcie.linkUp then s.hostEvent 6 fun s => s.put Reg.PCX_LINK Fl.PCX_LINK_BME 0 else s

def inD3 (s : State) : Bool := s.get Reg.PCX_LINK Fl.PCX_LINK_DSTATE == 3
def d3Entry (s : State) : State :=
  if s.pcie.linkUp && !s.inD3 then s.hostEvent 7 fun s => s.put Reg.PCX_LINK Fl.PCX_LINK_DSTATE 3 else s
/-- R110: No_Soft_Reset is 0. -/
def d0Entry (s : State) : State := if s.pcie.linkUp && s.inD3 then s.configReset else s

/-- R121: a poisoned write has no effect, is recorded and reported. -/
def poisonedWrite (s : State) (space off be : Nat) : State :=
  s.onBus .pcie fun s => { s with pcie := { s.pcie with poisoned := s.pcie.poisoned + 1 } }.ael .pcie ⟨space, off, true, be⟩ .poisoned

def unsupportedRequest (s : State) : State :=
  if s.alive && s.clk.sclk && s.pcie.linkUp then { s with pcie := { s.pcie with unsupported := s.pcie.unsupported + 1 } } else s

/-- R435, R436: MSI-X Enable, the Function Mask and Bus Master Enable are written. What becomes sendable together goes out in ascending
order: the pending vectors join the pending-bit array, which is then emptied. DEDUCED, log entry 42. DEDUCED, log entry 107. -/
def msixConfig (s : State) (enable fmask master : Bool) : State :=
  if !s.alive || !s.pcie.linkUp then s
  else
    let was := s.pcie.msixEnable && s.bme
    let s := { s with pcie := { s.pcie with msixEnable := enable, functionMask := true } }
    let s := if master then s.put Reg.PCX_LINK Fl.PCX_LINK_BME 1 else s
    let s := if !was && s.pcie.msixEnable && s.bme && s.trapAsserted then s.vpend 0 true else s
    let s := s.flushVectors
    { s with pcie := { s.pcie with functionMask := fmask } }.flushPba

/-! ## Service SPI -/

/-- Where an SPI address leads: BAR0, BAR2, or nowhere. -/
inductive SpiSpace
  | bar0 (off : Nat)
  | bar2 (off : Nat)
  | other
  deriving DecidableEq, Repr

/-- DEDUCED, log entry 45. -/
def spiSpace (a : Nat) : SpiSpace :=
  if a / 2 ^ 24 = 0 then .bar0 a
  else if a / 2 ^ 28 = 2 ∧ a / 2 ^ 25 % 8 = 0 then .bar2 (a % 2 ^ 25)
  else .other

/-- Why the bus does not see an access to an SPI address (R3): a misaligned address, or one outside both spaces. -/
def spiRefusal (a : Nat) (write : Bool) : Option (Access × Reason) :=
  match spiSpace a with
  | .other => some (⟨3, a % 2 ^ 25, write, 0xF⟩, .unassigned)
  | .bar0 off => if off % 4 = 0 then none else some (⟨0, off, write, 0xF⟩, .size)
  | .bar2 off => if off % 4 = 0 then none else some (⟨1, off, write, 0xF⟩, .size)

/-- One word of a WRITE frame reaches its register or memory. -/
def spiWord (s : State) (a : Nat) (w : Word) : State :=
  match spiRefusal a true, spiSpace a with
  | some (x, r), _ => s.ael .spi x r
  | none, .bar0 off => s.busWrite .spi off w
  | none, .bar2 off => s.bar2Write .spi off ((wordLe w).map some)
  | none, .other => s

def leWord (l : List Byte) : Word := BitVec.ofNat 32 (l.zipIdx.foldl (fun n x => n + x.1.toNat * 2 ^ (8 * x.2)) 0)

/-- One word of a READ frame; none while the relay has still to answer. -/
def spiFetch (s : State) (a : Nat) (ecc : Bool) : State × Option Word :=
  match spiRefusal a false, spiSpace a with
  | some (x, r), _ => (s.ael .spi x r, some 0)
  | none, .bar0 off => s.busRead .spi off
  | none, .bar2 off => let r := s.bar2Read .spi off 4 (if ecc then some off else none); (r.1, some (if r.2.2 then 0 else leWord r.2.1))
  | none, .other => (s, some 0)

/-- R130: the access of an SPI address is recorded in SSP_AEL. -/
def spiLogged (s : State) (a : Nat) (ecc : Bool) : Bool :=
  match spiRefusal a false, spiSpace a with
  | some _, _ => true
  | none, .bar0 off => (s.busReason off 4).isSome || (inFx off && !fxAssigned (off - fxBase))
  | none, .bar2 off => ecc || (List.range 4).any fun i => (s.bar2ReadReason (off + i)).isSome
  | none, .other => true

/-- RSTAT. -/
def rstatOf (finished logged : Bool) : Nat := 0x80 + 0x40 * ofBool finished + 0x20 * ofBool logged

/-- Bytes of a word, highest first. -/
def wordBe (w : Word) : List Nat := [w.toNat / 2 ^ 24, w.toNat / 2 ^ 16 % 256, w.toNat / 2 ^ 8 % 256, w.toNat % 256]

def modSpi (s : State) (f : Spi → Spi) : State := { s with spi := f s.spi }
def spiOut (s : State) (l : List Nat) : State := s.modSpi fun x => { x with out := l }

/-- A write of the service SPI waits at the relay: later writes of the path are held (R115). -/
def spiHeld (s : State) : Bool := s.hz.relayWait.any fun r => r.path == some .spi && r.op == .write

/-- R131: a WRITE frame queues its words. -/
def spiWrite (s : State) (addr : Word) (words : List Word) : State :=
  let room := 16 - s.spi.wfifo.length
  let l := words.zipIdx.map fun x => ((addr.toNat + 4 * x.2) % 2 ^ 32, x.1)
  let s := s.spiOut (s.sspStatusByte :: List.replicate (4 + 4 * words.length) 0)
  (s.modSpi fun x => { x with wfifo := x.wfifo ++ l.take room }).bumpBy Reg.SSP_ERR1 Fl.SSP_ERR1_OVERFLOW (words.length - room)

/-- The oldest word of the write FIFO is written. -/
def spiDrain (s : State) : State :=
  match s.spi.wfifo with
  | [] => s
  | x :: r => if s.spiHeld then s else (s.modSpi fun y => { y with wfifo := r }).spiWord x.1 x.2

/-- The result of the first word of the last READ. -/
def spiResultIs (s : State) (finished logged : Bool) (w : Word) : State := s.modSpi fun x => { x with rstat := rstatOf finished logged, rdata := w }

/-- One word of a READ frame; the part of the answer beside the state is what is shifted out, none where it is late. -/
def spiReadWord (s : State) (a : Nat) (first : Bool) (x : SpiWord) : State × Option Word :=
  if !x.inTime || !s.spi.wfifo.isEmpty || s.spiHeld || !s.spi.late.isEmpty then
    (s.modSpi fun y => { y with late := y.late ++ [⟨a, first, x.ecc⟩] }, none)
  else
    let logged := s.spiLogged a x.ecc
    match s.spiFetch a x.ecc with
    | (s, some w) => (if first then s.spiResultIs true logged w else s, some w)
    | (s, none) => (s.modSpi fun y => { y with late := [⟨a, first, x.ecc⟩], relayed := true }, none)

/-- Continuation words (R132). -/
def spiContinue (s : State) (a : Nat) : List SpiWord → State × List Nat
  | [] => (s, [])
  | x :: r =>
    match s.spiReadWord a false x with
    | (t, some w) => let y := spiContinue t ((a + 4) % 2 ^ 32) r; (y.1, wordBe w ++ y.2)
    | (t, none) => let y := spiContinue (t.bump Reg.SSP_ERR0 Fl.SSP_ERR0_READ_LATE) ((a + 4) % 2 ^ 32) r; (y.1, [0, 0, 0, 0] ++ y.2)

/-- R132: a READ frame of one first word and its continuation words. -/
def spiRead (s : State) (addr : Word) (first : SpiWord) (rest : List SpiWord) : State :=
  let d := s.get Reg.SSP_CFG Fl.SSP_CFG_DUMMY + 1
  let head := s.sspStatusByte :: List.replicate (4 + d) 0
  let s := s.modSpi fun x => { x with late := x.late.map fun y => { y with first := false }, rstat := rstatOf false false, rdata := 0 }
  let one := s.spiReadWord addr.toNat true first
  let more := one.1.spiContinue ((addr.toNat + 4) % 2 ^ 32) rest
  more.1.spiOut (head ++ one.1.spi.rstat :: wordBe (one.2.getD 0) ++ more.2)

/-- The oldest outstanding read ends with this answer. -/
def spiLateEnd (s : State) (x : SpiLate) (logged : Bool) (w : Word) : State :=
  let s := s.modSpi fun y => { y with late := y.late.drop 1, relayed := false }
  if x.first then s.spiResultIs true logged w else s

/-- The oldest outstanding read of the port completes (R132): after the write FIFO has drained, and a relayed one after its answer.
DEDUCED, log entry 50. -/
def spiReadComplete (s : State) : State :=
  match s.spi.late with
  | [] => s
  | x :: _ =>
    let logged := s.spiLogged x.addr x.ecc
    if s.spi.relayed then
      match s.spiPath.lastRead with
      | some w => s.spiLateEnd x logged w
      | none => s
    else if !s.spi.wfifo.isEmpty || s.spiHeld then s
    else match s.spiFetch x.addr x.ecc with
      | (s, some w) => s.spiLateEnd x logged w
      | (s, none) => s.modSpi fun y => { y with relayed := true }

/-- DEDUCED, log entry 49. -/
def spiResult (s : State) : State := s.spiOut (s.sspStatusByte :: s.spi.rstat :: wordBe s.spi.rdata)
def spiStatus (s : State) : State := s.spiOut (s.sspStatusByte :: wordBe s.sspStatus)
def spiId (s : State) : State := s.spiOut (s.sspStatusByte :: wordBe (s.shown Reg.SYS_ID))
def spiBad (s : State) : State := (s.spiOut [s.sspStatusByte]).bump Reg.SSP_ERR0 Fl.SSP_ERR0_BAD_CMD

/-- R134: SSCS_N rises after `edges` rising edges of SSCK; `write` says that the frame was a WRITE. DEDUCED, log entry 48. -/
def spiFrameEnd (s : State) (write : Bool) (edges : Nat) : State :=
  let s := s.spiOut (s.spi.out.take (edges / 8))
  let s := if edges % 8 = 0 then s else s.bump Reg.SSP_ERR0 Fl.SSP_ERR0_PARTIAL
  if write && decide (5 < edges / 8) && (edges / 8 - 5) % 4 != 0 then s.bump Reg.SSP_ERR0 Fl.SSP_ERR0_SHORT else s

/-- BSP_OP written. -/
def bspOp (s : State) (p : Path) (op : Word) : State := s.onBus p fun s => s.busWrite p Reg.BSP_OP op

end State

/-! ## Commands -/

/-- What a command ends with that may be a host-loss event (R436). -/
def State.endedLoss (s s' : State) (lost : Bool) : State :=
  if lost then { s'.settle.clearVpend with pending := s.pending, react := [] } else s.ended s'

/-- How such a command ends. -/
def finishLoss (s s' : State) (lost : Bool) : Host.Outcome State Fault Refusal := .next (s.endedLoss s' lost)

/-- A host-loss event happens in `s` if `now` holds (R122). -/
def State.loses (s : State) (now : Bool) : Bool := now && s.alive && s.clk.sclk && s.bme

def execPerstAssert (t : Nat) (s : State) : Host.Outcome State Fault Refusal :=
  finishLoss s (s.atTime t).perstAssert ((s.atTime t).loses !s.pcie.perst)
def execPerstDeassert (s : State) : Host.Outcome State Fault Refusal := finish s s.perstDeassert
def execPcieLinkTrainStart (t : Nat) (s : State) : Host.Outcome State Fault Refusal := finish s (s.atTime t).linkTrain
def execPcieLinkUp (speed width t : Nat) (s : State) : Host.Outcome State Fault Refusal := finish s ((s.atTime t).linkUp speed width)
def execPcieLinkDown (t : Nat) (s : State) : Host.Outcome State Fault Refusal :=
  finishLoss s ((s.atTime t).linkLost 1) ((s.atTime t).loses s.pcie.linkUp)
def execPcieHotReset (t : Nat) (s : State) : Host.Outcome State Fault Refusal :=
  finishLoss s ((s.atTime t).linkLost 3) ((s.atTime t).loses s.pcie.linkUp)
def execPcieLinkDisable (t : Nat) (s : State) : Host.Outcome State Fault Refusal :=
  finishLoss s ((s.atTime t).linkLost 4) ((s.atTime t).loses s.pcie.linkUp)
def execPcieFlr (t : Nat) (s : State) : Host.Outcome State Fault Refusal :=
  finishLoss s (s.atTime t).flr ((s.atTime t).loses s.pcie.linkUp)
def execPcieBmeClear (t : Nat) (s : State) : Host.Outcome State Fault Refusal :=
  finishLoss s (s.atTime t).bmeClear ((s.atTime t).loses s.pcie.linkUp)
def execPcieD3hotEntry (t : Nat) (s : State) : Host.Outcome State Fault Refusal :=
  finishLoss s (s.atTime t).d3Entry ((s.atTime t).loses (s.pcie.linkUp && !s.inD3))
def execPcieD0Entry (s : State) : Host.Outcome State Fault Refusal := finish s s.d0Entry
def execPciePoisonedWrite (space : Fin 3) (off : Nat) (be : Fin 16) (s : State) : Host.Outcome State Fault Refusal :=
  finish s (s.poisonedWrite space.val off be.val)
def execPcieUnsupportedRequest (s : State) : Host.Outcome State Fault Refusal := finish s s.unsupportedRequest
def execMsixEnable (enable fmask master : Bool) (s : State) : Host.Outcome State Fault Refusal := finish s (s.msixConfig enable fmask master)
def execBar2Write (p : Path) (off : Nat) (data : List (Option Byte)) (s : State) : Host.Outcome State Fault Refusal :=
  finish s (s.onBus p fun s => s.bar2Write p off data)
def execBar2Read (p : Path) (off n : Nat) (ecc : Option Nat) (s : State) : Host.Outcome State Fault Refusal :=
  finish s (s.onBus p fun s => s.bar2Answer p off n ecc)
def execSpiWrite (addr : Word) (words : List Word) (s : State) : Host.Outcome State Fault Refusal :=
  finish s (s.onBus .spi fun s => s.spiWrite addr words)
def execSpiRead (addr : Word) (first : SpiWord) (rest : List SpiWord) (s : State) : Host.Outcome State Fault Refusal :=
  finish s (s.onBus .spi fun s => s.spiRead addr first rest)
def execSpiReadComplete (s : State) : Host.Outcome State Fault Refusal := finish s (s.onBus .spi State.spiReadComplete)
def execSpiResult (s : State) : Host.Outcome State Fault Refusal := finish s (s.onBus .spi State.spiResult)
def execSpiStatus (s : State) : Host.Outcome State Fault Refusal := finish s (s.onBus .spi State.spiStatus)
def execSpiId (s : State) : Host.Outcome State Fault Refusal := finish s (s.onBus .spi State.spiId)
def execSpiBadCommand (s : State) : Host.Outcome State Fault Refusal := finish s (s.onBus .spi State.spiBad)
def execSpiFrameEnd (write : Bool) (edges : Nat) (s : State) : Host.Outcome State Fault Refusal :=
  finish s (s.onBus .spi fun s => s.spiFrameEnd write edges)
def execSpiWfifoDrain (s : State) : Host.Outcome State Fault Refusal := finish s (s.onBus .spi State.spiDrain)
def execSspErrClear (p : Path) (val : Word) (s : State) : Host.Outcome State Fault Refusal :=
  finish s (s.onBus p fun s => s.busWrite p Reg.SSP_ERR_CLR val)
def execBspRead (p : Path) (s : State) : Host.Outcome State Fault Refusal := finish s (s.bspOp p 1)
def execBspErase4k (p : Path) (s : State) : Host.Outcome State Fault Refusal := finish s (s.bspOp p 2)
def execBspProgram (p : Path) (s : State) : Host.Outcome State Fault Refusal := finish s (s.bspOp p 3)
def execBspOpComplete (t : Nat) (s : State) : Host.Outcome State Fault Refusal := finish s ((s.atTime t).up State.flashDone)
def execBspTimeout (t : Nat) (s : State) : Host.Outcome State Fault Refusal := finish s ((s.atTime t).up State.flashTimeout)

end Sys2Proof.Machine
end

