-- ==== Sys2Proof/Machine/Field.lean ====
section
/-! DEFINITION. The events on the pins of Jens: position feedback and emulators (chapter 6), gates and the field serial port (chapter 7), the
Zhombe lines (chapter 8). Jens acts while VF is power-good, whatever Nahar does. -/
namespace Sys2Proof.Machine

/-- Jens has power. -/
def State.powered (s : State) (f : State → State) : State := if s.pw.vf then f s else s

/-! ## Chapter 6 -/

def execPfiQuadEdge (c : Fin 4) (a b z : Bool) (t : Nat) (s : State) : Host.Outcome State Fault Refusal :=
  finish s ((s.atTime t).powered fun s => s.quadEdge c a b z)
def execPfiToothEdge (c : Fin 4) (t : Nat) (s : State) : Host.Outcome State Fault Refusal := finish s ((s.atTime t).powered fun s => s.toothEdge c)
def execPfiStandstill (c : Fin 4) (t : Nat) (s : State) : Host.Outcome State Fault Refusal := finish s ((s.atTime t).powered fun s => s.standstill c)
/-- R207: at every timestamp that is a multiple of 500. -/
def execEmuRateUpdate (e : Fin 2) (t : Nat) (s : State) : Host.Outcome State Fault Refusal :=
  finish s (if t % 500 = 0 ∧ s.clk.ts ≤ t then (s.atTime t).powered fun s => s.emuRate e else s)
def execEmuCountEmit (e : Fin 2) (t : Nat) (s : State) : Host.Outcome State Fault Refusal := finish s ((s.atTime t).powered fun s => s.emuEmit e)

/-! ## Chapter 7 -/

def execGateFireDue (j : Fin 8) (t : Nat) (s : State) : Host.Outcome State Fault Refusal := finish s ((s.atTime t).powered fun s => s.gateFire j)
def execGatePeakEnd (j : Fin 8) (t : Nat) (s : State) : Host.Outcome State Fault Refusal := finish s ((s.atTime t).powered fun s => s.peakEnd j)
def execGateHoldEnd (j : Fin 8) (t : Nat) (s : State) : Host.Outcome State Fault Refusal := finish s ((s.atTime t).powered fun s => s.holdEnd j)
def execOvercurrent (k : Fin 4) (t : Nat) (s : State) : Host.Outcome State Fault Refusal := finish s ((s.atTime t).powered fun s => s.overcurrent k)
def execIsnsSample (k : Fin 4) (uv : Nat) (s : State) : Host.Outcome State Fault Refusal := finish s (s.powered fun s => s.isnsSample k uv)
def execFspMasterFrameStart (s : State) : Host.Outcome State Fault Refusal := finish s (s.powered State.fspFrameStart)
def execFspMasterWord (rx : Byte) (s : State) : Host.Outcome State Fault Refusal := finish s (s.powered fun s => s.fspMasterWord rx)
def execFspCsGapTimeout (s : State) : Host.Outcome State Fault Refusal := finish s (s.powered State.fspGap)
def execFspSlaveSelect (s : State) : Host.Outcome State Fault Refusal := finish s (s.powered State.fspSelect)
def execFspSlaveWord (rx : Byte) (s : State) : Host.Outcome State Fault Refusal := finish s (s.powered fun s => s.fspSlaveWord rx)
def execFspSlaveDeselect (bits : Fin 8) (s : State) : Host.Outcome State Fault Refusal := finish s (s.powered fun s => s.fspDeselect bits.val)

/-! ## Chapter 8 -/

def execZlTxnDispatch (l : Fin 2) (slots : List (Bool × Bool)) (scan : BitVec 24) (s : State) : Host.Outcome State Fault Refusal :=
  finish s (s.powered fun s => s.zlDispatch l slots scan)
def execZlReply (l : Fin 2) (delay : Nat) (periods lows : List Nat) (s : State) : Host.Outcome State Fault Refusal :=
  finish s (s.powered fun s => s.zlReply l delay periods lows)
def execZlReplyTimeout (l : Fin 2) (s : State) : Host.Outcome State Fault Refusal := finish s (s.powered fun s => s.zlNoReply l)
def execZlAttention (l : Fin 2) (collided : Bool) (scan : BitVec 24) (t : Nat) (s : State) : Host.Outcome State Fault Refusal :=
  finish s ((s.atTime t).powered fun s => s.zlAttention l collided scan)
def execZlSupervisePing (l : Fin 2) (s : State) : Host.Outcome State Fault Refusal := finish s (s.powered fun s => s.zlSupervise l)
def execZlStartReleaseEnd (l : Fin 2) (s : State) : Host.Outcome State Fault Refusal := finish s (s.powered fun s => s.zlReleaseEnd l)
def execZlStuck (l : Fin 2) (s : State) : Host.Outcome State Fault Refusal := finish s (s.powered fun s => s.zlStuck l)
def execZlReleased (l : Fin 2) (s : State) : Host.Outcome State Fault Refusal := finish s (s.powered fun s => s.zlReleased l)
def execZlGlitch (l : Fin 2) (s : State) : Host.Outcome State Fault Refusal := finish s (s.powered fun s => s.zlGlitch l)

end Sys2Proof.Machine
end

