-- ==== Sys2Proof/Machine/Link.lean ====
section
/-! DEFINITION. The events of Horizon (chapter 5): beats, training, phase measurement, loss detection and the relay's timers. -/
namespace Sys2Proof.Machine

namespace State

/-- Timestamp at which the beat of index `idx` is delivered (R143, R144). -/
def beatTime (idx : Nat) : Nat := 20 * idx + 80

/-- Beats exist while SCLK runs; one whose delivery lies in the past has been taken already. -/
def beatComes (s : State) (idx : Nat) : Bool := s.alive && s.clk.sclk && decide (s.clk.ts ≤ beatTime idx)

/-- What an intact beat brings to acquisition and to the wake sources; the frozen blocks of the safe state take nothing. -/
def takeNews (s : State) (x : FieldNews) : State :=
  let s := x.miri.foldl (fun s e =>
    let s := if s.isSafe then s else s.miriEdge e.1 e.2.1 e.2.2
    s.wakeMiri e.1) s
  let s := match x.zev with
    | some v =>
      if v / 64 % 2 = 0 then
        let s := if s.isSafe then s else s.zevEdge (v / 32 % 2) (v % 32)
        s.wakeZl (v / 32 % 2)
      else s
    | none => s
  let s := if x.intact && !s.isSafe then s.positionChecks else s
  if s.isSafe then s else s.drainUnsent

/-- A field-to-host beat reaches Nahar; `w` is none where it does not arrive. -/
def fieldBeat (s : State) (idx : Nat) (w : Option (BitVec 64)) : State :=
  if s.hzState = 0 then s else let r := s.naharReceive idx w; r.1.takeNews r.2

/-- A host-to-field beat reaches Jens. DEDUCED, log entry 56. -/
def hostBeat (s : State) (idx : Nat) (w : Option (BitVec 64)) : State := if s.pw.vf then s.jensReceive idx w else s

/-- The levels of the MIRI pins that Jens samples at this boundary (R157). -/
def miriPins (s : State) (v : BitVec 12) : State := if s.pw.vf then s.modJens fun j => { j with miri := v } else s

/-- FIELD_TO_HOST_BEAT: `mask` is what the channel inverts. -/
def fieldToHost (s : State) (idx : Nat) (mask : BitVec 64) (miri : BitVec 12) : State :=
  if s.beatComes idx then
    let r := ((s.atTime (beatTime idx)).miriPins miri).takeFieldBeat idx
    r.1.fieldBeat idx (r.2.map (· ^^^ mask))
  else s

def hostToField (s : State) (idx : Nat) (mask : BitVec 64) : State :=
  if s.beatComes idx then
    let r := (s.atTime (beatTime idx)).takeHostBeat idx
    r.1.hostBeat idx (r.2.map (· ^^^ mask))
  else s

/-- MISSING_BEAT: the beat of this boundary does not arrive. -/
def missingBeat (s : State) (toJens : Bool) (idx : Nat) : State :=
  if s.beatComes idx then
    let s := s.atTime (beatTime idx)
    if toJens then (s.takeHostBeat idx).1.hostBeat idx none else (s.takeFieldBeat idx).1.fieldBeat idx none
  else s

/-- R149: a full training starts at boot step 10, or after a loss with AUTO_TRAIN set. DEDUCED, log entry 54. -/
def mayTrain (s : State) : Bool :=
  decide (s.hzState = 0) && decide (10 ≤ s.pw.bootStep) && !s.isPark &&
    (if s.hz.lost then s.flag Reg.HZ_CTRL Fl.HZ_CTRL_AUTO_TRAIN else s.get Reg.HZ_STATUS Fl.HZ_STATUS_FAIL_STEP == 0)

/-- R152: a phase measurement while UP; MIR_BAD_BEATS is copied with it. -/
def phaseMeasure (s : State) (ps : Int) (code : Nat) : State :=
  if s.hzUp then
    let s := (s.put Reg.HZ_PHASE Fl.HZ_PHASE_OFFSET_PS (unsigned 16 ps)).put Reg.HZ_PHASE Fl.HZ_PHASE_CODE code
    let s := s.setReg Reg.HZ_BAD_TX (s.jreg Reg.MIR_BAD_BEATS)
    if 1500 < ps.natAbs then (s.put Reg.HZ_EVENT Fl.HZ_EVENT_PHASE_LIMIT 1).naharLoss else s
  else s

/-- R154: the short retraining of the PARK exit completes, or fails at a step of Table 5-5 and a full training replaces it. DEDUCED, log entry 55. -/
def shortDone (s : State) (fail : Option Nat) : State :=
  if s.hzKeep && s.isPark && s.parkExit then
    if fail.isNone && s.pw.vf && !s.jens.fsLoss && !s.jens.fsUntrained && !s.jens.fsDetector then
      ((s.trainReload.trainUp true).modJens fun j => { j with fsKeep := false, fsHold := s.fsHoldNow }).fsUpdate
    else
      let s := (s.put Reg.HZ_EVENT Fl.HZ_EVENT_TRAIN_FAIL 1).put Reg.HZ_STATUS Fl.HZ_STATUS_FAIL_STEP (fail.getD 3)
      (s.put Reg.SYS_SVC Fl.SYS_SVC_HZ_OK 0).trainStart
  else s

/-- R183. -/
def attnPoll (s : State) : State :=
  if s.hzUp && s.hz.attn && !(s.hz.relayWait.any fun r => r.path.isNone) then s.relayQueue ⟨.read, none, Reg.MIR_ATTN, 0⟩ else s

end State

/-! ## Commands -/

def execFieldToHostBeat (idx : Nat) (mask : BitVec 64) (miri : BitVec 12) (s : State) : Host.Outcome State Fault Refusal :=
  finish s (s.fieldToHost idx mask miri)
def execHostToFieldBeat (idx : Nat) (mask : BitVec 64) (s : State) : Host.Outcome State Fault Refusal := finish s (s.hostToField idx mask)
def execMissingBeat (toJens : Bool) (idx : Nat) (s : State) : Host.Outcome State Fault Refusal := finish s (s.missingBeat toJens idx)
def execHzTrainStart (t : Nat) (s : State) : Host.Outcome State Fault Refusal :=
  finish s ((s.atTime t).up fun s => if s.mayTrain then s.trainStart else s)
def execHzJensLock (t : Nat) (s : State) : Host.Outcome State Fault Refusal := finish s ((s.atTime t).up State.jensLocked)
def execHzTrainUp (t : Nat) (s : State) : Host.Outcome State Fault Refusal :=
  finish s ((s.atTime t).up fun s => if 2 ≤ s.hzState ∧ s.hzState ≤ 4 ∧ s.pw.vf then s.trainedFull else s)
def execHzTrainFail (step t : Nat) (s : State) : Host.Outcome State Fault Refusal :=
  finish s ((s.atTime t).up fun s => if 2 ≤ s.hzState ∧ s.hzState ≤ 4 then s.trainFail step else s)
def execHzTrainWait (t : Nat) (s : State) : Host.Outcome State Fault Refusal :=
  finish s ((s.atTime t).up fun s => if s.hzState = 1 then s.put Reg.HZ_EVENT Fl.HZ_EVENT_TRAIN_WAIT 1 else s)
def execHzPhaseMeasure (ps : Int) (code : Nat) (s : State) : Host.Outcome State Fault Refusal := finish s (s.up fun s => s.phaseMeasure ps code)
def execHzShortRetrainDone (fail : Option Nat) (t : Nat) (s : State) : Host.Outcome State Fault Refusal :=
  finish s ((s.atTime t).up fun s => s.shortDone fail)
def execBeatLossDetect (s : State) : Host.Outcome State Fault Refusal := finish s (if s.pw.vf then s.beatLoss else s)
def execRelayTimeout (s : State) : Host.Outcome State Fault Refusal := finish s (s.up State.relayTimeout)
def execAttnPoll (s : State) : Host.Outcome State Fault Refusal := finish s (s.up State.attnPoll)

end Sys2Proof.Machine
end

