-- ==== Sys2Proof/Machine/Registers.lean ====
section
/-! DEFINITION. The commands that are accesses to registers: the pairs and the general write of chapter 0, and the registers whose writing or
reading has a row of its own. -/
namespace Sys2Proof.Machine

namespace State

/-- A register of Nahar is written through a path. -/
def write (s : State) (p : Path) (off : Nat) (val : Word) : State := s.onBus p fun s => s.busWrite p off val

/-- A register of Nahar is read through a path. -/
def read (s : State) (p : Path) (off : Nat) : State := s.onBus p fun s => s.pathRead p off

/-- A register of Jens is written through a path, and the write is taken on Jens in this step (R178, R179, R180). -/
def writeField (s : State) (p : Path) (a : Nat) (val : Word) : State :=
  s.onBus p fun s => match s.busReason (fxBase + a) 4 with
    | some r => s.ael p (bar0Access (fxBase + a) true) r
    | none => s.fxDirect p a val

/-- R231: OC_CLEAR reaches Jens while ISNSk stands below its threshold, or not. -/
def writeOcClear (s : State) (p : Path) (k : Fin 4) (val : Word) (below : Bool) : State :=
  let t := s.writeField p (Reg.GHS_CTRL k) (putF val Fl.GHS_CTRL_OC_CLEAR 0)
  let reaches := s.alive && s.clk.sclk && s.hzUp && (p == .spi || (s.pcie.linkUp && !s.inD3)) && (s.busReason (fxBase + Reg.GHS_CTRL k) 4).isNone
  match reaches, s.fxRelayed (Reg.GHS_CTRL k) val with
  | true, some w => if jbit w Fl.GHS_CTRL_OC_CLEAR then t.ocClear k below else t
  | _, _ => t

end State

/-! ## Chapter 0 -/

def execRegisterWrite (p : Path) (bar : Bar) (off size : Nat) (val : BitVec 64) (s : State) : Host.Outcome State Fault Refusal :=
  finish s (s.onBus p fun s => s.registerWrite p bar off size val)
def execPairLowRead (p : Path) (off : Nat) (s : State) : Host.Outcome State Fault Refusal := finish s (s.read p off)
def execPairHighRead (p : Path) (off : Nat) (s : State) : Host.Outcome State Fault Refusal := finish s (s.read p off)
def execPairLowWrite (p : Path) (off : Nat) (val : Word) (s : State) : Host.Outcome State Fault Refusal := finish s (s.write p off val)
def execPairHighWrite (p : Path) (off : Nat) (val : Word) (s : State) : Host.Outcome State Fault Refusal := finish s (s.write p off val)

/-! ## Chapters 1 and 2 -/

def execStart (p : Path) (n : Fin 8) (s : State) : Host.Outcome State Fault Refusal := finish s (s.write p (Reg.SYS_FN_CMD n) 1)
def execStop (p : Path) (n : Fin 8) (s : State) : Host.Outcome State Fault Refusal := finish s (s.write p (Reg.SYS_FN_CMD n) 2)
def execAbort (p : Path) (n : Fin 8) (s : State) : Host.Outcome State Fault Refusal := finish s (s.write p (Reg.SYS_FN_CMD n) 3)
def execPwrSleep (p : Path) (s : State) : Host.Outcome State Fault Refusal := finish s (s.write p Reg.PWR_CMD 1)
def execPwrPark (p : Path) (s : State) : Host.Outcome State Fault Refusal := finish s (s.write p Reg.PWR_CMD 2)
def execPwrWake (p : Path) (s : State) : Host.Outcome State Fault Refusal := finish s (s.write p Reg.PWR_CMD 3)
def execSysResetCmd (p : Path) (val : Word) (s : State) : Host.Outcome State Fault Refusal := finish s (s.write p Reg.SYS_RESET_CMD val)

/-! ## Chapters 3 and 4 -/

def execChtOpen (p : Path) (s : State) : Host.Outcome State Fault Refusal := finish s (s.write p Reg.CHT_CMD 1)
def execChtClose (p : Path) (s : State) : Host.Outcome State Fault Refusal := finish s (s.write p Reg.CHT_CMD 2)
def execChtCommit (p : Path) (scope : Byte) (s : State) : Host.Outcome State Fault Refusal :=
  finish s (s.write p Reg.CHT_CMD (wordOf [(Fl.CHT_CMD_CMD, 3), (Fl.CHT_CMD_SCOPE, scope.toNat)]))
def execChtDataWrite (p : Path) (val : Word) (s : State) : Host.Outcome State Fault Refusal := finish s (s.write p Reg.CHT_DATA val)
def execChtDataRead (p : Path) (s : State) : Host.Outcome State Fault Refusal := finish s (s.read p Reg.CHT_DATA)
def execHostlossRelease (p : Path) (val : Word) (s : State) : Host.Outcome State Fault Refusal :=
  finish s (s.write p Reg.PCX_HOSTLOSS_CTRL val)
def execAelClear (p target : Path) (val : Word) (s : State) : Host.Outcome State Fault Refusal :=
  finish s (s.write p (match target with | .pcie => Reg.PCX_AEL_CTRL | .spi => Reg.SSP_AEL_CTRL) val)

/-! ## Chapter 5 -/

def execHzRetrain (p : Path) (val : Word) (s : State) : Host.Outcome State Fault Refusal := finish s (s.write p Reg.HZ_CTRL val)
def execFxWrite (p : Path) (addr : Nat) (val : Word) (s : State) : Host.Outcome State Fault Refusal := finish s (s.write p (fxBase + addr) val)
def execFxRead (p : Path) (addr : Nat) (s : State) : Host.Outcome State Fault Refusal := finish s (s.read p (fxBase + addr))
def execHzSerTxWrite (p : Path) (val : Word) (s : State) : Host.Outcome State Fault Refusal := finish s (s.write p Reg.HZ_SER_TX val)
def execHzSerTxwWrite (p : Path) (val : Word) (s : State) : Host.Outcome State Fault Refusal := finish s (s.write p Reg.HZ_SER_TXW val)
def execHzSerRxRead (p : Path) (s : State) : Host.Outcome State Fault Refusal := finish s (s.read p Reg.HZ_SER_RX)
def execHzSerRxwRead (p : Path) (s : State) : Host.Outcome State Fault Refusal := finish s (s.read p Reg.HZ_SER_RXW)
def execHzCntClear (p : Path) (val : Word) (s : State) : Host.Outcome State Fault Refusal := finish s (s.write p Reg.HZ_CNT_CLR val)

/-! ## Registers of Jens (chapters 6 to 8) -/

def execPfiErrClear (p : Path) (c : Fin 4) (val : Word) (s : State) : Host.Outcome State Fault Refusal :=
  finish s (s.writeField p (Reg.PFI_ERR_CLR c) val)
def execEmuResync (p : Path) (e : Fin 2) (val : Word) (s : State) : Host.Outcome State Fault Refusal := finish s (s.writeField p (Reg.EMU_CTRL e) val)
def execEmuRatioWrite (p : Path) (e : Fin 2) (val : Word) (s : State) : Host.Outcome State Fault Refusal :=
  finish s (s.writeField p (Reg.EMU_RATIO e) val)
def execGateFlush (p : Path) (val : Word) (s : State) : Host.Outcome State Fault Refusal := finish s (s.writeField p Reg.GATE_FLUSH val)
def execOcClear (p : Path) (k : Fin 4) (val : Word) (below : Bool) (s : State) : Host.Outcome State Fault Refusal :=
  finish s (s.writeOcClear p k val below)
def execFspErrClear (p : Path) (val : Word) (s : State) : Host.Outcome State Fault Refusal := finish s (s.writeField p Reg.FSP_ERR_CLR val)
def execZlTxnStart (p : Path) (l : Fin 2) (val : Word) (s : State) : Host.Outcome State Fault Refusal :=
  finish s (s.writeField p (Reg.ZL_TXN_CMD l) val)
def execZlDiscover (p : Path) (l : Fin 2) (val : Word) (s : State) : Host.Outcome State Fault Refusal := finish s (s.writeField p (Reg.ZL_CTRL l) val)
def execZlBindNew (p : Path) (l : Fin 2) (val : Word) (s : State) : Host.Outcome State Fault Refusal := finish s (s.writeField p (Reg.ZL_CTRL l) val)
def execZlErrClear (p : Path) (l : Fin 2) (val : Word) (s : State) : Host.Outcome State Fault Refusal :=
  finish s (s.writeField p (Reg.ZL_ERR_CLR l) val)

/-! ## Chapters 9 to 13 -/

def execLnRecal (p : Path) (x : Fin 16) (val : Word) (s : State) : Host.Outcome State Fault Refusal := finish s ((s.write p (Reg.LN_CAL x) val))
def execLnCntClear (p : Path) (x : Fin 16) (val : Word) (s : State) : Host.Outcome State Fault Refusal := finish s (s.write p (Reg.LN_CNT_CLR x) val)
def execHcRead (p : Path) (q : Fin 4) (s : State) : Host.Outcome State Fault Refusal := finish s (s.write p (Reg.CP_HC_CMD q) 1)
def execHcWrite (p : Path) (q : Fin 4) (s : State) : Host.Outcome State Fault Refusal := finish s (s.write p (Reg.CP_HC_CMD q) 2)
def execCpRetrain (p : Path) (q : Fin 4) (val : Word) (s : State) : Host.Outcome State Fault Refusal := finish s (s.write p (Reg.CP_CTRL q) val)
def execCpCntClear (p : Path) (q : Fin 4) (val : Word) (s : State) : Host.Outcome State Fault Refusal := finish s (s.write p (Reg.CP_CNT_CLR q) val)
def execAcqCntClear (p : Path) (n : Fin 8) (val : Word) (s : State) : Host.Outcome State Fault Refusal := finish s (s.write p (Reg.ACQ_FN_CNT_CLR n) val)
def execLtgCntClear (p : Path) (q : Fin 4) (val : Word) (s : State) : Host.Outcome State Fault Refusal := finish s (s.write p (Reg.LTG_P_CNT_CLR q) val)
def execStsCntClear (p : Path) (val : Word) (s : State) : Host.Outcome State Fault Refusal := finish s (s.write p Reg.STS_CNT_CLR val)
def execEngineCntClear (p : Path) (u : Fin 2) (val : Word) (s : State) : Host.Outcome State Fault Refusal := finish s (s.write p (Reg.E_CNT_CLR u) val)
def execPstCntClear (p : Path) (val : Word) (s : State) : Host.Outcome State Fault Refusal := finish s (s.write p Reg.PST_CNT_CLR val)
def execVrdCntClear (p : Path) (n : Fin 8) (val : Word) (s : State) : Host.Outcome State Fault Refusal := finish s (s.write p (Reg.VRD_FN_CNT_CLR n) val)
def execVrdHitClear (p : Path) (val : Word) (s : State) : Host.Outcome State Fault Refusal := finish s (s.write p Reg.VRD_HIT_CLR val)

/-! ## Chapter 14 -/

def execDlvConsWrite (p : Path) (r : Fin 128) (val : Word) (s : State) : Host.Outcome State Fault Refusal := finish s (s.write p (Reg.DLV_CONS r) val)
def execDlvEnable (p : Path) (r : Fin 128) (val : Word) (s : State) : Host.Outcome State Fault Refusal := finish s (s.write p (Reg.DLV_CTRL r) val)
def execDlvDisable (p : Path) (r : Fin 128) (val : Word) (s : State) : Host.Outcome State Fault Refusal := finish s (s.write p (Reg.DLV_CTRL r) val)
def execDlvCntClear (p : Path) (r : Fin 128) (val : Word) (s : State) : Host.Outcome State Fault Refusal := finish s (s.write p (Reg.DLV_CNT_CLR r) val)
def execEvtMapWrite (p : Path) (src : Fin 256) (val : Word) (s : State) : Host.Outcome State Fault Refusal := finish s (s.write p (Reg.EVT_MAP src) val)
def execEvtVmaskWrite (p : Path) (k : Fin 9) (val : Word) (s : State) : Host.Outcome State Fault Refusal := finish s (s.write p (Reg.EVT_VMASK k) val)

/-! ## Chapter 15 -/

/-- The W1C write of FCU_STATUS takes effect with its high word; the low word is the path's shadow (R5). -/
def execFcuStatusClear (p : Path) (val : Word) (s : State) : Host.Outcome State Fault Refusal := finish s (s.write p Reg.FCU_STATUS_HI val)
def execFcuSafeCmd (p : Path) (val : Word) (s : State) : Host.Outcome State Fault Refusal := finish s (s.write p Reg.FCU_SAFE_CMD val)
def execFcuDebugHalt (p : Path) (s : State) : Host.Outcome State Fault Refusal := finish s (s.write p Reg.FCU_DEBUG 1)
def execFcuDebugResume (p : Path) (s : State) : Host.Outcome State Fault Refusal := finish s (s.write p Reg.FCU_DEBUG 0)
def execFcuInjectGo (p : Path) (val : Word) (s : State) : Host.Outcome State Fault Refusal := finish s (s.write p Reg.FCU_INJECT val)
def execFcuInjectIntegrity (p : Path) (val : Word) (s : State) : Host.Outcome State Fault Refusal := finish s (s.write p Reg.FCU_INJECT val)
def execFcuCntClear (p : Path) (val : Word) (s : State) : Host.Outcome State Fault Refusal := finish s (s.write p Reg.FCU_CNT_CLR val)
def execWdtEnable (p : Path) (s : State) : Host.Outcome State Fault Refusal := finish s (s.write p Reg.WDT_CTRL 1)
def execWdtKeyArm (p : Path) (s : State) : Host.Outcome State Fault Refusal := finish s (s.write p Reg.WDT_KEY 0x5A)
def execWdtKeyServe (p : Path) (s : State) : Host.Outcome State Fault Refusal := finish s (s.write p Reg.WDT_KEY 0xC3)
def execWdtKeyBad (p : Path) (val : Word) (s : State) : Host.Outcome State Fault Refusal := finish s (s.write p Reg.WDT_KEY val)

/-! ## Chapters 16 and 17 -/

def execBistRetest (p : Path) (val : Word) (s : State) : Host.Outcome State Fault Refusal := finish s (s.write p Reg.BIST_RETEST val)
def execCasRelink (p : Path) (val : Word) (s : State) : Host.Outcome State Fault Refusal := finish s (s.write p Reg.CAS_CTRL val)
def execCasCntClear (p : Path) (val : Word) (s : State) : Host.Outcome State Fault Refusal := finish s (s.write p Reg.CAS_CNT_CLR val)

end Sys2Proof.Machine
end

