-- ==== Sys2Proof/Machine/Service.lean ====
section
/-! DEFINITION. The events of functions and transits (chapters 1, 3 and 11 to 14), of the camera lanes and ports (chapters 9 and 10), of the
fault collector and the watchdog (chapter 15), and of the cascade port (chapter 17). -/
namespace Sys2Proof.Machine

namespace State

/-! ## Transits (chapter 11) -/

/-- R347: the sample that brackets the opening of a transit has arrived. -/
def lepFix (s : State) (n slot : Nat) : State :=
  match s.slotOf? n slot with
  | none => s
  | some t =>
    match t.lep, t.lepAt with
    | none, some x =>
      let r := s.edgeAt n x
      match r.2 with
      | some v => (r.1.fixLep n t.tid v).lepChecks n t.tid
      | none => r.1
    | _, _ => s

/-- R352: the transit closes when its conditions hold. -/
def transitClose (s : State) (n slot : Nat) : State :=
  match s.slotOf? n slot with
  | none => s
  | some t => if s.mayClose t then (s.closeTransit n t.tid false).afterClose n else s

/-- R359, R360: the line timer of a function advances by one, and a boundary opens a transit. -/
def timerTick (s : State) (n : Nat) : State :=
  let period := u32 (s.fnSec n) 0x10
  if !s.fnLineTimer n || !(s.fnArmed n || s.fnRunning n || s.fnDraining n) || decide (s.clk.ts < (s.fnRun n).lastTick + period) then s
  else
    let count := ((s.reg (Reg.LTG_TMR_COUNT n)).toNat + 1) % 2 ^ 32
    let s := (s.setReg (Reg.LTG_TMR_COUNT n) (BitVec.ofNat 32 count)).modFn n fun x => { x with lastTick := x.lastTick + period }
    let len := (s.reg (Reg.ACQ_FN_TIMER_LEN n)).toNat
    let s := if s.fnOpenSource n = 2 ∧ count % (len + (s.reg (Reg.ACQ_FN_TIMER_GAP n)).toNat) = 0 then
        let tid := (s.reg Reg.ACQ_TID_NEXT).toNat
        (s.openTransit n none (some count)).fixTep n tid ((count + len) % 2 ^ 32)
      else s
    s.positionChecks

/-! ## Weights (R88) -/

/-- The digest that WEIGHTS-REF `i` holds, first byte highest. -/
def wrefDigest (s : State) (i : Nat) : Nat := ((s.sec 0x12 i).drop 8).foldl (fun n b => n * 256 + b) 0

def wrefBytes (s : State) (i : Nat) : List Nat :=
  (List.range (u32 (s.sec 0x12 i) 4)).map fun k => (s.ws.read wsId (u32 (s.sec 0x12 i) 0 + k)).toNat

/-- The IDLE functions whose program names WEIGHTS-REF `i`. -/
def hashedFor (s : State) (i : Nat) : List Nat := s.chartFns.filter fun n => s.fnIdle n && s.fnWref n == some i

/-- The check of a region completes. -/
def weightHash (s : State) (i : Nat) : State :=
  if (s.hashedFor i).isEmpty || s.wrefVerified i || !s.hasSec 0x12 i then s
  else
    let a := Reg.CHT_WREF i
    if sha256 (s.wrefBytes i) = s.wrefDigest i then
      ((s.put a Fl.CHT_WREF_VERIFIED 1).put a Fl.CHT_WREF_DIRTY 0).put a Fl.CHT_WREF_MISMATCH 0
    else (s.hashedFor i).foldl (fun s n => s.bringupFail n 2) (s.put a Fl.CHT_WREF_MISMATCH 1)

/-! ## Lanes and ports (chapters 9 and 10) -/

/-- An event of lane `x`: a camera lane, and with it its port; 16 is the cascade lane. -/
def onLane (_s : State) (x : Fin 17) (f : Fin 16 → State) (g : State) : State := if h : x.val < 16 then (f ⟨x.val, h⟩).allPortLanes else g

/-- The calibration that RECAL asked for ends. -/
def calDone (s : State) (x : Fin 16) (pass : Bool) : State := if s.laneState x = 1 then s.calResult x pass else s

/-- R319: a message that cannot be understood. -/
def unexpected (s : State) (p : Fin 4) : State :=
  if s.allAligned p then s.cpError p (Reg.CP_PKT_ERR p) Fl.CP_PKT_ERR_UNEXPECTED else s

/-- R318. -/
def idleError (s : State) (p : Fin 4) : State := if s.allAligned p then s.cpError p (Reg.CP_CV p) Fl.CP_CV_IDLE_ERR else s

end State

/-! ## Functions -/

def execBringupComplete (n : Fin 8) (t : Nat) (s : State) : Host.Outcome State Fault Refusal := finish s ((s.atTime t).live fun s => s.bringupComplete n)
def execBringupTimeout (n : Fin 8) (t : Nat) (s : State) : Host.Outcome State Fault Refusal := finish s ((s.atTime t).live fun s => s.bringupTimeout n)
def execDrainTimeout (n : Fin 8) (t : Nat) (s : State) : Host.Outcome State Fault Refusal := finish s ((s.atTime t).live fun s => s.drainTimeout n)
def execWeightHashDone (i : Fin 16) (t : Nat) (s : State) : Host.Outcome State Fault Refusal := finish s ((s.atTime t).live fun s => s.weightHash i)

/-! ## Transits, jobs, results -/

def execLepFix (n : Fin 8) (slot : Fin 16) (t : Nat) (s : State) : Host.Outcome State Fault Refusal :=
  finish s ((s.atTime t).live fun s => s.lepFix n slot)
def execTransitClose (n : Fin 8) (slot : Fin 16) (t : Nat) (s : State) : Host.Outcome State Fault Refusal :=
  finish s ((s.atTime t).live fun s => s.transitClose n slot)
def execLineTriggerIssue (q : Fin 4) (t : Nat) (s : State) : Host.Outcome State Fault Refusal := finish s ((s.atTime t).live fun s => s.lineTrigger q)
def execLineTimerTick (n : Fin 8) (t : Nat) (s : State) : Host.Outcome State Fault Refusal := finish s ((s.atTime t).live fun s => s.timerTick n)
def execJobDispatch (u : Fin 3) (t : Nat) (s : State) : Host.Outcome State Fault Refusal := finish s ((s.atTime t).live fun s => s.dispatch u)
def execJobComplete (u : Fin 3) (stall : Nat) (errs : List EccErr) (s : State) : Host.Outcome State Fault Refusal :=
  finish s (s.live fun s => s.jobComplete u stall errs)
def execResultExists (n : Fin 8) (slot : Fin 16) (t : Nat) (s : State) : Host.Outcome State Fault Refusal :=
  finish s ((s.atTime t).live fun s => s.resultExists n slot)
def execVerdictExists (n : Fin 8) (s : State) : Host.Outcome State Fault Refusal := finish s (s.live fun s => s.verdictExists n)
def execBlockResetEnd (src : Nat) (s : State) : Host.Outcome State Fault Refusal := finish s (s.up fun s => s.blockResetEnd src)

/-! ## Delivery -/

def execDlvObjectDeliver (t : Nat) (errs : List EccErr) (s : State) : Host.Outcome State Fault Refusal :=
  finish s ((s.atTime t).live fun s => if s.parked then s else s.deliverNext errs)
def execDlvBpTimeout (r : Fin 128) (t : Nat) (s : State) : Host.Outcome State Fault Refusal := finish s ((s.atTime t).live fun s => s.bpTimeout r)
def execDlvIrqTimer (r : Fin 128) (t : Nat) (s : State) : Host.Outcome State Fault Refusal := finish s ((s.atTime t).live fun s => s.irqTimer r)

/-! ## Lanes -/

def execLnPhaseLock (x : Fin 17) (t : Nat) (s : State) : Host.Outcome State Fault Refusal :=
  finish s ((s.atTime t).live fun s => s.onLane x s.phaseLock s.casPhaseLock)
def execLnAcqDone (x : Fin 17) (ctle efm : Nat) (taps : Taps) (sat : Bool) (t : Nat) (s : State) : Host.Outcome State Fault Refusal :=
  finish s ((s.atTime t).live fun s => s.onLane x (fun x => s.acqDone x ctle efm taps sat) (s.casAcqDone ctle efm taps))
def execLnAcqNoLock (x : Fin 17) (t : Nat) (s : State) : Host.Outcome State Fault Refusal :=
  finish s ((s.atTime t).live fun s => s.onLane x s.acqNoLock s.casNoLock)
def execLnEfmWindowEnd (x : Fin 17) (efm : Nat) (s : State) : Host.Outcome State Fault Refusal :=
  finish s (s.live fun s => s.onLane x (fun x => s.windowEnd x efm) (s.casWindowEnd efm))
def execLnEpochEnd (x : Fin 17) (acc : Taps) (s : State) : Host.Outcome State Fault Refusal :=
  finish s (s.live fun s => s.onLane x (fun x => s.epochEnd x acc) (s.casEpochEnd acc))
def execLnLockLoss (x : Fin 17) (t : Nat) (s : State) : Host.Outcome State Fault Refusal :=
  finish s ((s.atTime t).live fun s => s.onLane x s.lockLoss s.casLockLoss)
def execLnReacqDone (x : Fin 17) (efm : Nat) (taps : Taps) (t : Nat) (s : State) : Host.Outcome State Fault Refusal :=
  finish s ((s.atTime t).live fun s => s.onLane x (fun x => s.reacqDone x efm taps) (s.casReacqDone efm taps))
def execLnClockLoss (q : Fin 4) (t : Nat) (s : State) : Host.Outcome State Fault Refusal :=
  finish s ((s.atTime t).live fun s => (s.clockLoss q).allPortLanes)
def execLnSynLock (x : Fin 17) (t : Nat) (s : State) : Host.Outcome State Fault Refusal :=
  finish s ((s.atTime t).live fun s => s.onLane x s.synLock s.casSynLock)
def execLnSynTimeout (x : Fin 17) (t : Nat) (s : State) : Host.Outcome State Fault Refusal :=
  finish s ((s.atTime t).live fun s => s.onLane x s.synTimeout s.casSynTimeout)
def execLnSynLockLoss (x : Fin 16) (t : Nat) (s : State) : Host.Outcome State Fault Refusal :=
  finish s ((s.atTime t).live fun s => (s.synLoss x).allPortLanes)
def execLnCalDone (x : Fin 16) (pass : Bool) (s : State) : Host.Outcome State Fault Refusal :=
  finish s (s.live fun s => (s.calDone x pass).allPortLanes)

/-! ## Ports -/

def execLineMessage (q : Fin 4) (words : List Nat) (cv : List (Fin 3)) (t : Nat) (s : State) : Host.Outcome State Fault Refusal :=
  finish s ((s.atTime t).live fun s => s.lineMessage q words cv)
def execHcRespMessage (q : Fin 4) (words : List Nat) (s : State) : Host.Outcome State Fault Refusal := finish s (s.live fun s => s.hcResponse q words)
def execHeadEventMessage (q : Fin 4) (words : List Nat) (s : State) : Host.Outcome State Fault Refusal := finish s (s.live fun s => s.headEvent q words)
def execLaneMarker (q : Fin 4) (r : Fin 3) (m : Option (Nat × Nat)) (skew t : Nat) (s : State) : Host.Outcome State Fault Refusal :=
  finish s ((s.atTime t).live fun s => s.laneMarker q r m skew)
/-- `q` = 4 is the cascade port. -/
def execTrainingBlock (q : Fin 5) (r : Fin 3) (st : Nat) (prec : Bool) (laneId skew : Nat) (ok : Bool) (s : State) : Host.Outcome State Fault Refusal :=
  finish s (s.live fun s => if h : q.val < 4 then s.trainingBlock ⟨q.val, h⟩ r st prec laneId skew ok else s.casBlock laneId ok)
def execLineTimeout (q : Fin 4) (t : Nat) (s : State) : Host.Outcome State Fault Refusal := finish s ((s.atTime t).live fun s => s.lineTimeout q)
def execHcTimeout (q : Fin 4) (t : Nat) (s : State) : Host.Outcome State Fault Refusal := finish s ((s.atTime t).live fun s => s.hcTimeout q)
def execCpTrainingDone (q : Fin 4) (regs : List Word) (t : Nat) (s : State) : Host.Outcome State Fault Refusal :=
  finish s ((s.atTime t).live fun s => s.trainingDone q regs)
def execCpTrainFail (q : Fin 4) (cause detail t : Nat) (s : State) : Host.Outcome State Fault Refusal :=
  finish s ((s.atTime t).live fun s => s.trainFailed q cause detail)
def execCpTrainRetry (q : Fin 4) (t : Nat) (s : State) : Host.Outcome State Fault Refusal :=
  finish s ((s.atTime t).live fun s => if s.ports[q].waiting then s.startAttempt q else s)
def execCpRejoinTimeout (q : Fin 4) (t : Nat) (s : State) : Host.Outcome State Fault Refusal := finish s ((s.atTime t).live fun s => s.rejoinTimeout q)
def execCpPortRejoin (q : Fin 4) (t : Nat) (s : State) : Host.Outcome State Fault Refusal := finish s ((s.atTime t).live fun s => s.portRejoin q)
def execCpPresence (q : Fin 4) (t : Nat) (s : State) : Host.Outcome State Fault Refusal :=
  finish s ((s.atTime t).live fun s => (s.presence q).wakePres q)
def execCpPresenceLoss (q : Fin 4) (t : Nat) (s : State) : Host.Outcome State Fault Refusal :=
  finish s ((s.atTime t).live fun s => (s.presenceLoss q).wakePres q)
def execCpTrqRelease (q : Fin 4) (t : Nat) (s : State) : Host.Outcome State Fault Refusal := finish s ((s.atTime t).live fun s => s.trqRelease q)
def execUnexpectedMessage (q : Fin 4) (s : State) : Host.Outcome State Fault Refusal := finish s (s.live fun s => s.unexpected q)
def execIdleErr (q : Fin 4) (s : State) : Host.Outcome State Fault Refusal := finish s (s.live fun s => s.idleError q)

/-! ## Fault collector and watchdog -/

def execCollectorIntegrityFault (copy : Fin 3) (byte : Nat) (bits : Byte) (parity : Bool) (s : State) : Host.Outcome State Fault Refusal :=
  finish s (s.up fun s => s.collectorUpset ⟨copy, byte, bits, parity⟩)
def execWdtExpiry (t : Nat) (s : State) : Host.Outcome State Fault Refusal :=
  finish s ((s.atTime t).up fun s => if s.wdtDue then s.wdtExpire else s)
def execWdtWarn (t : Nat) (s : State) : Host.Outcome State Fault Refusal := finish s ((s.atTime t).up State.wdtWarnPoint)

/-! ## Cascade -/

def execCasRelinkTimer (t : Nat) (s : State) : Host.Outcome State Fault Refusal := finish s ((s.atTime t).live State.casRetry)
def execCasFrameReceived (words : List Nat) (rp t : Nat) (s : State) : Host.Outcome State Fault Refusal :=
  finish s ((s.atTime t).live fun s => s.casReceive words rp)
def execCasFrameReturned (words : List Nat) (ring rp0 t : Nat) (s : State) : Host.Outcome State Fault Refusal :=
  finish s ((s.atTime t).live fun s => s.casReturned words ring rp0)
def execCasSampleApply (c : Fin 4) (t : Nat) (s : State) : Host.Outcome State Fault Refusal := finish s ((s.atTime t).live fun s => s.casApplySample c)
def execCasMessageApply (t : Nat) (s : State) : Host.Outcome State Fault Refusal := finish s ((s.atTime t).live State.casApplyMessage)
def execCasLinkupTimeout (t : Nat) (s : State) : Host.Outcome State Fault Refusal := finish s ((s.atTime t).live State.casTimeout)

end Sys2Proof.Machine
end

