-- ==== Sys2Proof/Machine/Dispatch.lean ====
section
/-! DEFINITION. The effect of every command, one arm per constructor. -/
namespace Sys2Proof.Machine

def exec (i : Instr) (s : State) : Host.Outcome State Fault Refusal :=
  match i with
  | .registerWrite p bar off size val => Sys2Proof.Machine.execRegisterWrite p bar off size val s
  | .pairLowRead p off => Sys2Proof.Machine.execPairLowRead p off s
  | .pairHighRead p off => Sys2Proof.Machine.execPairHighRead p off s
  | .pairLowWrite p off val => Sys2Proof.Machine.execPairLowWrite p off val s
  | .pairHighWrite p off val => Sys2Proof.Machine.execPairHighWrite p off val s
  | .start p n => Sys2Proof.Machine.execStart p n s
  | .stop p n => Sys2Proof.Machine.execStop p n s
  | .abort p n => Sys2Proof.Machine.execAbort p n s
  | .bringupComplete n t => Sys2Proof.Machine.execBringupComplete n t s
  | .bringupTimeout n t => Sys2Proof.Machine.execBringupTimeout n t s
  | .drainTimeout n t => Sys2Proof.Machine.execDrainTimeout n t s
  | .fieldToHostBeat idx mask miri => Sys2Proof.Machine.execFieldToHostBeat idx mask miri s
  | .hostToFieldBeat idx mask => Sys2Proof.Machine.execHostToFieldBeat idx mask s
  | .lepFix n slot t => Sys2Proof.Machine.execLepFix n slot t s
  | .transitClose n slot t => Sys2Proof.Machine.execTransitClose n slot t s
  | .jobDispatch u t => Sys2Proof.Machine.execJobDispatch u t s
  | .jobComplete u stall errs => Sys2Proof.Machine.execJobComplete u stall errs s
  | .resultExists n slot t => Sys2Proof.Machine.execResultExists n slot t s
  | .verdictExists n => Sys2Proof.Machine.execVerdictExists n s
  | .vhPowerOn => Sys2Proof.Machine.execVhPowerOn s
  | .vhBrownOut => Sys2Proof.Machine.execVhBrownOut s
  | .vhPowerLoss => Sys2Proof.Machine.execVhPowerLoss s
  | .railsPowerGood refsel lead refclk => Sys2Proof.Machine.execRailsPowerGood refsel lead refclk s
  | .pllLock => Sys2Proof.Machine.execPllLock s
  | .pllLockLoss t => Sys2Proof.Machine.execPllLockLoss t s
  | .refclkLoss sclkRuns t => Sys2Proof.Machine.execRefclkLoss sclkRuns t s
  | .sclkLoss t => Sys2Proof.Machine.execSclkLoss t s
  | .refclkReturn => Sys2Proof.Machine.execRefclkReturn s
  | .railOutOfWindow t => Sys2Proof.Machine.execRailOutOfWindow t s
  | .vhSample mv t => Sys2Proof.Machine.execVhSample mv t s
  | .tempSample c t => Sys2Proof.Machine.execTempSample c t s
  | .vfSample mv t => Sys2Proof.Machine.execVfSample mv t s
  | .pwrSleep p => Sys2Proof.Machine.execPwrSleep p s
  | .pwrPark p => Sys2Proof.Machine.execPwrPark p s
  | .pwrWake p => Sys2Proof.Machine.execPwrWake p s
  | .sleepExitComplete t => Sys2Proof.Machine.execSleepExitComplete t s
  | .parkSelftestStart t => Sys2Proof.Machine.execParkSelftestStart t s
  | .parkEntryComplete t => Sys2Proof.Machine.execParkEntryComplete t s
  | .parkEntryAborted ok t => Sys2Proof.Machine.execParkEntryAborted ok t s
  | .parkExitComplete bad t => Sys2Proof.Machine.execParkExitComplete bad t s
  | .resetPin t => Sys2Proof.Machine.execResetPin t s
  | .sysResetCmd p val => Sys2Proof.Machine.execSysResetCmd p val s
  | .chipResetEnd => Sys2Proof.Machine.execChipResetEnd s
  | .vfPowerOn => Sys2Proof.Machine.execVfPowerOn s
  | .vfPowerLoss => Sys2Proof.Machine.execVfPowerLoss s
  | .perstAssert t => Sys2Proof.Machine.execPerstAssert t s
  | .perstDeassert => Sys2Proof.Machine.execPerstDeassert s
  | .pcieLinkTrainStart t => Sys2Proof.Machine.execPcieLinkTrainStart t s
  | .pcieLinkUp speed width t => Sys2Proof.Machine.execPcieLinkUp speed width t s
  | .pcieLinkDown t => Sys2Proof.Machine.execPcieLinkDown t s
  | .pcieHotReset t => Sys2Proof.Machine.execPcieHotReset t s
  | .pcieLinkDisable t => Sys2Proof.Machine.execPcieLinkDisable t s
  | .pcieFlr t => Sys2Proof.Machine.execPcieFlr t s
  | .pcieBmeClear t => Sys2Proof.Machine.execPcieBmeClear t s
  | .pcieD3hotEntry t => Sys2Proof.Machine.execPcieD3hotEntry t s
  | .pcieD0Entry => Sys2Proof.Machine.execPcieD0Entry s
  | .pciePoisonedWrite space off be => Sys2Proof.Machine.execPciePoisonedWrite space off be s
  | .pcieUnsupportedRequest => Sys2Proof.Machine.execPcieUnsupportedRequest s
  | .msixEnable enable fmask master => Sys2Proof.Machine.execMsixEnable enable fmask master s
  | .hostlossRelease p val => Sys2Proof.Machine.execHostlossRelease p val s
  | .aelClear p target val => Sys2Proof.Machine.execAelClear p target val s
  | .chtOpen p => Sys2Proof.Machine.execChtOpen p s
  | .chtClose p => Sys2Proof.Machine.execChtClose p s
  | .chtCommit p scope => Sys2Proof.Machine.execChtCommit p scope s
  | .commitComplete ecc t => Sys2Proof.Machine.execCommitComplete ecc t s
  | .chtDataWrite p val => Sys2Proof.Machine.execChtDataWrite p val s
  | .chtDataRead p => Sys2Proof.Machine.execChtDataRead p s
  | .bar2Write p off data => Sys2Proof.Machine.execBar2Write p off data s
  | .bar2Read p off n ecc => Sys2Proof.Machine.execBar2Read p off n ecc s
  | .weightHashDone w t => Sys2Proof.Machine.execWeightHashDone w t s
  | .bootDirectoryRead t => Sys2Proof.Machine.execBootDirectoryRead t s
  | .bootFlashTimeout t => Sys2Proof.Machine.execBootFlashTimeout t s
  | .bootChartRead t => Sys2Proof.Machine.execBootChartRead t s
  | .offsetCalDone x pass t => Sys2Proof.Machine.execOffsetCalDone x pass t s
  | .spiWrite addr words => Sys2Proof.Machine.execSpiWrite addr words s
  | .spiRead addr first rest => Sys2Proof.Machine.execSpiRead addr first rest s
  | .spiReadComplete => Sys2Proof.Machine.execSpiReadComplete s
  | .spiResult => Sys2Proof.Machine.execSpiResult s
  | .spiStatus => Sys2Proof.Machine.execSpiStatus s
  | .spiId => Sys2Proof.Machine.execSpiId s
  | .spiBadCommand => Sys2Proof.Machine.execSpiBadCommand s
  | .spiFrameEnd write edges => Sys2Proof.Machine.execSpiFrameEnd write edges s
  | .spiWfifoDrain => Sys2Proof.Machine.execSpiWfifoDrain s
  | .sspErrClear p val => Sys2Proof.Machine.execSspErrClear p val s
  | .bspRead p => Sys2Proof.Machine.execBspRead p s
  | .bspErase4k p => Sys2Proof.Machine.execBspErase4k p s
  | .bspProgram p => Sys2Proof.Machine.execBspProgram p s
  | .bspOpComplete t => Sys2Proof.Machine.execBspOpComplete t s
  | .bspTimeout t => Sys2Proof.Machine.execBspTimeout t s
  | .hzTrainStart t => Sys2Proof.Machine.execHzTrainStart t s
  | .hzRetrain p val => Sys2Proof.Machine.execHzRetrain p val s
  | .hzJensLock t => Sys2Proof.Machine.execHzJensLock t s
  | .hzTrainUp t => Sys2Proof.Machine.execHzTrainUp t s
  | .hzTrainFail step t => Sys2Proof.Machine.execHzTrainFail step t s
  | .hzTrainWait t => Sys2Proof.Machine.execHzTrainWait t s
  | .hzPhaseMeasure ps code => Sys2Proof.Machine.execHzPhaseMeasure ps code s
  | .hzShortRetrainDone fail t => Sys2Proof.Machine.execHzShortRetrainDone fail t s
  | .beatLossDetect => Sys2Proof.Machine.execBeatLossDetect s
  | .relayTimeout => Sys2Proof.Machine.execRelayTimeout s
  | .attnPoll => Sys2Proof.Machine.execAttnPoll s
  | .fxWrite p addr val => Sys2Proof.Machine.execFxWrite p addr val s
  | .fxRead p addr => Sys2Proof.Machine.execFxRead p addr s
  | .hzSerTxWrite p val => Sys2Proof.Machine.execHzSerTxWrite p val s
  | .hzSerTxwWrite p val => Sys2Proof.Machine.execHzSerTxwWrite p val s
  | .hzSerRxRead p => Sys2Proof.Machine.execHzSerRxRead p s
  | .hzSerRxwRead p => Sys2Proof.Machine.execHzSerRxwRead p s
  | .hzCntClear p val => Sys2Proof.Machine.execHzCntClear p val s
  | .pfiQuadEdge c a b z t => Sys2Proof.Machine.execPfiQuadEdge c a b z t s
  | .pfiToothEdge c t => Sys2Proof.Machine.execPfiToothEdge c t s
  | .pfiStandstill c t => Sys2Proof.Machine.execPfiStandstill c t s
  | .pfiErrClear p c val => Sys2Proof.Machine.execPfiErrClear p c val s
  | .emuRateUpdate e t => Sys2Proof.Machine.execEmuRateUpdate e t s
  | .emuCountEmit e t => Sys2Proof.Machine.execEmuCountEmit e t s
  | .emuResync p e val => Sys2Proof.Machine.execEmuResync p e val s
  | .emuRatioWrite p e val => Sys2Proof.Machine.execEmuRatioWrite p e val s
  | .gateFireDue j t => Sys2Proof.Machine.execGateFireDue j t s
  | .gatePeakEnd j t => Sys2Proof.Machine.execGatePeakEnd j t s
  | .gateHoldEnd j t => Sys2Proof.Machine.execGateHoldEnd j t s
  | .gateFlush p val => Sys2Proof.Machine.execGateFlush p val s
  | .overcurrent k t => Sys2Proof.Machine.execOvercurrent k t s
  | .ocClear p k val below => Sys2Proof.Machine.execOcClear p k val below s
  | .fspMasterFrameStart => Sys2Proof.Machine.execFspMasterFrameStart s
  | .fspMasterWord rx => Sys2Proof.Machine.execFspMasterWord rx s
  | .fspCsGapTimeout => Sys2Proof.Machine.execFspCsGapTimeout s
  | .fspSlaveSelect => Sys2Proof.Machine.execFspSlaveSelect s
  | .fspSlaveWord rx => Sys2Proof.Machine.execFspSlaveWord rx s
  | .fspSlaveDeselect bits => Sys2Proof.Machine.execFspSlaveDeselect bits s
  | .fspErrClear p val => Sys2Proof.Machine.execFspErrClear p val s
  | .zlTxnDispatch l slots scan => Sys2Proof.Machine.execZlTxnDispatch l slots scan s
  | .zlReply l delay periods lows => Sys2Proof.Machine.execZlReply l delay periods lows s
  | .zlReplyTimeout l => Sys2Proof.Machine.execZlReplyTimeout l s
  | .zlAttention l collided scan t => Sys2Proof.Machine.execZlAttention l collided scan t s
  | .zlSupervisePing l => Sys2Proof.Machine.execZlSupervisePing l s
  | .zlTxnStart p l val => Sys2Proof.Machine.execZlTxnStart p l val s
  | .zlDiscover p l val => Sys2Proof.Machine.execZlDiscover p l val s
  | .zlBindNew p l val => Sys2Proof.Machine.execZlBindNew p l val s
  | .zlStartReleaseEnd l => Sys2Proof.Machine.execZlStartReleaseEnd l s
  | .zlStuck l => Sys2Proof.Machine.execZlStuck l s
  | .zlReleased l => Sys2Proof.Machine.execZlReleased l s
  | .zlErrClear p l val => Sys2Proof.Machine.execZlErrClear p l val s
  | .lnPhaseLock x t => Sys2Proof.Machine.execLnPhaseLock x t s
  | .lnAcqDone x ctle efm taps sat t => Sys2Proof.Machine.execLnAcqDone x ctle efm taps sat t s
  | .lnAcqNoLock x t => Sys2Proof.Machine.execLnAcqNoLock x t s
  | .lnEfmWindowEnd x efm => Sys2Proof.Machine.execLnEfmWindowEnd x efm s
  | .lnEpochEnd x acc => Sys2Proof.Machine.execLnEpochEnd x acc s
  | .lnLockLoss x t => Sys2Proof.Machine.execLnLockLoss x t s
  | .lnReacqDone x efm taps t => Sys2Proof.Machine.execLnReacqDone x efm taps t s
  | .lnClockLoss q t => Sys2Proof.Machine.execLnClockLoss q t s
  | .lnSynLock x t => Sys2Proof.Machine.execLnSynLock x t s
  | .lnSynTimeout x t => Sys2Proof.Machine.execLnSynTimeout x t s
  | .lnSynLockLoss x t => Sys2Proof.Machine.execLnSynLockLoss x t s
  | .lnRecal p x val => Sys2Proof.Machine.execLnRecal p x val s
  | .lnCalDone x pass => Sys2Proof.Machine.execLnCalDone x pass s
  | .lnCntClear p x val => Sys2Proof.Machine.execLnCntClear p x val s
  | .lineMessage q words cv t => Sys2Proof.Machine.execLineMessage q words cv t s
  | .hcRespMessage q words => Sys2Proof.Machine.execHcRespMessage q words s
  | .headEventMessage q words => Sys2Proof.Machine.execHeadEventMessage q words s
  | .laneMarker q r m skew t => Sys2Proof.Machine.execLaneMarker q r m skew t s
  | .trainingBlock q r st prec laneId skew ok => Sys2Proof.Machine.execTrainingBlock q r st prec laneId skew ok s
  | .lineTimeout q t => Sys2Proof.Machine.execLineTimeout q t s
  | .hcRead p q => Sys2Proof.Machine.execHcRead p q s
  | .hcWrite p q => Sys2Proof.Machine.execHcWrite p q s
  | .hcTimeout q t => Sys2Proof.Machine.execHcTimeout q t s
  | .cpTrainingDone q regs t => Sys2Proof.Machine.execCpTrainingDone q regs t s
  | .cpTrainFail q cause detail t => Sys2Proof.Machine.execCpTrainFail q cause detail t s
  | .cpTrainRetry q t => Sys2Proof.Machine.execCpTrainRetry q t s
  | .cpRejoinTimeout q t => Sys2Proof.Machine.execCpRejoinTimeout q t s
  | .cpPortRejoin q t => Sys2Proof.Machine.execCpPortRejoin q t s
  | .cpPresence q t => Sys2Proof.Machine.execCpPresence q t s
  | .cpPresenceLoss q t => Sys2Proof.Machine.execCpPresenceLoss q t s
  | .cpRetrain p q val => Sys2Proof.Machine.execCpRetrain p q val s
  | .cpTrqRelease q t => Sys2Proof.Machine.execCpTrqRelease q t s
  | .cpCntClear p q val => Sys2Proof.Machine.execCpCntClear p q val s
  | .lineTriggerIssue q t => Sys2Proof.Machine.execLineTriggerIssue q t s
  | .lineTimerTick n t => Sys2Proof.Machine.execLineTimerTick n t s
  | .acqCntClear p n val => Sys2Proof.Machine.execAcqCntClear p n val s
  | .ltgCntClear p q val => Sys2Proof.Machine.execLtgCntClear p q val s
  | .stsCntClear p val => Sys2Proof.Machine.execStsCntClear p val s
  | .engineCntClear p u val => Sys2Proof.Machine.execEngineCntClear p u val s
  | .blockResetEnd src => Sys2Proof.Machine.execBlockResetEnd src s
  | .pstCntClear p val => Sys2Proof.Machine.execPstCntClear p val s
  | .vrdCntClear p n val => Sys2Proof.Machine.execVrdCntClear p n val s
  | .vrdHitClear p val => Sys2Proof.Machine.execVrdHitClear p val s
  | .dlvObjectDeliver t errs => Sys2Proof.Machine.execDlvObjectDeliver t errs s
  | .dlvBpTimeout r t => Sys2Proof.Machine.execDlvBpTimeout r t s
  | .dlvConsWrite p r val => Sys2Proof.Machine.execDlvConsWrite p r val s
  | .dlvEnable p r val => Sys2Proof.Machine.execDlvEnable p r val s
  | .dlvDisable p r val => Sys2Proof.Machine.execDlvDisable p r val s
  | .dlvIrqTimer r t => Sys2Proof.Machine.execDlvIrqTimer r t s
  | .dlvCntClear p r val => Sys2Proof.Machine.execDlvCntClear p r val s
  | .evtMapWrite p src val => Sys2Proof.Machine.execEvtMapWrite p src val s
  | .evtVmaskWrite p k val => Sys2Proof.Machine.execEvtVmaskWrite p k val s
  | .fcuStatusClear p val => Sys2Proof.Machine.execFcuStatusClear p val s
  | .fcuSafeCmd p val => Sys2Proof.Machine.execFcuSafeCmd p val s
  | .fcuDebugHalt p => Sys2Proof.Machine.execFcuDebugHalt p s
  | .fcuDebugResume p => Sys2Proof.Machine.execFcuDebugResume p s
  | .fcuInjectGo p val => Sys2Proof.Machine.execFcuInjectGo p val s
  | .fcuInjectIntegrity p val => Sys2Proof.Machine.execFcuInjectIntegrity p val s
  | .collectorIntegrityFault copy byte bits parity => Sys2Proof.Machine.execCollectorIntegrityFault copy byte bits parity s
  | .fcuCntClear p val => Sys2Proof.Machine.execFcuCntClear p val s
  | .wdtEnable p => Sys2Proof.Machine.execWdtEnable p s
  | .wdtKeyArm p => Sys2Proof.Machine.execWdtKeyArm p s
  | .wdtKeyServe p => Sys2Proof.Machine.execWdtKeyServe p s
  | .wdtKeyBad p val => Sys2Proof.Machine.execWdtKeyBad p val s
  | .wdtExpiry t => Sys2Proof.Machine.execWdtExpiry t s
  | .wdtWarn t => Sys2Proof.Machine.execWdtWarn t s
  | .bistSliceStart k t => Sys2Proof.Machine.execBistSliceStart k t s
  | .bistSliceDone k fail uncorr bay t => Sys2Proof.Machine.execBistSliceDone k fail uncorr bay t s
  | .bistBudgetExpiry k => Sys2Proof.Machine.execBistBudgetExpiry k s
  | .bistRecordFlashDone ok t => Sys2Proof.Machine.execBistRecordFlashDone ok t s
  | .bistQuickSliceTimeout k => Sys2Proof.Machine.execBistQuickSliceTimeout k s
  | .bistRetest p val => Sys2Proof.Machine.execBistRetest p val s
  | .bistRetestDone fail uncorr bay => Sys2Proof.Machine.execBistRetestDone fail uncorr bay s
  | .casRelink p val => Sys2Proof.Machine.execCasRelink p val s
  | .casRelinkTimer t => Sys2Proof.Machine.execCasRelinkTimer t s
  | .casFrameReceived words rp t => Sys2Proof.Machine.execCasFrameReceived words rp t s
  | .casFrameReturned words ring rp0 t => Sys2Proof.Machine.execCasFrameReturned words ring rp0 t s
  | .casSampleApply c t => Sys2Proof.Machine.execCasSampleApply c t s
  | .casMessageApply t => Sys2Proof.Machine.execCasMessageApply t s
  | .casLinkupTimeout t => Sys2Proof.Machine.execCasLinkupTimeout t s
  | .casCntClear p val => Sys2Proof.Machine.execCasCntClear p val s
  | .missingBeat toJens idx => Sys2Proof.Machine.execMissingBeat toJens idx s
  | .isnsSample k uv => Sys2Proof.Machine.execIsnsSample k uv s
  | .zlGlitch l => Sys2Proof.Machine.execZlGlitch l s
  | .unexpectedMessage q => Sys2Proof.Machine.execUnexpectedMessage q s
  | .idleErr q => Sys2Proof.Machine.execIdleErr q s

end Sys2Proof.Machine
end

