-- ==== Sys2Proof/Machine/Step.lean ====
section
/-! DEFINITION. One step: the command at the front of the queue. -/
namespace Sys2Proof.Machine

/-- SCLK cycles of 2 ns that pass in one idle step: one, or one bypass cycle of 10 ns (R44; DESIGN CHOICE, log entry 33). -/
def State.idleCycles (s : State) : Nat := if s.flag Reg.CLK_STATUS Fl.CLK_STATUS_BYPASS then 5 else 1

/-- With no command waiting the block's clock runs on (DESIGN CHOICE, log entry 33). -/
def State.idle (s : State) : Host.Outcome State Fault Refusal := finish s (s.tick s.idleCycles)

/-- The command at the front of the queue acts, with the rest of the queue waiting. -/
def step (s : State) : Host.Outcome State Fault Refusal :=
  match s.pending with
  | [] => s.idle
  | c :: rest => exec c { s with pending := rest }

/-- The command a word spells is put at the front of the queue; the table gives no row bits, so no word spells one. -/
def State.withFetchWord (s : State) (nbits w : Nat) : State :=
  match decodeTableWord nbits w with
  | some c => { s with pending := c :: s.pending }
  | none => s

end Sys2Proof.Machine
end

