-- ==== Sys2Proof/Machine/Coding.lean ====
section
/-! DEFINITION. The symbols below the words of a camera or cascade lane (chapter 10): groups as a receiver takes them, commas, markers and
training blocks, the striping of a port's words over its lanes; and the equalised sample of R291. -/
namespace Sys2Proof.Machine

/-! ## Groups (R309 to R312) -/

/-- Table 9-3, read from the index to the pair 2 b1 + b0. -/
def indexPair (g : Nat) : Nat := 2 * (g / 2 % 2) + (g / 2 % 2 + g % 2) % 2

/-- R309: data symbols without the transform, positions counted from `i`. -/
def untransform (t : Nat) : Nat → List Nat → List Nat
  | _, [] => []
  | i, d :: l => (d + 2 * t * (i % 2)) % 4 :: untransform t (i + 1) l

/-- The word of eight Gray indices, bits [15:14] first. -/
def indicesWord (l : List Nat) : Nat := l.foldl (fun v g => 4 * v + indexPair g) 0

/-- What a receiver takes from a group after a symbol of index `p`: frame flag and word, or a code violation (R312). -/
def groupDecode (p : Nat) : List Nat → Option (Bool × Nat)
  | [] => none
  | c :: d =>
    match controlDecode p c with
    | none => none
    | some (f, t) =>
      let w := indicesWord (untransform t 0 d)
      if f ∧ w / 64 % 16 ≠ 6 then none else some (f, w)

/-- The indices of a run of groups (frame flag, word) after a symbol of index `p`. -/
def codeGroups (p : Nat) : List (Bool × Nat) → List Nat
  | [] => []
  | (f, w) :: r => codeGroup p f w ++ codeGroups ((codeGroup p f w).getLastD p) r

/-! ## Commas, markers and training blocks (R313, R314, R330) -/

/-- R313. -/
def comma : List Nat := List.replicate 7 3 ++ List.replicate 7 0

/-- Table 10-1: M0 and M1 of a lane's marker. -/
def markerWords (lane seq : Nat) : Nat × Nat :=
  let m0 := 0xE180 + lane * 2 ^ 10 + seq / 256 % 16
  (m0, seq % 256 * 256 + crc8 0x07 0 [m0 / 256, m0 % 256, seq % 256])

/-- R314: the symbols of a marker; after its comma the last index is 0. -/
def markerSymbols (lane seq : Nat) : List Nat :=
  comma ++ codeGroups 0 [(true, (markerWords lane seq).1), (false, (markerWords lane seq).2)]

/-- R330: one step of the generator. -/
def prbsStep (s : Nat) : Nat := (2 * s + (s / 2 ^ 14 + s / 2 ^ 13) % 2) % 2 ^ 15

/-- R330: 16 outputs from register `s`, the first as bit 15; the register after them, and the word. -/
def prbsWord (s : Nat) : Nat × Nat := (List.range 16).foldl (fun x _ => (prbsStep x.1, 2 * x.2 + prbsStep x.1 % 2)) (s, 0)

def prbsWords : Nat → Nat → List Nat
  | _, 0 => []
  | s, n + 1 => (prbsWord s).2 :: prbsWords (prbsWord s).1 n

/-- R330: TW0 and TW1. -/
def trainingWords (lane state : Nat) (prec : Bool) (tseq : Nat) : Nat × Nat :=
  let t0 := 0xC180 + lane * 2 ^ 10 + state * 16 + 8 * ofBool prec
  (t0, tseq % 256 * 256 + crc8 0x07 0 [t0 / 256, t0 % 256, tseq % 256])

/-- R330: the 302 symbols of a training block. -/
def trainingSymbols (lane state : Nat) (prec : Bool) (tseq : Nat) : List Nat :=
  let t := trainingWords lane state prec tseq
  comma ++ codeGroups 0 ((true, t.1) :: (false, t.2) :: (prbsWords 0x7FFF 30).map fun w => (false, w))

/-- R316: the words of a port's stream that go on data lane `r` of `n`, in order. -/
def laneWords (n r : Nat) (l : List Nat) : List Nat := (l.zipIdx.filter fun x => x.2 % n == r).map (·.1)

/-- R291: 64 times the equalised sample, from the CTLE output, A, the taps and the last five decisions (as levels). -/
def equalised64 (x amp : Int) (taps decisions : List Int) : Int := 64 * x - amp * ((taps.zip decisions).foldl (fun n p => n + p.1 * p.2) 0)

end Sys2Proof.Machine
end

