-- ==== Sys2Proof/Safety.lean ====
section
/-! DEFINITION. What counts as a good state of the block, in the terms the statements use. -/
namespace Sys2Proof.Machine

/-- The register files are in their canonical form. -/
def State.regsWf (s : State) : Bool :=
  cellsWf regReset s.regs && cellsWf fieldReset s.fregs && cellsWf fieldReset s.shadow

/-- A memory's listed bytes stand at strictly rising addresses; a byte not listed is a free value, which no listed byte can be compared with. -/
def Memory.wf (m : Memory) : Bool := cellsRising m.cells

/-- Every memory is in its canonical form. -/
def State.memWf (s : State) : Bool :=
  s.sts.wf && s.ws.wf && s.cht.wf && s.mceLb.wf && s.eleLb.wf && s.tdr.wf && s.bsp.flash.wf && cellsRising s.hostMem && cellsRising s.jens.gateTable

/-- A register path reaches the device: out of chip reset with SCLK running and, on PCI Express, over a link that is up and not in D3hot
(R64, R110, R121). -/
def State.reaches (s : State) (p : Path) : Bool :=
  s.alive && s.clk.sclk && (p == .spi || (s.pcie.linkUp && s.get Reg.PCX_LINK Fl.PCX_LINK_DSTATE != 3))

/-- The blocks that SCLK clocks act. -/
def State.clocked (s : State) : Bool := s.alive && s.clk.sclk

/-- The blocks that the safe state freezes act (R455). -/
def State.acts (s : State) : Bool := s.alive && !s.isSafe

/-- No reaction of the fault collector is left over from an earlier cycle: so every step leaves the state. -/
def State.calm (s : State) : Bool := s.react.isEmpty

/-- SYS_SVC.LEVEL shows the service level the conditions of R29 give, while registers answer. -/
def State.levelShown (s : State) : Bool := !s.alive || s.get Reg.SYS_SVC Fl.SYS_SVC_LEVEL == s.levelNow

/-! ## What a command may leave changed beside its own effect -/

/-- The registers that State.settle may write: PWR_SUPPLY, the function registers, SYS_SVC, FCU_RAW, PCX_HOSTLOSS, the camera ports and lanes,
the function registers of acquisition, and the engines and PST. -/
def settles (a : Nat) : Bool :=
  a == Reg.PWR_SUPPLY || decide (0x404 ≤ a ∧ a < 0x488) || a == Reg.FCU_RAW_LO || a == Reg.FCU_RAW_HI || a == Reg.PCX_HOSTLOSS ||
    decide (0x100000 ≤ a ∧ a < 0x200800) || decide (0x300000 ≤ a ∧ a < 0x303000)

/-- The registers that fired vectors may write: EVT_VPEND. -/
def fires (a : Nat) : Bool := decide (0x408540 ≤ a ∧ a < 0x408564)

/-- The fields of a state that neither the end of a command nor a fired vector changes. -/
def State.rest (s : State) : State :=
  { s with regs := [], lanes := Vector.replicate 16 laneReset, ports := Vector.replicate 4 portReset,
           fns := Vector.replicate 8 ⟨0, 0, [], 0, false⟩, transits := [], gone := [], bands := [],
           dlv := ⟨Vector.replicate 128 ringReset, [], 0, none⟩, sts := ⟨0, []⟩, sent := [], pcie := { s.pcie with pba := [] },
           pending := [], react := [] }

/-- Everything but the registers of Nahar. -/
def State.unregistered (s : State) : State := { s with regs := [] }

/-- Every register of Nahar outside the list, and outside those that the end of a command may write, is as before. -/
def State.regsKept (s t : State) (ws : List Nat) : Prop := ∀ a, settles a = false → fires a = false → a ∉ ws → t.reg a = s.reg a

/-- Every register of Nahar outside the list is as before. -/
def State.onlyRegs (s t : State) (ws : List Nat) : Prop := ∀ a, a ∉ ws → t.reg a = s.reg a

/-- Everything but Jens: its registers and its own state. -/
def State.nahar (s : State) : State := { s with fregs := [], jens := jensReset }

/-- Nahar is as before, and so is every register of Jens outside the list. -/
def State.onlyJens (s t : State) (ws : List Nat) : Prop := t.nahar = s.nahar ∧ ∀ a, a ∉ ws → t.jreg a = s.jreg a

/-- A write into the FX window reaches Jens: the path reaches the device, the window answers, and Horizon is UP (R113, R178). -/
def State.reachesField (s : State) (p : Path) : Bool := s.reaches p && !s.isPark && s.hzUp

/-- A chip reset has begun in `t` out of `s` (R61, R62): it is held and recorded, time is 0, no Chart is committed, every register without a
kept field reads its reset value, and Jens and the host's memory are as before. -/
def State.resetBegun (s t : State) (causes src : Nat) : Prop :=
  (t.pw.held = true ∧ t.pw.level1 = false ∧ t.pw.bootStep = 1 ∧ t.clk.ts = 0 ∧ t.clk.sclk = false) ∧
  (t.get Reg.SYS_RESET_CAUSE Fl.SYS_RESET_CAUSE_CAUSE = causes ∧ t.get Reg.SYS_RESET_CAUSE Fl.SYS_RESET_CAUSE_FCU_SRC = src ∧
    t.get Reg.SYS_RESET_CAUSE Fl.SYS_RESET_CAUSE_COUNT = min 255 (s.get Reg.SYS_RESET_CAUSE Fl.SYS_RESET_CAUSE_COUNT + 1) ∧
    t.get Reg.SYS_RESET_CAUSE Fl.SYS_RESET_CAUSE_SAFE_CAUSE = s.pw.safeCause % 8) ∧
  (∀ a d, barReg a = some d → (d.fields.all fun f => !f.kept) = true → a ≠ Reg.SYS_RESET_CAUSE → fires a = false → t.reg a = regReset a) ∧
  t.chart = none ∧ t.commit = none ∧ t.fregs = s.fregs ∧ t.jens = s.jens ∧ t.hostMem = s.hostMem

/-! ## Writes of registers -/

/-- No field of the register is RWS or RWG, so no write of it is refused. -/
def neverRefused (d : RegD) : Bool := d.fields.all fun f => f.acc != .rws && f.acc != .rwg

/-- An offset of an ordinary register of Nahar: aligned, outside the FX window, no writable pair, no lane register, no DLV_Rr_CTRL. -/
def plainOffset (off : Nat) : Bool :=
  off % 4 == 0 && !inFx off && !writePairLow off && !writePairHigh off && !decide (0x180000 ≤ off ∧ off < 0x190000) &&
    !decide (0x400000 ≤ off ∧ off < 0x408000 ∧ off % 0x100 = 0)

/-- The register bus answers at this offset in the present power state (R113). -/
def State.answersAt (s : State) (off : Nat) : Bool := !s.isPark || answersInPark off

/-- The word that a write leaves stored. -/
def State.storedWord (s : State) (off : Nat) (d : RegD) (val : Word) : Word :=
  s.clampBus off (dropBus off (writeWord d (s.reg off) val fun _ => false))

/-- The word that a write of an assigned register leaves stored. -/
def State.stored (s : State) (off : Nat) (val : Word) : Word := ((barReg off).map fun d => s.storedWord off d val).getD 0

/-- An ordinary register of Nahar without RWS or RWG fields. -/
def plainReg (off : Nat) : Bool := plainOffset off && (barReg off).any neverRefused

end Sys2Proof.Machine
end

