-- ==== Sys2Proof/Certificates/Slice0/Obligations.lean ====
section
/-! DEFINITION. The statements about the block, in the order of OBLIGATIONS.json. A statement about a command's effect names it in one of two
forms: of the next state `t` itself, for what the end of a command leaves alone, or of the effect `e` with the next state `s.ended e`, of
which `Obligations.EndOfCommandFrame` says what it keeps. -/

open Sys2Proof Sys2Proof.Machine

/-! ## The machine (chapters 0 and 1) -/

/-- The command at the front of the queue is the one that acts; the rest of the queue waits. -/
def Obligations.StepRunsFrontCommand : Prop :=
  ∀ (c : Instr) (rest : List Instr) (s : State), step { s with pending := c :: rest } = exec c { s with pending := rest }

/-- With no command waiting, one step lets the clock run one cycle where SCLK runs, and changes no register but the operating time and those
that every command's end may write. Log entry 33: the model's choice. -/
def Obligations.EmptyQueueLetsTimePass : Prop :=
  ∀ s : State, s.pending = [] → s.calm = true →
    ∃ t, step s = .next t ∧ t.pending = [] ∧ t.clk.ts = s.clk.ts + (if s.clk.sclk then s.idleCycles else 0) ∧
      s.regsKept t [Reg.BIST_OPTIME]

/-- A command is no writer of the queue, and leaves no reaction of the fault collector for a later cycle. -/
def Obligations.CommandsLeaveTheQueue : Prop :=
  ∀ (c : Instr) (s : State), ∃ t, exec c s = .next t ∧ t.pending = s.pending ∧ t.calm = true

/-- What every command ends with keeps its effect: every register outside those it may write, and every field of the state outside those it
may write, is in the next state as the effect `e` left it. -/
def Obligations.EndOfCommandFrame : Prop :=
  ∀ s e : State, e.calm = true → e.regsKept (s.ended e) [] ∧ (s.ended e).rest = e.rest ∧ (s.ended e).pending = s.pending

/-- R29: SYS_SVC.LEVEL shows the highest level whose requirements are met, after every step of every
state, wherever the block answers on its registers; and no reaction of the fault collector is left over. -/
def Obligations.EveryStepShowsServiceLevel : Prop :=
  ∀ s : State, ∃ t, step s = .next t ∧ t.levelShown = true ∧ t.calm = true

/-- The state after reset meets the invariants: the level is shown, nothing is left to react to, the register files and the memories are in
canonical form, and no command waits.
The model's own choices behind it: log entries 10 and 11. -/
def Obligations.ResetMeetsInvariants : Prop :=
  State.reset.levelShown = true ∧ State.reset.calm = true ∧ State.reset.regsWf = true ∧ State.reset.memWf = true ∧ State.reset.pending = []

/-- R10: a write of an ordinary register takes each field under its own access code; a field that refuses it keeps its value. The register
is one that stores what it is written and does nothing else. -/
def Obligations.WriteTakesEachFieldByCode : Prop :=
  ∀ (s : State) (p : Path) (off : Nat) (val : BitVec 64) (d : RegD),
    s.reaches p = true → s.calm = true → s.answersAt off = true → plainOffset off = true → barReg off = some d →
    settles off = false → fires off = false → s.effectOnly off = false →
    (∀ (x : State) (v w : Word), x.busEffect p off v w = x) → (∀ w : Word, s.clampBus off (State.dropBus off w) = w) →
    d.fields.Pairwise (fun f g => f.fld.lsb + f.fld.width ≤ g.fld.lsb ∨ g.fld.lsb + g.fld.width ≤ f.fld.lsb) →
    (∀ f ∈ d.fields, f.fld.lsb + f.fld.width ≤ 32) →
    ∃ t, exec (.registerWrite p .bar0 off 4 val) s = .next t ∧ t.rest = s.rest ∧
      (∀ f ∈ d.fields, t.get off f.fld =
        match f.acc with
        | .ro | .wo => s.get off f.fld
        | .rw => getF (BitVec.ofNat 32 val.toNat) f.fld
        | .rws | .rwg => if s.refuses (s.busOwners off) f.acc then s.get off f.fld else getF (BitVec.ofNat 32 val.toNat) f.fld
        | .w1c => natAndNot (s.get off f.fld) (getF (BitVec.ofNat 32 val.toNat) f.fld)
        | .w1s => s.get off f.fld ||| getF (BitVec.ofNat 32 val.toNat) f.fld) ∧
      s.regsKept t [off, State.aelBase p, State.aelBase p + 4, State.aelBase p + 8, State.aelBase p + 12, State.aelBase p + 16]

/-- R4, R5: the low word of a pair is read with its high word into the path's own latch, which a read of the high word returns; a write of
the low word of a writable pair waits in the path's own shadow.
The model's own choices behind it: log entry 9. -/
def Obligations.PairsPassThroughThePath : Prop :=
  ∀ (s : State) (p : Path) (off : Nat) (val : Word),
    s.reaches p = true → s.calm = true → s.busReason off 4 = none → inFx off = false →
    (pairLow off = true → pairHigh off = false → ∃ t, exec (.pairLowRead p off) s = .next t ∧
      (t.pathOf p).latch = s.shown (off + 4) ∧ (t.pathOf p).lastRead = some (s.shown off) ∧
      (∀ q, q ≠ p → t.pathOf q = s.pathOf q) ∧ s.regsKept t []) ∧
    (pairHigh off = true → ∃ t, exec (.pairHighRead p off) s = .next t ∧
      t.pathOf p = { s.pathOf p with lastRead := some (s.pathOf p).latch } ∧
      (∀ q, q ≠ p → t.pathOf q = s.pathOf q) ∧ s.regsKept t []) ∧
    (writePairLow off = true → ∃ t, exec (.pairLowWrite p off val) s = .next t ∧
      t.pathOf p = { s.pathOf p with shadow := some val } ∧ (∀ q, q ≠ p → t.pathOf q = s.pathOf q) ∧ s.regsKept t [])

/-- R5: a write of the high word of a ring's address applies the shadowed low word with it, or the high word alone where the shadow is
empty, and empties the shadow. Where the ring's fields refuse it, the words keep their values.
The model's own choices behind it: log entry 9. -/
def Obligations.PairHighWriteTakesTheShadow : Prop :=
  ∀ (s : State) (p : Path) (r : Fin 128) (k : Fin 2) (val : Word),
    let lo := 0x400008 + 0xC * k.val + 0x100 * r.val
    s.reaches p = true → s.calm = true → s.isPark = false → s.refuses (s.busOwners (lo + 4)) .rws = false →
    ∃ t, exec (.pairHighWrite p (lo + 4) val) s = .next t ∧ (t.pathOf p).shadow = none ∧
      t.reg (lo + 4) = val ∧ t.reg lo = (match (s.pathOf p).shadow with | some w => w &&& 0xFFFFF000 | none => s.reg lo) ∧
      s.regsKept t [lo, lo + 4]

/-! ## Counts that a write clears -/

/-- The clears of counts. CNT_CLR of a function's acquisition, of a port's line triggers, of the stripe store, of a camera port and of a
camera lane; of an engine, of the PST, of a function's verdicts and of a ring, and HIT_CLR; of Horizon, of the service SPI's errors, of an
access-error log, of the fault counts and of the cascade: the counts read 0, LNx_EFM.MIN and CAS_EFM.MIN read 255, VRD_FNn_MIN_SLACK reads
its greatest value, and nothing else of the block is touched.
The model's own choices behind it: log entries 40 and 108. -/
def Obligations.CountsClear : Prop :=
  (∀ (s : State) (p : Path) (val : Word) (n : Fin 8) (q : Fin 4) (x : Fin 16),
    s.reaches p = true → s.isPark = false → s.isSafe = false → getF val ⟨0, 1⟩ = 1 →
    (∃ e, exec (.acqCntClear p n val) s = .next (s.ended e) ∧
      (∀ a ∈ [Reg.ACQ_FN_CNT0 n, Reg.ACQ_FN_CNT1 n, Reg.ACQ_FN_CNT2 n], e.reg a = 0) ∧
      s.onlyRegs e [Reg.ACQ_FN_CNT0 n, Reg.ACQ_FN_CNT1 n, Reg.ACQ_FN_CNT2 n] ∧ e.unregistered = s.unregistered) ∧
    (∃ e, exec (.ltgCntClear p q val) s = .next (s.ended e) ∧
      (∀ a ∈ [Reg.LTG_P_TRIGGERS q, Reg.LTG_P_SKIP q, Reg.LTG_P_ERR q], e.reg a = 0) ∧
      s.onlyRegs e [Reg.LTG_P_TRIGGERS q, Reg.LTG_P_SKIP q, Reg.LTG_P_ERR q] ∧ e.unregistered = s.unregistered) ∧
    (∃ e, exec (.stsCntClear p val) s = .next (s.ended e) ∧ e.reg Reg.STS_ECC = 0 ∧ s.onlyRegs e [Reg.STS_ECC] ∧
      e.unregistered = s.unregistered) ∧
    (∃ e, exec (.cpCntClear p q val) s = .next (s.ended e) ∧
      (∀ a ∈ [Reg.CP_CV q, Reg.CP_MARK_ERR q, Reg.CP_PKT_ERR q, Reg.CP_LINE_ERR q, Reg.CP_SVC_CNT q, Reg.CP_LINES q], e.reg a = 0) ∧
      e.get (Reg.CP_TRQ q) Fl.CP_TRQ_MAX = 0 ∧ e.get (Reg.CP_TRQ q) Fl.CP_TRQ_LATE = 0 ∧
      e.get (Reg.CP_TRQ q) Fl.CP_TRQ_LEVEL = s.get (Reg.CP_TRQ q) Fl.CP_TRQ_LEVEL ∧ e.get (Reg.CP_SKEW q) Fl.CP_SKEW_MAX = 0 ∧
      e.get (Reg.CP_HEAD_EVENT q) Fl.CP_HEAD_EVENT_COUNT = 0 ∧
      e.get (Reg.CP_HEAD_EVENT q) Fl.CP_HEAD_EVENT_CODE = s.get (Reg.CP_HEAD_EVENT q) Fl.CP_HEAD_EVENT_CODE ∧
      s.onlyRegs e [Reg.CP_CV q, Reg.CP_MARK_ERR q, Reg.CP_PKT_ERR q, Reg.CP_LINE_ERR q, Reg.CP_SVC_CNT q, Reg.CP_LINES q, Reg.CP_TRQ q,
        Reg.CP_SKEW q, Reg.CP_HEAD_EVENT q] ∧ e.unregistered = s.unregistered) ∧
    (∃ e, exec (.lnCntClear p x val) s = .next (s.ended e) ∧ (s.laneRole x ≠ 2 → s.laneRole x ≠ 3 →
      e.reg (Reg.LN_CNT0 x) = 0 ∧ e.reg (Reg.LN_CNT1 x) = 0 ∧ e.get (Reg.LN_EFM x) Fl.LN_EFM_MIN = 255) ∧
      s.onlyRegs e [Reg.LN_CNT0 x, Reg.LN_CNT1 x, Reg.LN_EFM x] ∧ e.unregistered = s.unregistered)) ∧
  (∀ (s : State) (p : Path) (val : Word) (n : Fin 8) (u : Fin 2) (r : Fin 128),
    s.reaches p = true → s.isPark = false → s.isSafe = false →
    (getF val ⟨0, 1⟩ = 1 →
      (∃ e, exec (.engineCntClear p u val) s = .next (s.ended e) ∧
        (∀ a ∈ [Reg.E_MAX_CYCLES u, Reg.E_MAX_STEP u, Reg.E_ECC u, Reg.E_BUSY_LO u, Reg.E_BUSY_HI u], e.reg a = 0) ∧
        s.onlyRegs e [Reg.E_MAX_CYCLES u, Reg.E_MAX_STEP u, Reg.E_ECC u, Reg.E_BUSY_LO u, Reg.E_BUSY_HI u] ∧
        e.unregistered = s.unregistered) ∧
      (∃ e, exec (.pstCntClear p val) s = .next (s.ended e) ∧ e.reg Reg.PST_CAND = 0 ∧ e.reg Reg.PST_LAST_CYCLES = 0 ∧
        s.onlyRegs e [Reg.PST_CAND, Reg.PST_LAST_CYCLES] ∧ e.unregistered = s.unregistered) ∧
      (∃ e, exec (.vrdCntClear p n val) s = .next (s.ended e) ∧ e.reg (Reg.VRD_FN_CNT0 n) = 0 ∧ e.reg (Reg.VRD_FN_CNT1 n) = 0 ∧
        e.reg (Reg.VRD_FN_MIN_SLACK n) = 0x7FFFFFFF ∧
        s.onlyRegs e [Reg.VRD_FN_CNT0 n, Reg.VRD_FN_CNT1 n, Reg.VRD_FN_MIN_SLACK n] ∧ e.unregistered = s.unregistered) ∧
      (∃ e, exec (.dlvCntClear p r val) s = .next (s.ended e) ∧ e.reg (Reg.DLV_CNT_DROP r) = 0 ∧ e.reg (Reg.DLV_CNT_VOID r) = 0 ∧
        s.onlyRegs e [Reg.DLV_CNT_DROP r, Reg.DLV_CNT_VOID r] ∧ e.unregistered = s.unregistered)) ∧
    (∃ e, exec (.vrdHitClear p val) s = .next (s.ended e) ∧
      (∀ (v : Fin 16) (k : Fin 64), e.reg (Reg.VRD_HIT v k) =
        if (getF val Fl.VRD_HIT_CLR_INSTANCE).testBit v then 0 else s.reg (Reg.VRD_HIT v k)) ∧
      s.onlyRegs e ((List.range 16).flatMap fun v => (List.range 64).map fun k => Reg.VRD_HIT v k) ∧ e.unregistered = s.unregistered)) ∧
  (∀ (s : State) (p q : Path) (val : Word),
    s.reaches p = true → s.calm = true → s.isPark = false → getF val ⟨0, 1⟩ = 1 →
    (∃ t, exec (.hzCntClear p val) s = .next t ∧
      (∀ a ∈ [Reg.HZ_BAD_RX, Reg.HZ_BAD_TX, Reg.HZ_LOSS, Reg.HZ_GC, Reg.HZ_GC_ERR], t.reg a = 0) ∧
      t.get Reg.HZ_RELAY_ERR Fl.HZ_RELAY_ERR_TIMEOUT = 0 ∧ t.get Reg.HZ_RELAY_ERR Fl.HZ_RELAY_ERR_RETRY = 0 ∧
      s.regsKept t [Reg.HZ_BAD_RX, Reg.HZ_BAD_TX, Reg.HZ_LOSS, Reg.HZ_GC, Reg.HZ_GC_ERR, Reg.HZ_RELAY_ERR] ∧ t.rest = s.rest) ∧
    (∃ t, exec (.sspErrClear p val) s = .next t ∧ t.reg Reg.SSP_ERR0 = 0 ∧ t.reg Reg.SSP_ERR1 = 0 ∧
      s.regsKept t [Reg.SSP_ERR0, Reg.SSP_ERR1] ∧ t.rest = s.rest) ∧
    (∃ t, exec (.aelClear p q val) s = .next t ∧ (∀ d ∈ [0, 4, 8, 12, 16], t.reg (State.aelBase q + d) = 0) ∧
      s.regsKept t ([0, 4, 8, 12, 16].map fun d => State.aelBase q + d) ∧ t.rest = s.rest) ∧
    (∃ t, exec (.fcuCntClear p val) s = .next t ∧ (∀ i ∈ State.fcuAssigned, t.reg (Reg.FCU_CNT i) = 0) ∧
      s.regsKept t (State.fcuAssigned.map fun i => Reg.FCU_CNT i) ∧ t.rest = s.rest) ∧
    (s.isSafe = false → ∃ t, exec (.casCntClear p val) s = .next t ∧ t.reg Reg.CAS_CNT = 0 ∧ t.get Reg.CAS_EFM Fl.CAS_EFM_MIN = 255 ∧
      t.get Reg.CAS_EFM Fl.CAS_EFM_LAST = s.get Reg.CAS_EFM Fl.CAS_EFM_LAST ∧ s.regsKept t [Reg.CAS_CNT, Reg.CAS_EFM] ∧ t.rest = s.rest))

/-! ## Watchdog and chip reset (chapters 2 and 15) -/

/-- R457 to R461: enabling the watchdog, arming the service sequence, and serving it; a start of the count latches timeout and warning. Any
other key, and a count that reaches the timeout, start a chip reset, or where the device sleeps are a wake source and start the count again;
at the warning point WARN is set. -/
def Obligations.WatchdogRuns : Prop :=
  (∀ (s : State) (p : Path), s.reaches p = true → s.calm = true → s.isPark = false →
    (s.wdtOn = false → ∃ t, exec (.wdtEnable p) s = .next t ∧ t.wdtOn = true ∧ t.flag Reg.WDT_STATUS Fl.WDT_STATUS_ENABLED = true ∧
      t.get Reg.WDT_STATUS Fl.WDT_STATUS_ARMED = 0 ∧
      t.get Reg.WDT_STATUS Fl.WDT_STATUS_LATCHED_MS = s.get Reg.WDT_TIMEOUT Fl.WDT_TIMEOUT_MS ∧
      s.regsKept t [Reg.WDT_CTRL, Reg.WDT_STATUS] ∧
      t.rest = { s with wdtCount := 0, wdtTimeout := s.get Reg.WDT_TIMEOUT Fl.WDT_TIMEOUT_MS, wdtWarn := s.get Reg.WDT_WARN Fl.WDT_WARN_MS,
                        wdtWarned := false }.rest) ∧
    (s.wdtOn = true → s.flag Reg.WDT_STATUS Fl.WDT_STATUS_ARMED = false →
      ∃ t, exec (.wdtKeyArm p) s = .next t ∧ t.flag Reg.WDT_STATUS Fl.WDT_STATUS_ARMED = true ∧
        t.get Reg.WDT_STATUS Fl.WDT_STATUS_LATCHED_MS = s.get Reg.WDT_STATUS Fl.WDT_STATUS_LATCHED_MS ∧
        s.regsKept t [Reg.WDT_STATUS] ∧ t.rest = s.rest) ∧
    (s.wdtOn = true → s.flag Reg.WDT_STATUS Fl.WDT_STATUS_ARMED = true →
      ∃ t, exec (.wdtKeyServe p) s = .next t ∧ t.get Reg.WDT_STATUS Fl.WDT_STATUS_ARMED = 0 ∧
        t.get Reg.WDT_STATUS Fl.WDT_STATUS_LATCHED_MS = s.get Reg.WDT_TIMEOUT Fl.WDT_TIMEOUT_MS ∧
        t.get Reg.WDT_SERVICES Fl.WDT_SERVICES_COUNT = (s.get Reg.WDT_SERVICES Fl.WDT_SERVICES_COUNT + 1) % 2 ^ 32 ∧
        s.regsKept t [Reg.WDT_STATUS, Reg.WDT_SERVICES] ∧
        t.rest = { s with wdtCount := 0, wdtTimeout := s.get Reg.WDT_TIMEOUT Fl.WDT_TIMEOUT_MS, wdtWarn := s.get Reg.WDT_WARN Fl.WDT_WARN_MS,
                          wdtWarned := false }.rest)) ∧
  (∀ (s : State) (p : Path) (val : Word) (t : Nat), s.calm = true →
    let key := getF val Fl.WDT_KEY_KEY
    let armed := s.flag Reg.WDT_STATUS Fl.WDT_STATUS_ARMED
    (s.reaches p = true → s.isPark = false → s.wdtOn = true → ¬(key = 0x5A ∧ armed = false) → ¬(key = 0xC3 ∧ armed = true) →
      (s.wakes = false → s.pw.held = false → ∃ x, exec (.wdtKeyBad p val) s = .next x ∧ s.resetBegun x 8 0) ∧
      (s.isSleep = true → ∃ x, exec (.wdtKeyBad p val) s = .next x ∧ x.get Reg.WDT_EVENT Fl.WDT_EVENT_WAKE = 1 ∧
        x.get Reg.PWR_WAKE_CAUSE Fl.PWR_WAKE_CAUSE_WDT = 1 ∧ x.pw.woken = true ∧ x.wdtCount = 0 ∧ x.isSleep = true ∧
        s.regsKept x [Reg.WDT_EVENT, Reg.PWR_WAKE_CAUSE, Reg.WDT_STATUS])) ∧
    (s.clocked = true → (s.atTime t).wdtDue = true →
      (s.wakes = false → s.pw.held = false → ∃ x, exec (.wdtExpiry t) s = .next x ∧ s.resetBegun x 8 0) ∧
      (s.isSleep = true → ∃ x, exec (.wdtExpiry t) s = .next x ∧ x.get Reg.WDT_EVENT Fl.WDT_EVENT_WAKE = 1 ∧
        x.get Reg.PWR_WAKE_CAUSE Fl.PWR_WAKE_CAUSE_WDT = 1 ∧ x.pw.woken = true ∧ x.wdtCount = 0 ∧ x.isSleep = true)) ∧
    (s.clocked = true → s.wdtOn = true → s.wdtWarn ≠ 0 → s.wdtWarned = false →
      (s.wdtTimeout - s.wdtWarn) * 500000 ≤ s.wdtCount + (t - s.clk.ts) →
      ∃ x, exec (.wdtWarn t) s = .next x ∧ x.get Reg.WDT_EVENT Fl.WDT_EVENT_WARN = 1 ∧ x.wdtWarned = true ∧
        x.get Reg.WDT_EVENT Fl.WDT_EVENT_WAKE = s.get Reg.WDT_EVENT Fl.WDT_EVENT_WAKE ∧ s.regsKept x [Reg.WDT_EVENT, Reg.BIST_OPTIME]))

/-- R60 to R62: the sources of a chip reset: the command with its key (any other value is recorded and has no effect), the pin, and a dip of
VH. Each begins it with its own cause.
The model's own choices behind it: log entry 75. -/
def Obligations.ChipResetBegins : Prop :=
  ∀ (s : State) (p : Path) (val : Word) (t : Nat), s.calm = true →
    (s.reaches p = true → val = 0x2640C0DE → s.pw.held = false →
      ∃ x, exec (.sysResetCmd p val) s = .next x ∧ s.resetBegun x (match p with | .pcie => 32 | .spi => 64) 0) ∧
    (s.reaches p = true → val ≠ 0x2640C0DE → ∃ x, exec (.sysResetCmd p val) s = .next x ∧ x.rest = s.rest ∧
      x.get (State.aelBase p) Fl.PCX_AEL_COUNT_EVENT = 1 ∧ (x.reg (State.aelBase p + 12)).toNat = Reg.SYS_RESET_CMD ∧
      s.regsKept x [State.aelBase p, State.aelBase p + 4, State.aelBase p + 8, State.aelBase p + 12, State.aelBase p + 16]) ∧
    (s.pw.held = false → s.pw.off = false → ∃ x, exec (.resetPin t) s = .next x ∧ s.resetBegun x 4 0) ∧
    (s.pw.held = false → s.pw.off = false → s.pw.vh = .good →
      ∃ x, exec .vhBrownOut s = .next x ∧ s.resetBegun x 2 0 ∧ x.pw.vh = .between)

/-- R45, R48 to R50, R62 to R64: power returns, the rails are good, the reset ends with timestamp 0, and with the PLL's lock SCLK runs and
service level 1 is reached. Below 1.60 V the device is OFF.
The model's own choices behind it: log entries 10 and 81. -/
def Obligations.PowerUpRunsInOrder : Prop :=
  ∀ s : State, s.calm = true →
    (∃ t, exec .vhPowerLoss s = .next t ∧ t.pw.vh = .below160 ∧ t.pw.off = true ∧ t.pw.held = true ∧ t.clk.ts = 0 ∧
      (∀ a, fires a = false → t.reg a = regReset a) ∧ t.fregs = s.fregs ∧ t.hostMem = s.hostMem ∧ t.pending = s.pending) ∧
    (s.pw.vh = .below160 → ∃ t, exec .vhPowerOn s = .next t ∧ t.pw.vh = .good ∧ t.pw.off = false ∧ t.pw.held = true ∧ t.pw.rails = false ∧
      (∀ a, fires a = false → t.reg a = regReset a) ∧ t.fregs = s.fregs) ∧
    (s.pw.vh = .between → ∃ e, exec .vhPowerOn s = .next (s.ended e) ∧ s.onlyRegs e [] ∧
      e.unregistered = { s with pw := { s.pw with vh := .good } }.unregistered) ∧
    (∀ refsel lead, s.pw.off = false → s.pw.vh = .good → s.pw.level1 = false → s.pw.bootStep < 3 → s.pw.strapped = false → s.pw.held = false →
      ∃ e, exec (.railsPowerGood refsel lead true) s = .next (s.ended e) ∧
        e.flag Reg.SYS_STRAP Fl.SYS_STRAP_REFSEL = refsel ∧ e.flag Reg.SYS_STRAP Fl.SYS_STRAP_LEAD = lead ∧
        e.flag Reg.CLK_STATUS Fl.CLK_STATUS_REFCLK_OK = true ∧ s.onlyRegs e [Reg.SYS_STRAP, Reg.CLK_STATUS] ∧
        e.unregistered = { s with pw := { s.pw with rails := true, strapped := true, bootStep := 3 } }.unregistered) ∧
    (s.pw.held = true → s.pw.vh = .good → s.pw.rails = true → s.pw.strapped = false →
      ∃ e, exec .chipResetEnd s = .next (s.ended e) ∧ s.onlyRegs e [] ∧
        e.unregistered = { s with pw := { s.pw with held := false, bootStep := 2 }, clk := { s.clk with ts := 0 } }.unregistered) ∧
    (s.pw.held = false → s.pw.off = false → s.pw.level1 = false → s.pw.bootStep = 3 → s.flag Reg.CLK_STATUS Fl.CLK_STATUS_REFCLK_OK = true →
      s.flag Reg.CLK_STATUS Fl.CLK_STATUS_BYPASS = false →
      ∃ e, exec .pllLock s = .next (s.ended e) ∧ e.alive = true ∧ e.clk.sclk = true ∧ e.pw.bootStep = 5 ∧ e.clk.bootTs = s.clk.ts ∧
        e.get Reg.CLK_STATUS Fl.CLK_STATUS_PLL_LOCK = 1)

/-! ## Supplies, clocks and power states (chapter 2) -/

/-- R42, R43, R50, R527: losses and the return of the clock, and a rail out of its window, while registers answer. The first four enter the
safe state, or end in it, each with its own cause; a PLL that loses lock latches its event, and raises source 0 where a Chart is committed.
The model's own choices behind it: log entry 59. -/
def Obligations.ClockAndRailLosses : Prop :=
  ∀ (s : State) (t : Nat), s.alive = true →
    let x := s.atTime t
    (s.flag Reg.CLK_STATUS Fl.CLK_STATUS_REFCLK_OK = true → s.flag Reg.CLK_STATUS Fl.CLK_STATUS_PLL_LOCK = true → s.chartOk = false → ∃ e, exec (.pllLockLoss t) s = .next (s.ended e) ∧
      e.get Reg.CLK_STATUS Fl.CLK_STATUS_PLL_LOCK = 0 ∧ e.get Reg.CLK_EVENT Fl.CLK_EVENT_LOCK_LOST = 1 ∧
      e.get Reg.CLK_EVENT Fl.CLK_EVENT_LOCK_LOST_COUNT =
        min (s.get Reg.CLK_EVENT Fl.CLK_EVENT_LOCK_LOST_COUNT + 1) (2 ^ Fl.CLK_EVENT_LOCK_LOST_COUNT.width - 1) ∧
      x.onlyRegs e [Reg.CLK_STATUS, Reg.CLK_EVENT] ∧ e.unregistered = x.unregistered) ∧
    (s.flag Reg.CLK_STATUS Fl.CLK_STATUS_REFCLK_OK = true → s.flag Reg.CLK_STATUS Fl.CLK_STATUS_PLL_LOCK = true → s.chartOk = true → ∃ e, exec (.pllLockLoss t) s = .next (s.ended e) ∧
      e.get Reg.CLK_STATUS Fl.CLK_STATUS_PLL_LOCK = 0 ∧ e.get Reg.CLK_EVENT Fl.CLK_EVENT_LOCK_LOST = 1 ∧ e.fcuLatched 0 = true ∧
      e.get (Reg.FCU_CNT 0) Fl.FCU_CNT_COUNT = min (s.get (Reg.FCU_CNT 0) Fl.FCU_CNT_COUNT + 1) (2 ^ Fl.FCU_CNT_COUNT.width - 1)) ∧
    (s.isSafe = false → ∀ runs, ∃ e, exec (.refclkLoss runs t) s = .next (s.ended e) ∧
      e.get Reg.CLK_STATUS Fl.CLK_STATUS_REFCLK_OK = 0 ∧ e.isSafe = true ∧ e.pw = { s.pw with safeCause := 2 } ∧
      e.clk.sclk = (runs && s.clk.sclk) ∧ x.onlyRegs e [Reg.CLK_STATUS, Reg.PWR_STATE]) ∧
    (s.isSafe = false → ∃ e, exec (.sclkLoss t) s = .next (s.ended e) ∧ e.isSafe = true ∧ e.pw.safeCause = 3 ∧
      e.clk.sclk = false ∧ e.get Reg.CLK_STATUS Fl.CLK_STATUS_PLL_LOCK = 0 ∧ x.onlyRegs e [Reg.CLK_STATUS, Reg.PWR_STATE]) ∧
    (s.isSafe = true → ∃ e, exec .refclkReturn s = .next (s.ended e) ∧ e.get Reg.CLK_STATUS Fl.CLK_STATUS_REFCLK_OK = 1 ∧
      e.get Reg.CLK_STATUS Fl.CLK_STATUS_PLL_LOCK = 1 ∧ s.onlyRegs e [Reg.CLK_STATUS] ∧
      e.unregistered = { s with clk := { s.clk with sclk := true } }.unregistered) ∧
    (s.isSafe = false → s.pw.rails = true → ∃ e, exec (.railOutOfWindow t) s = .next (s.ended e) ∧ e.isSafe = true ∧
      x.onlyRegs e [Reg.PWR_STATE] ∧ e.unregistered = { x with pw := { s.pw with rails := false, safeCause := 4 } }.unregistered)

/-- R43, R50: before service level 1 a lost clock takes boot back before step 3, and a rail out of its window to step 1. -/
def Obligations.BootStepsBack : Prop :=
  ∀ (s : State) (t : Nat), s.pw.off = false → s.pw.held = false → s.pw.level1 = false →
    let x := s.atTime t
    (∀ runs, ∃ e, exec (.refclkLoss runs t) s = .next (s.ended e) ∧ e.get Reg.CLK_STATUS Fl.CLK_STATUS_REFCLK_OK = 0 ∧
      x.onlyRegs e [Reg.CLK_STATUS] ∧ e.unregistered = { x with pw := { s.pw with bootStep := min 2 s.pw.bootStep } }.unregistered) ∧
    (s.pw.rails = true → ∃ e, exec (.railOutOfWindow t) s = .next (s.ended e) ∧ x.onlyRegs e [] ∧
      e.unregistered = { x with pw := { s.pw with rails := false, bootStep := 1 } }.unregistered) ∧
    (s.pw.rails = true → s.pw.strapped = true → s.pw.bootStep < 3 →
      ∃ e, exec .refclkReturn s = .next (s.ended e) ∧ e.get Reg.CLK_STATUS Fl.CLK_STATUS_REFCLK_OK = 1 ∧
        s.onlyRegs e [Reg.CLK_STATUS] ∧ e.unregistered = { s with pw := { s.pw with bootStep := 3 } }.unregistered)

/-- R528: a sample of VH, of the junction temperature and of VF is shown, held in its field, and its sources follow: supplies by their
window, the temperatures with 5 °C of hysteresis. -/
def Obligations.SamplesAreEvaluated : Prop :=
  ∀ (s : State) (mv t : Nat) (c : Int), s.clocked = true → s.clk.ts ≤ t →
    (t % 500000 = 0 → ∃ e, exec (.vhSample mv t) s = .next (s.ended e) ∧ e.get Reg.PWR_SUPPLY Fl.PWR_SUPPLY_VH_MV = min mv 8191 ∧
      e.fcuRaw 3 = State.supplyBad (min mv 8191) ∧ (State.supplyBad (min mv 8191) = true → e.fcuLatched 3 = true)) ∧
    (t % 50000 = 0 → ∃ e, exec (.tempSample c t) s = .next (s.ended e) ∧
      e.get Reg.FCU_THERM Fl.FCU_THERM_TEMP_C = unsigned 8 (max (-128) (min 127 c)) ∧
      e.fcuRaw 1 = (decide ((s.get Reg.FCU_THERM Fl.FCU_THERM_WARN_C : Int) ≤ max (-128) (min 127 c)) ||
        (s.fcuRaw 1 && decide ((s.get Reg.FCU_THERM Fl.FCU_THERM_WARN_C : Int) - 5 ≤ max (-128) (min 127 c)))) ∧
      e.fcuRaw 2 = (decide (125 ≤ c) || (s.fcuRaw 2 && decide (120 ≤ c)))) ∧
    (t % 5000000 = 0 → (s.hzUp || s.hzKeep) = true → ∃ e, exec (.vfSample mv t) s = .next (s.ended e) ∧
      e.get Reg.PWR_SUPPLY Fl.PWR_SUPPLY_VF_MV = min mv 8191 ∧ e.get Reg.PWR_SUPPLY Fl.PWR_SUPPLY_VF_VALID = 1 ∧
      e.get Reg.PWR_SUPPLY Fl.PWR_SUPPLY_VH_MV = s.get Reg.PWR_SUPPLY Fl.PWR_SUPPLY_VH_MV ∧ e.fcuRaw 4 = State.supplyBad (min mv 8191)) ∧
    (t % 5000000 = 0 → (s.hzUp || s.hzKeep) = false → ∃ e, exec (.vfSample mv t) s = .next (s.ended e) ∧ e = s.atTime t)
/-- R52, R101: SLEEP and PARK are taken in RUN with every function stopped, and every camera lane is OFF; WAKE ends SLEEP and PARK. What the
state does not take is refused, and a command written during a COMMIT or a retest is held.
The model's own choices behind it: log entries 88 and 114. -/
def Obligations.PowerCommandsAreTaken : Prop :=
  ∀ (s : State) (p : Path), s.reaches p = true → s.isSafe = false →
    let free := s.commitBusy = false ∧ s.retestSlice = none
    let idle := s.isRun = true ∧ s.parkEntry = false ∧ s.parkExit = false ∧ s.allStopped = true
    (free → idle → (∃ e, exec (.pwrSleep p) s = .next (s.ended e) ∧ e.isSleep = true ∧ e.pw = { s.pw with woken := false } ∧
      (∀ x : Fin 16, e.laneState x = 0) ∧ (∀ a, settles a = false → a ≠ Reg.PWR_STATE → e.reg a = s.reg a)) ∧
      (∃ e, exec (.pwrPark p) s = .next (s.ended e) ∧ e.isRun = true ∧ e.parkEntry = true ∧ e.casState = 0 ∧ e.pw.parkStep = 1 ∧
        e.pw.woken = false ∧ (∀ x : Fin 16, e.laneState x = 0) ∧
        (∀ a, settles a = false → a ≠ Reg.PWR_STATE → a ≠ Reg.CAS_STATUS → e.reg a = s.reg a))) ∧
    (free → ¬idle → (∃ e, exec (.pwrSleep p) s = .next (s.ended e) ∧ e.get Reg.PWR_STATE Fl.PWR_STATE_CMD_REFUSED = 1 ∧
      e.pwState = s.pwState ∧ s.onlyRegs e [Reg.PWR_STATE] ∧ e.unregistered = s.unregistered) ∧
      (∃ e, exec (.pwrPark p) s = .next (s.ended e) ∧ e.get Reg.PWR_STATE Fl.PWR_STATE_CMD_REFUSED = 1 ∧
        e.pwState = s.pwState ∧ s.onlyRegs e [Reg.PWR_STATE] ∧ e.unregistered = s.unregistered)) ∧
    (free → s.isSleep = true → ∃ e, exec (.pwrWake p) s = .next (s.ended e) ∧
      e.get Reg.PWR_WAKE_CAUSE Fl.PWR_WAKE_CAUSE_CMD = 1 ∧ e.pw.woken = true ∧ s.onlyRegs e [Reg.PWR_WAKE_CAUSE]) ∧
    (free → s.isPark = true → ∃ e, exec (.pwrWake p) s = .next (s.ended e) ∧
      e.get Reg.PWR_WAKE_CAUSE Fl.PWR_WAKE_CAUSE_CMD = 1 ∧ e.isPark = true ∧ e.parkExit = true ∧
      s.onlyRegs e [Reg.PWR_WAKE_CAUSE, Reg.PWR_STATE]) ∧
    (free → s.wakes = false → ∃ e, exec (.pwrWake p) s = .next (s.ended e) ∧ e.get Reg.PWR_STATE Fl.PWR_STATE_CMD_REFUSED = 1 ∧
      e.pwState = s.pwState ∧ s.onlyRegs e [Reg.PWR_STATE] ∧ e.unregistered = s.unregistered) ∧
    (s.commitBusy = true → ∃ e, exec (.pwrSleep p) s = .next (s.ended e) ∧ s.onlyRegs e [] ∧
      e.unregistered = { s with heldPwr := 1 }.unregistered)

/-- R55, R57, R59, R153, R467: the sequences of SLEEP and PARK once their conditions hold: the wake from SLEEP, the self-test of the PARK entry,
its end in PARK with SCLK in bypass, its break-off by a wake, and the exit, which fences the slices of words with double-bit errors.
The model's own choices behind it: log entries 87, 89 and 91. -/
def Obligations.SleepAndParkSequences : Prop :=
  ∀ (s : State) (t : Nat), s.acts = true →
    let x := s.atTime t
    (s.isSleep = true → s.pw.woken = true → ∃ e, exec (.sleepExitComplete t) s = .next (s.ended e) ∧ e.isRun = true ∧
      e.get Reg.EVT_PULSE Fl.EVT_PULSE_WAKE_DONE = 1 ∧ x.onlyRegs e [Reg.PWR_STATE, Reg.EVT_PULSE] ∧
      e.unregistered = { x with pw := { s.pw with woken := false } }.unregistered) ∧
    (s.parkEntry = true → s.pw.parkStep = 1 → s.pw.wakeHeld = false → s.fenceMap.testBit 45 = false →
      ∃ e, exec (.parkSelftestStart t) s = .next (s.ended e) ∧ e.bistPhase = 1 ∧ e.pw = { s.pw with parkStep := 3 } ∧
        e.bist.memQ = 45 :: queueOrder (fun k => (s.pair Reg.BIST_UNFIN_LO Reg.BIST_UNFIN_HI).testBit k) (s.unfencedOf (List.range 17)) ∧
        e.bist.logQ = queueOrder (fun k => (s.pair Reg.BIST_UNFIN_LO Reg.BIST_UNFIN_HI).testBit k)
          (s.unfencedOf ((List.range 28).map (17 + ·) ++ [46, 47])) ∧
        (∀ a, a < 0x500000 ∨ 0x600000 ≤ a → e.reg a = x.reg a)) ∧
    (s.parkEntry = true → s.pw.parkStep = 5 → ∃ e, exec (.parkEntryComplete t) s = .next (s.ended e) ∧ e.isPark = true ∧
      e.parkExit = s.pw.wakeHeld ∧ e.get Reg.CLK_STATUS Fl.CLK_STATUS_PLL_LOCK = 0 ∧ e.get Reg.CLK_STATUS Fl.CLK_STATUS_BYPASS = 1 ∧
      e.hzState = (if s.hzUp then 6 else s.hzState) ∧ e.pw = { s.pw with parkStep := 0, wakeHeld := false } ∧
      x.onlyRegs e [Reg.PWR_STATE, Reg.CLK_STATUS, Reg.HZ_STATUS]) ∧
    (∀ ok, s.parkEntry = true → s.pw.wakeHeld = true → s.pw.parkStep < 4 → ∃ e, exec (.parkEntryAborted ok t) s = .next (s.ended e) ∧
      e.get Reg.PWR_STATE Fl.PWR_STATE_PARK_ABORTED = 1 ∧ e.get Reg.PWR_STATE Fl.PWR_STATE_PHASE = 0 ∧ e.pwState = s.pwState ∧
      e.bistPhase = 0 ∧ e.pw.parkStep = 0 ∧ e.pw.woken = false) ∧
    (∀ bad : List (Fin 17), s.isPark = true → s.parkExit = true → ∃ e, exec (.parkExitComplete bad t) s = .next (s.ended e) ∧
      e.isRun = true ∧ e.get Reg.PWR_STATE Fl.PWR_STATE_PHASE = 0 ∧ e.get Reg.CLK_STATUS Fl.CLK_STATUS_PLL_LOCK = 1 ∧
      e.get Reg.CLK_STATUS Fl.CLK_STATUS_BYPASS = 0 ∧ e.get Reg.EVT_PULSE Fl.EVT_PULSE_WAKE_DONE = 1 ∧
      (∀ k ∈ bad, e.fenceMap.testBit k = true) ∧ e.pw = { s.pw with woken := false, rails := true } ∧ e.chart = s.chart)

/-- R23, R25, Table 1-5: START takes a stopped function to IDLE, and fails with cause 4 in a power state that sleeps; STOP takes an armed
function to STOPPED, a running one to DRAINING, and ends a bring-up with START_FAIL 6; ABORT closes the open
transits of a function in service and stops it with cause 2. -/
def Obligations.FunctionCommandsAreTaken : Prop :=
  ∀ (s : State) (p : Path) (n : Fin 8), s.reaches p = true → s.isSafe = false → s.isPark = false →
    let st := Reg.SYS_FN_STATE n
    (s.parked = false → s.commitBusy = false → s.retestSlice = none → s.fnState n = 0 → ∃ e, exec (.start p n) s = .next (s.ended e) ∧
      e.fnState n = 1 ∧ e.get st Fl.SYS_FN_STATE_START_FAIL = 0 ∧
      ∀ a, a < 0x100000 → a ∉ [st, Reg.SYS_FN_EVENT] → e.reg a = s.reg a) ∧
    (s.parked = true → ∃ e, exec (.start p n) s = .next (s.ended e) ∧ e.get st Fl.SYS_FN_STATE_START_FAIL = 4 ∧ s.onlyRegs e [st] ∧
      e.unregistered = s.unregistered) ∧
    (s.fnState n = 2 → ∃ e, exec (.stop p n) s = .next (s.ended e) ∧ e.fnState n = 0 ∧ e.get st Fl.SYS_FN_STATE_LAST_STOP_CAUSE = 1 ∧
      ∀ a, settles a = false → e.reg a = s.reg a) ∧
    (s.fnState n = 3 → ∃ e, exec (.stop p n) s = .next (s.ended e) ∧ e.fnState n = 4 ∧ e.get st Fl.SYS_FN_STATE_LAST_STOP_CAUSE = 1 ∧
      e.transits = s.transits ∧ s.onlyRegs e [st, Reg.SYS_FN_EVENT]) ∧
    (s.fnState n = 1 → ∃ e, exec (.stop p n) s = .next (s.ended e) ∧ exec (.abort p n) s = .next (s.ended e) ∧ e.fnState n = 0 ∧
      e.get st Fl.SYS_FN_STATE_START_FAIL = 6 ∧ e.bit Reg.SYS_FN_EVENT Fl.SYS_FN_EVENT_START_FAILED n = true ∧
      ∀ a, settles a = false → e.reg a = s.reg a) ∧
    (2 ≤ s.fnState n → s.fnState n ≤ 4 → ∃ e, exec (.abort p n) s = .next (s.ended e) ∧ e.fnState n = 0 ∧
      e.get st Fl.SYS_FN_STATE_LAST_STOP_CAUSE = 2 ∧ e.openOf n = [])

/-- R30, Table 1-5, R359, R360: when every check of a bring-up passes the function is ARMED, and a line timer starts from 0; when its limit
has run out it is STOPPED with the cause first unmet; when the drain limit has run out its open
transits close at once and it is STOPPED with cause 3.
The model's own choices behind it: log entry 12. -/
def Obligations.BringUpAndDrainEnd : Prop :=
  ∀ (s : State) (n : Fin 8) (t : Nat), s.acts = true →
    let x := s.atTime t
    let st := Reg.SYS_FN_STATE n
    (x.fnState n = 1 → x.unmetNow n = [] → x.fnLineTimer n = false → ∃ e, exec (.bringupComplete n t) s = .next (s.ended e) ∧
      e.fnState n = 2 ∧ x.onlyRegs e [st, Reg.SYS_FN_EVENT] ∧ e.unregistered = x.unregistered) ∧
    (x.fnState n = 1 → x.unmetNow n = [] → x.fnLineTimer n = true → x.fnOpenSource n ≠ 2 → ∃ e,
      exec (.bringupComplete n t) s = .next (s.ended e) ∧ e.fnState n = 2 ∧ e.reg (Reg.LTG_TMR_COUNT n) = 0 ∧
      x.onlyRegs e [st, Reg.SYS_FN_EVENT, Reg.LTG_TMR_COUNT n]) ∧
    (∀ c, x.fnState n = 1 → (x.fnRun n).start + x.bringupLimit n ≤ x.clk.ts → State.firstUnmet ((x.unmetUpdate n).fnRun n).unmet = some c → c < 8 →
      ∃ e, exec (.bringupTimeout n t) s = .next (s.ended e) ∧ e.fnState n = 0 ∧ e.get st Fl.SYS_FN_STATE_START_FAIL = c ∧
        e.bit Reg.SYS_FN_EVENT Fl.SYS_FN_EVENT_START_FAILED n = true ∧ ∀ a, settles a = false → e.reg a = x.reg a) ∧
    (x.fnState n = 4 → (x.fnRun n).drain + x.drainLimit n ≤ x.clk.ts → ∃ e, exec (.drainTimeout n t) s = .next (s.ended e) ∧
      e.fnState n = 0 ∧ e.get st Fl.SYS_FN_STATE_LAST_STOP_CAUSE = 3 ∧ e.openOf n = []) ∧
    (x.fnState n = 4 → x.clk.ts < (x.fnRun n).drain + x.drainLimit n → exec (.drainTimeout n t) s = .next (s.ended x))

/-- R149, Table 5-5, R151: training starts, Jens locks, waits, and fails at a step; it starts again by itself while AUTO_TRAIN is set.
The model's own choices behind it: log entries 53 and 54. -/
def Obligations.LinkTrainingRuns : Prop :=
  ∀ (s : State) (t : Nat), s.clocked = true →
    let x := s.atTime t
    (s.mayTrain = true → ∃ e, exec (.hzTrainStart t) s = .next (s.ended e) ∧ e.hzState = 1 ∧ x.onlyRegs e [Reg.HZ_STATUS] ∧
      e.unregistered = { x with hz := { s.hz with trainStart := x.clk.ts, lost := false } }.unregistered) ∧
    (s.hzState = 1 → s.pw.vf = true → ∃ e, exec (.hzJensLock t) s = .next (s.ended e) ∧ e.hzState = 2 ∧
      e.get Reg.CLK_STATUS Fl.CLK_STATUS_JENS_LOCK = 1 ∧ e.get Reg.SYS_SVC Fl.SYS_SVC_JENS_OK = 1 ∧
      x.onlyRegs e [Reg.CLK_STATUS, Reg.SYS_SVC, Reg.HZ_STATUS] ∧ e.unregistered = x.unregistered) ∧
    (s.hzState = 1 → ∃ e, exec (.hzTrainWait t) s = .next (s.ended e) ∧ e.get Reg.HZ_EVENT Fl.HZ_EVENT_TRAIN_WAIT = 1 ∧ e.hzState = 1 ∧
      x.onlyRegs e [Reg.HZ_EVENT] ∧ e.unregistered = x.unregistered) ∧
    (∀ step, step < 16 → 2 ≤ s.hzState → s.hzState ≤ 4 → ∃ e, exec (.hzTrainFail step t) s = .next (s.ended e) ∧
      e.get Reg.HZ_EVENT Fl.HZ_EVENT_TRAIN_FAIL = 1 ∧ e.get Reg.HZ_STATUS Fl.HZ_STATUS_FAIL_STEP = step ∧
      e.hzState = (if s.flag Reg.HZ_CTRL Fl.HZ_CTRL_AUTO_TRAIN then 1 else 0) ∧ x.onlyRegs e [Reg.HZ_EVENT, Reg.HZ_STATUS])

/-- R152, R184, R529: a phase within 1 500 ps is recorded; a wider one, and RETRAIN, take the link down: HZ_OK is 0, nothing waits to be sent
or acknowledged, and no relay transaction is left. -/
def Obligations.LinkGoesDown : Prop :=
  ∀ (s : State), s.clocked = true →
    (∀ ps code, s.hzState = 5 → ps.natAbs ≤ 1500 → code < 64 → ∃ e, exec (.hzPhaseMeasure ps code) s = .next (s.ended e) ∧
      e.get Reg.HZ_PHASE Fl.HZ_PHASE_OFFSET_PS = unsigned 16 ps ∧ e.get Reg.HZ_PHASE Fl.HZ_PHASE_CODE = code ∧
      e.reg Reg.HZ_BAD_TX = s.jreg Reg.MIR_BAD_BEATS ∧ s.onlyRegs e [Reg.HZ_PHASE, Reg.HZ_BAD_TX] ∧ e.unregistered = s.unregistered) ∧
    (∀ ps code, s.hzState = 5 → 1500 < ps.natAbs → ∃ e, exec (.hzPhaseMeasure ps code) s = .next (s.ended e) ∧
      e.get Reg.HZ_EVENT Fl.HZ_EVENT_PHASE_LIMIT = 1 ∧ e.get Reg.HZ_EVENT Fl.HZ_EVENT_LOSS = 1 ∧ e.hzState = 0 ∧
      e.get Reg.SYS_SVC Fl.SYS_SVC_HZ_OK = 0 ∧ e.hz.lost = true ∧ e.hz.relay = none ∧ e.hz.relayWait = [] ∧ e.hz.gateQ = [] ∧
      e.hz.stageQ = [] ∧ e.hz.staged = []) ∧
    (∀ p val, s.reaches p = true → s.isSafe = false → s.isPark = false → s.allStopped = true → getF val Fl.HZ_CTRL_RETRAIN = 1 → ∃ e,
      exec (.hzRetrain p val) s = .next (s.ended e) ∧ e.hzState = 1 ∧ e.get Reg.SYS_SVC Fl.SYS_SVC_HZ_OK = 0 ∧
      e.get Reg.HZ_CTRL Fl.HZ_CTRL_AUTO_TRAIN = getF val Fl.HZ_CTRL_AUTO_TRAIN ∧ e.get Reg.HZ_CTRL Fl.HZ_CTRL_RETRAIN = 0 ∧
      e.hz.lost = false ∧ e.hz.relay = none ∧ e.hz.relayWait = [] ∧ e.hz.gateQ = [] ∧ e.hz.stageQ = [] ∧ e.hz.staged = [])

/-- R216, R218, R221, R226, R227: a firing that is due starts its peak with the clamped, scaled length of its program, unless the partner is in
PEAK; it is then deferred, or dropped when it would have to wait longer than MAX_DEFERRAL_US. -/
def Obligations.DueFiringsStart : Prop :=
  ∀ (s : State) (j : Fin 8) (t : Nat) (f : Firing), s.pw.vf = true →
    let x := s.atTime t
    let k := State.glsPair j
    (j.val % 2 = 1 → x.nextDue (State.glsPartner j) = none) → x.nextDue j = some f →
    ((∀ b, x.active (State.glsPartner j) = some b → b.inHold = true ∨ b.peakEnd ≤ x.clk.jts) → ∃ e a,
      exec (.gateFireDue j t) s = .next (s.ended e) ∧ e.active j = some a ∧
      a.tref = f.tref ∧ a.inHold = false ∧ a.holdLen = 500 * f.holdUs ∧
      a.peakEnd = x.clk.jts + 50000 * min (x.jget (Reg.GLS_LIMIT j) Fl.GLS_LIMIT_PEAK_MAX)
        (max (x.jget (Reg.GLS_LIMIT j) Fl.GLS_LIMIT_PEAK_MIN) (f.peakTime * x.jget (Reg.GLS_SCALE j) Fl.GLS_SCALE_PEAK_SCALE / 128)) ∧
      a.holdEff = min (x.jget (Reg.GLS_LIMIT j) Fl.GLS_LIMIT_HOLD_DUTY_MAX) (f.holdDuty * x.jget (Reg.GLS_SCALE j) Fl.GLS_SCALE_HOLD_SCALE / 128) ∧
      (∀ i, i ≠ j → e.active i = x.active i) ∧ e.jget (Reg.GLS_STATUS j) Fl.GLS_STATUS_LAST_TREF = f.tref % 128 ∧
      e.jget (Reg.GLS_EVENT j) Fl.GLS_EVENT_FIRED = 1 ∧ e.nahar = x.nahar ∧
      (x.active j = none → e.jens.firings = x.jens.firings.erase f ∧
        (f.recorded = true → e.jget (Reg.GATE_STATE f.tref) Fl.GATE_STATE_OUTCOME = if f.late then 4 else 3) ∧
        x.onlyJens e [Reg.GATE_STATE f.tref, Reg.GHS_ISNS k, Reg.GLS_STATUS j, Reg.GLS_CNT j, Reg.GLS_EVENT j])) ∧
    (∀ b, x.active (State.glsPartner j) = some b → b.inHold = false → x.clk.jts < b.peakEnd → b.peakEnd - x.clk.jts ≤ x.deferLimit j → ∃ e,
      exec (.gateFireDue j t) s = .next (s.ended e) ∧
      e.jens = { x.jens with firings := x.jens.firings.erase f ++ [{ f with deadline := some (x.clk.jts + x.deferLimit j) }] } ∧
      e.jget (Reg.GLS_EVENT j) Fl.GLS_EVENT_DEFERRED = 1 ∧
      (f.recorded = true → e.jget (Reg.GATE_STATE f.tref) Fl.GATE_STATE_OUTCOME = 2) ∧
      x.onlyJens e [Reg.GATE_STATE f.tref, Reg.GHS_CNT k, Reg.GLS_EVENT j]) ∧
    (∀ b, x.active (State.glsPartner j) = some b → b.inHold = false → x.clk.jts < b.peakEnd → x.deferLimit j < b.peakEnd - x.clk.jts → ∃ e,
      exec (.gateFireDue j t) s = .next (s.ended e) ∧ e.jens = { x.jens with firings := x.jens.firings.erase f } ∧
      e.jget (Reg.GLS_EVENT j) Fl.GLS_EVENT_DROPPED = 1 ∧ e.jget (Reg.GHS_EVENT k) Fl.GHS_EVENT_DEFER_DROP = 1 ∧
      (f.recorded = true → e.jget (Reg.GATE_STATE f.tref) Fl.GATE_STATE_OUTCOME = 6) ∧
      x.onlyJens e [Reg.GATE_STATE f.tref, Reg.GHS_CNT k, Reg.GHS_EVENT k, Reg.GLS_EVENT j, Reg.MIR_ATTN])

/-- R216, R220, R226: a peak that has ended gives way to its hold, or to idle without one, and a deferred firing of the partner starts in
its place; a hold ends after HOLD_TIME_US. R229, R230, R231, R223: a sample of the sensed current; an overcurrent outside blanking ends the
pair's programs, drops its deferred firings and latches; OC_CLEAR clears the latch while the current is below the threshold and is recorded
as failed otherwise; a flush drops the firings of the GLSs it names. -/
def Obligations.FiringPhasesEnd : Prop :=
  (∀ (s : State) (j : Fin 8) (t : Nat) (a : Active), s.pw.vf = true →
    let x := s.atTime t
    let g := fun f : Firing => f.gls == State.glsPartner j && f.deadline.isSome
    x.active j = some a →
    (a.inHold = false → a.peakEnd ≤ x.clk.jts → x.jens.firings.filter g = [] →
      exec (.gatePeakEnd j t) s = .next (s.ended (x.setActive j (if a.holdEff = 0 ∨ a.holdLen = 0 then none else some { a with inHold := true })))) ∧
    (∀ f d, a.inHold = false → a.peakEnd ≤ x.clk.jts → x.jens.firings.filter g = [f] → f.deadline = some d → a.peakEnd ≤ d → ∃ e b,
      exec (.gatePeakEnd j t) s = .next (s.ended e) ∧ e.active (State.glsPartner j) = some b ∧ b.tref = f.tref ∧ b.inHold = false ∧
      e.active j = (if a.holdEff = 0 ∨ a.holdLen = 0 then none else some { a with inHold := true }) ∧ e.nahar = x.nahar) ∧
    (∀ f d, a.inHold = false → a.peakEnd ≤ x.clk.jts → x.jens.firings.filter g = [f] → f.deadline = some d → d < a.peakEnd → ∃ e,
      exec (.gatePeakEnd j t) s = .next (s.ended e) ∧ e.active (State.glsPartner j) = x.active (State.glsPartner j) ∧
      e.jens.firings = x.jens.firings.erase f ∧ e.jget (Reg.GHS_EVENT (State.glsPair j)) Fl.GHS_EVENT_DEFER_DROP = 1 ∧ e.nahar = x.nahar) ∧
    (a.inHold = true → a.peakEnd + a.holdLen ≤ x.clk.jts → exec (.gateHoldEnd j t) s = .next (s.ended (x.setActive j none)))) ∧
  (∀ (s : State),
    (∀ (k : Fin 4) uv, s.pw.vf = true →
      let ma := (if 2500000 ≤ uv then 1023 else 1023 * uv / 2500000) * s.jget (Reg.GHS_SENSE k) Fl.GHS_SENSE_ISNS_SCALE / 1023
      ∃ e, exec (.isnsSample k uv) s = .next (s.ended e) ∧ e.jget (Reg.GHS_ISNS k) Fl.GHS_ISNS_NOW = ma % 2 ^ 16 ∧
        e.jens = s.jens ∧ s.onlyJens e [Reg.GHS_ISNS k]) ∧
    (∀ (k : Fin 4) t, s.pw.vf = true →
      let x := s.atTime t
      let lim := x.jget (Reg.GHS_SENSE k) Fl.GHS_SENSE_ISNS_LIMIT_MA
      lim ≠ 0 → lim < x.jget (Reg.GHS_SENSE k) Fl.GHS_SENSE_ISNS_SCALE → x.jens.blankEnd[k] ≤ x.clk.jts →
      ∃ e, exec (.overcurrent k t) s = .next (s.ended e) ∧
        (∀ j : Fin 8, State.glsPair j = k → e.active j = none) ∧ (∀ j : Fin 8, State.glsPair j ≠ k → e.active j = x.active j) ∧
        e.jens.firings = (x.jens.firings.filter fun f => !(State.glsPair f.gls == k && f.deadline.isSome)) ∧
        e.jget (Reg.GHS_STATUS k) Fl.GHS_STATUS_OC_LATCHED = 1 ∧ e.jget (Reg.GHS_EVENT k) Fl.GHS_EVENT_OC = 1 ∧
        (e.jreg Reg.MIR_ATTN).getLsbD (16 + k.val) = true ∧ e.nahar = x.nahar) ∧
    (∀ p (k : Fin 4) val, s.reachesField p = true → getF val Fl.GHS_CTRL_OC_CLEAR = 1 →
      (∃ e, exec (.ocClear p k val true) s = .next (s.ended e) ∧ e.jget (Reg.GHS_STATUS k) Fl.GHS_STATUS_OC_LATCHED = 0 ∧
        e.jens = s.jens ∧ s.onlyJens e [Reg.GHS_STATUS k]) ∧
      (∃ e, exec (.ocClear p k val false) s = .next (s.ended e) ∧ e.jget (Reg.GHS_EVENT k) Fl.GHS_EVENT_OC_CLEAR_FAIL = 1 ∧
        e.jget (Reg.GHS_STATUS k) Fl.GHS_STATUS_OC_LATCHED = s.jget (Reg.GHS_STATUS k) Fl.GHS_STATUS_OC_LATCHED ∧
        e.jens = s.jens ∧ s.onlyJens e [Reg.GHS_EVENT k])) ∧
    (∀ p val, s.reachesField p = true → ∃ e, exec (.gateFlush p val) s = .next (s.ended e) ∧
      e.jens = { s.jens with firings := s.jens.firings.filter fun f => !(getF val Fl.GATE_FLUSH_GLS).testBit f.gls.val } ∧
      (∀ f ∈ s.jens.firings, (getF val Fl.GATE_FLUSH_GLS).testBit f.gls.val = true →
        e.jget (Reg.GLS_EVENT f.gls) Fl.GLS_EVENT_DROPPED = 1 ∧ (f.recorded = true → e.jget (Reg.GATE_STATE f.tref) Fl.GATE_STATE_OUTCOME = 10)) ∧
      e.nahar = s.nahar))

/-- R192, R194, R198, R201, R203: one legal change of A and B is one count in the direction it gives, a change of both is an error and no count,
and no change counts nothing; a regular edge of a tone wheel is one count and the edge that closes its gap is k + 1; after 2^24 cycles without
a count the channel stands still and keeps its fraction.
The model's own choices behind it: log entries 23 and 34. -/
def Obligations.PositionIsCounted : Prop :=
  ∀ (s : State) (c : Fin 4) (t : Nat), s.pw.vf = true →
    let x := s.atTime t
    let regs := [Reg.PFI_POS c, Reg.PFI_STAT c, Reg.PFI_ERR c, Reg.PFI_EVENT c, Reg.PFI_REF_POS c, Reg.PFI_REF_CNT c, Reg.MIR_ATTN]
    let fwd := !x.jflag (Reg.PFI_CFG c) Fl.PFI_CFG_DIR_INVERT
    let counted := fun (e : State) (up : Bool) (n : Nat) =>
      e.jreg (Reg.PFI_POS c) = (if up then x.jreg (Reg.PFI_POS c) + BitVec.ofNat 32 n else x.jreg (Reg.PFI_POS c) - BitVec.ofNat 32 n) ∧
      e.jget (Reg.PFI_STAT c) Fl.PFI_STAT_DIR = (if up then 0 else 1) ∧ e.jget (Reg.PFI_STAT c) Fl.PFI_STAT_STANDSTILL = 0 ∧
      (e.pfi c).lastCount = some x.clk.jts ∧ x.onlyJens e regs
    (∀ a b z, ∃ e, exec (.pfiQuadEdge c a b z t) s = .next (s.ended e) ∧ (e.pfi c).a = a ∧ (e.pfi c).b = b ∧ (e.pfi c).z = z ∧
      (x.pfiMode c = 1 → (State.quadIndex a b + 4 - State.quadIndex (x.pfi c).a (x.pfi c).b) % 4 = 1 → counted e fwd 1) ∧
      (x.pfiMode c = 1 → (State.quadIndex a b + 4 - State.quadIndex (x.pfi c).a (x.pfi c).b) % 4 = 3 → counted e (!fwd) 1) ∧
      (x.pfiMode c = 1 → (State.quadIndex a b + 4 - State.quadIndex (x.pfi c).a (x.pfi c).b) % 4 = 2 →
        e.jget (Reg.PFI_ERR c) Fl.PFI_ERR_QUAD = min (x.jget (Reg.PFI_ERR c) Fl.PFI_ERR_QUAD + 1) 255 ∧
        e.jget (Reg.PFI_EVENT c) Fl.PFI_EVENT_QUAD = 1 ∧ (e.jreg Reg.MIR_ATTN).getLsbD (8 + c.val) = true ∧
        x.onlyJens e [Reg.PFI_ERR c, Reg.PFI_EVENT c, Reg.MIR_ATTN]) ∧
      (x.pfiMode c ≠ 1 ∨ State.quadIndex a b = State.quadIndex (x.pfi c).a (x.pfi c).b → x.onlyJens e [])) ∧
    (∃ e, exec (.pfiToothEdge c t) s = .next (s.ended e) ∧
      (x.pfiMode c ≠ 2 → x.onlyJens e []) ∧
      (x.pfiMode c = 2 → (x.pfi c).tp = none → counted e fwd 1) ∧
      (∀ tp, x.pfiMode c = 2 → (x.pfi c).tp = some tp → x.pfiRefKind c ≠ 4 →
        let n := x.toothSpan c tp
        (n = 1 → counted e fwd 1) ∧
        (n ≠ 1 → n = x.pfiRefKind c + 1 → counted e fwd (x.pfiRefKind c + 1) ∧ e.jget (Reg.PFI_EVENT c) Fl.PFI_EVENT_REF = 1 ∧
          e.jreg (Reg.PFI_REF_POS c) = e.jreg (Reg.PFI_POS c) ∧ (e.pfi c).sinceRef = 0) ∧
        (n ≠ 1 → n ≠ x.pfiRefKind c + 1 → counted e fwd 1 ∧ e.jget (Reg.PFI_EVENT c) Fl.PFI_EVENT_TOOTH = 1 ∧ e.pfiSync c = false))) ∧
    (x.pfiStandstill c = false → 2 ^ 24 ≤ x.pfiElapsed c → ∃ e, exec (.pfiStandstill c t) s = .next (s.ended e) ∧ e.pfiStandstill c = true ∧
      e.pfiFrac c = x.pfiFrac c ∧ e.pfiSpeed c = 0 ∧ x.onlyJens e [Reg.PFI_STAT c])
/-- R205 to R210: at a whole microsecond the rate moves towards the aim by at most ACCEL, and changes sign only through 0; a count is emitted
when the phase accumulator overflows and none passes the target. `y` is the state in which T has followed the source.
The model's own choices behind it: log entry 5. -/
def Obligations.EmulatorsFollowTheirTarget : Prop :=
  ∀ (s : State) (e : Fin 2) (t : Nat), s.pw.vf = true →
    let x := s.atTime t
    let y := x.emuUpdate e
    let r := (y.emu e).rate
    let acc : Int := y.jget (Reg.EMU_ACCEL e) Fl.EMU_ACCEL_ACCEL
    let slew : Int := y.jget (Reg.EMU_SLEW e) Fl.EMU_SLEW_SLEW
    (t % 500 = 0 → s.clk.ts ≤ t → ∃ n, exec (.emuRateUpdate e t) s = .next (s.ended n) ∧
      (n.emu e).target = (y.emu e).target ∧ (n.emu e).out = (y.emu e).out ∧ (n.emu e).acc = (y.emu e).acc ∧
      x.onlyJens n [Reg.EMU_STATUS e, Reg.EMU_EVENT e, Reg.MIR_ATTN] ∧
      (y.emuFrozen e = true → (n.emu e).rate = r) ∧
      (y.emuFrozen e = false → ((n.emu e).rate = 0 ∨ ((n.emu e).rate - r).natAbs ≤ acc.natAbs) ∧
        (0 < r → 0 ≤ (n.emu e).rate) ∧ (r < 0 → (n.emu e).rate ≤ 0) ∧
        (r.natAbs ≤ slew.natAbs → (n.emu e).rate.natAbs ≤ slew.natAbs) ∧ (n.emu e).phase < 2 ^ 32 ∧
        (∀ rc : Int, y.emuM e ≠ 0 → rc * (65536 * y.emuM e) = y.emuSpeed e * 1000 * y.emuN e + 1000 * y.emuLag e * 256 * y.emuM e →
          rc.natAbs ≤ slew.natAbs → (rc - r).natAbs ≤ acc.natAbs → (0 < r → 0 ≤ rc) → (r < 0 → rc ≤ 0) → (n.emu e).rate = rc))) ∧
    (∃ n, exec (.emuCountEmit e t) s = .next (s.ended n) ∧ (n.emu e).target = (y.emu e).target ∧ (n.emu e).rate = r ∧
      x.onlyJens n [Reg.EMU_STATUS e, Reg.EMU_EVENT e, Reg.MIR_ATTN] ∧
      (y.emuFrozen e = true ∨ y.emuRun e < 2 ^ 32 ∨ r = 0 → (n.emu e).out = (y.emu e).out) ∧
      (y.emuFrozen e = false → 2 ^ 32 ≤ y.emuRun e → 0 < r →
        ((y.emu e).out + 1 ≤ (y.emu e).target.fdiv 256 → (n.emu e).out = (y.emu e).out + 1 ∧ (n.emu e).phase = y.emuRun e % 2 ^ 32) ∧
        ((y.emu e).target.fdiv 256 < (y.emu e).out + 1 → (n.emu e).out = (y.emu e).out ∧ (n.emu e).phase = 2 ^ 32 - 1)) ∧
      (y.emuFrozen e = false → 2 ^ 32 ≤ y.emuRun e → r < 0 →
        ((y.emu e).target ≤ 256 * ((y.emu e).out - 1) → (n.emu e).out = (y.emu e).out - 1 ∧ (n.emu e).phase = y.emuRun e % 2 ^ 32) ∧
        (256 * ((y.emu e).out - 1) < (y.emu e).target → (n.emu e).out = (y.emu e).out ∧ (n.emu e).phase = 2 ^ 32 - 1)))

/-- R206, R212, R179, R180: while the functions that own the emulator are STOPPED, a write of N and M takes effect with the accumulator at 0
and O kept, and RESYNC drops the whole counts of the lag and counts them as discarded; the shadow holds what was accepted. -/
def Obligations.EmulatorRegistersAct : Prop :=
  ∀ (s : State) (p : Path) (e : Fin 2) (val : Word), s.reachesField p = true → (∀ n ∈ s.jensOwners (Reg.EMU_RATIO e), s.fnStopped n = true) →
    let y := s.emuUpdate e
    let z := s.emuFollow e
    (∃ n, exec (.emuRatioWrite p e val) s = .next (s.ended n) ∧
      n.jget (Reg.EMU_RATIO e) Fl.EMU_RATIO_N = max 1 (getF val Fl.EMU_RATIO_N) ∧
      n.jget (Reg.EMU_RATIO e) Fl.EMU_RATIO_M = max 1 (getF val Fl.EMU_RATIO_M) ∧
      n.shadowReg (Reg.EMU_RATIO e) = n.jreg (Reg.EMU_RATIO e) ∧
      n.emu e = { y.emu e with acc := 0 } ∧ ({ n with shadow := s.shadow } : State).nahar = s.nahar ∧
      (∀ a, a ∉ [Reg.EMU_RATIO e, Reg.EMU_STATUS e, Reg.EMU_EVENT e, Reg.MIR_ATTN] → n.jreg a = s.jreg a)) ∧
    (getF val Fl.EMU_CTRL_RESYNC = 1 → ∃ n, exec (.emuResync p e val) s = .next (s.ended n) ∧
      n.emu e = { z.emu e with target := 256 * (z.emu e).out + (z.emu e).target.fmod 256 } ∧
      n.jget (Reg.EMU_DISCARDED e) Fl.EMU_DISCARDED_COUNT =
        min (s.jget (Reg.EMU_DISCARDED e) Fl.EMU_DISCARDED_COUNT + ((z.emuLag e).fdiv 256).natAbs) (2 ^ 32 - 1) ∧
      n.jget (Reg.EMU_EVENT e) Fl.EMU_EVENT_RESYNCED = 1 ∧ n.jget (Reg.EMU_CTRL e) Fl.EMU_CTRL_RESYNC = 0 ∧
      n.jget (Reg.EMU_CTRL e) Fl.EMU_CTRL_FS_RESUME = getF val Fl.EMU_CTRL_FS_RESUME ∧
      getF (n.shadowReg (Reg.EMU_CTRL e)) Fl.EMU_CTRL_RESYNC = 0 ∧ ({ n with shadow := s.shadow } : State).nahar = s.nahar)
/-- R233 to R238: a master frame starts when it has its bytes, shifts them out in order and ends after FRAME_LEN words or, with length 0,
after a gap; a slave word shifts out a byte of the FIFO or underruns, and a deselect ends the frame and reports an incomplete word. R203,
R240, Table 8-9: CLEAR of an error count register of Jens clears its counts and nothing else.
The model's own choices behind it: log entries 78 and 109. -/
def Obligations.FieldSerialFramesRun : Prop :=
  (∀ (s : State), s.pw.vf = true →
    let frames := (s.jget Reg.FSP_FRAMES Fl.FSP_FRAMES_COUNT + 1) % 2 ^ 32
    let ended := fun e : State => e.fspActive = false ∧ e.jget Reg.FSP_FRAMES Fl.FSP_FRAMES_COUNT = frames ∧
      e.jget Reg.FSP_EVENT Fl.FSP_EVENT_FRAME_END = 1
    let len := s.jget Reg.FSP_FRAME Fl.FSP_FRAME_FRAME_LEN
    (s.failsafe = true → exec .fspMasterFrameStart s = .next (s.ended s)) ∧
    (s.fspRole = 1 → s.fspActive = false → s.failsafe = false →
      ((len = 0 ∧ s.jens.serRx ≠ []) ∨ (1 ≤ len ∧ len ≤ s.jens.serRx.length ∧
        (s.jflag Reg.FSP_FRAME Fl.FSP_FRAME_RX_ENABLE = true → s.jens.serTx.length + len ≤ 64))) →
      ∃ e, exec .fspMasterFrameStart s = .next (s.ended e) ∧ e.fspActive = true ∧
        e.jens = { s.jens with fsp := { s.jens.fsp with cfg := s.jreg Reg.FSP_CFG, frame := s.jreg Reg.FSP_FRAME, wordsLeft := len } } ∧
        s.onlyJens e [Reg.FSP_STATUS]) ∧
    (∀ rx b rest, s.fspRole = 1 → s.fspActive = true → s.jens.serRx = b :: rest → (s.fspRx = true → s.jens.serTx.length < 64) →
      ∃ e, exec (.fspMasterWord rx) s = .next (s.ended e) ∧ e.jens.serRx = rest ∧
        e.jens.serTx = s.jens.serTx ++ (if s.fspRx then [rx] else []) ∧ e.jens.fsp.shift = b ∧
        (s.fspLen ≠ 0 → e.jens.fsp.wordsLeft = s.jens.fsp.wordsLeft - 1) ∧ (s.fspLen ≠ 0 → s.jens.fsp.wordsLeft ≤ 1 → ended e) ∧
        (s.fspLen ≠ 0 → 1 < s.jens.fsp.wordsLeft → s.onlyJens e []) ∧ s.onlyJens e [Reg.FSP_STATUS, Reg.FSP_FRAMES, Reg.FSP_EVENT]) ∧
    (s.fspRole = 1 → s.fspActive = true → s.fspLen = 0 → s.jens.serRx = [] →
      ∃ e, exec .fspCsGapTimeout s = .next (s.ended e) ∧ ended e ∧ e.jens = s.jens ∧
        s.onlyJens e [Reg.FSP_STATUS, Reg.FSP_FRAMES, Reg.FSP_EVENT]) ∧
    (s.fspRole = 2 → s.fspActive = false →
      ∃ e, exec .fspSlaveSelect s = .next (s.ended e) ∧ e.fspActive = true ∧ e.jens.fsp.deaf = s.failsafe ∧
        e.jens.fsp.shift = s.jens.serRx.headD (BitVec.ofNat 8 (s.jget Reg.FSP_FRAME Fl.FSP_FRAME_FILL)) ∧
        e.jens.serRx = s.jens.serRx ∧ e.jens.serTx = s.jens.serTx ∧ s.onlyJens e [Reg.FSP_STATUS]) ∧
    (∀ rx, s.fspRole = 2 → s.fspActive = true → s.failsafe = false → s.jens.fsp.deaf = false →
      ∃ e, exec (.fspSlaveWord rx) s = .next (s.ended e) ∧ e.jens.serRx = (if s.jens.fsp.fromFifo then s.jens.serRx.drop 1 else s.jens.serRx) ∧
        e.jget Reg.FSP_ERR Fl.FSP_ERR_UNDERRUN = (if s.jens.fsp.fromFifo then s.jget Reg.FSP_ERR Fl.FSP_ERR_UNDERRUN
          else min (s.jget Reg.FSP_ERR Fl.FSP_ERR_UNDERRUN + 1) 255) ∧
        e.jens.serTx = s.jens.serTx ++ (if s.fspRx = true ∧ s.jens.serTx.length < 64 then [rx] else []) ∧
        e.jget Reg.FSP_ERR Fl.FSP_ERR_OVERRUN = (if s.fspRx = true ∧ 64 ≤ s.jens.serTx.length
          then min (s.jget Reg.FSP_ERR Fl.FSP_ERR_OVERRUN + 1) 255 else s.jget Reg.FSP_ERR Fl.FSP_ERR_OVERRUN) ∧
        s.onlyJens e [Reg.FSP_ERR, Reg.FSP_EVENT, Reg.MIR_ATTN]) ∧
    (∀ bits : Fin 8, s.fspRole = 2 → s.fspActive = true →
      ∃ e, exec (.fspSlaveDeselect bits) s = .next (s.ended e) ∧ ended e ∧
        (bits = 0 → e.jens = s.jens ∧ s.onlyJens e [Reg.FSP_STATUS, Reg.FSP_FRAMES, Reg.FSP_EVENT]) ∧
        (bits ≠ 0 → s.failsafe = false → s.jens.fsp.deaf = false →
          e.jget Reg.FSP_ERR Fl.FSP_ERR_PARTIAL = min (s.jget Reg.FSP_ERR Fl.FSP_ERR_PARTIAL + 1) 255 ∧
          e.jens.serRx = (if s.jens.fsp.fromFifo then s.jens.serRx.drop 1 else s.jens.serRx)))) ∧
  (∀ (s : State) (p : Path) (val : Word), s.reachesField p = true → getF val ⟨0, 1⟩ = 1 →
    (∀ c : Fin 4, ∃ e, exec (.pfiErrClear p c val) s = .next (s.ended e) ∧ e.jreg (Reg.PFI_ERR c) = 0 ∧ e.jens = s.jens ∧
      s.onlyJens e [Reg.PFI_ERR c]) ∧
    (∃ e, exec (.fspErrClear p val) s = .next (s.ended e) ∧ e.jreg Reg.FSP_ERR = 0 ∧ e.jens = s.jens ∧ s.onlyJens e [Reg.FSP_ERR]) ∧
    (∀ l : Fin 2, ∃ e, exec (.zlErrClear p l val) s = .next (s.ended e) ∧ e.jreg (Reg.ZL_ERR l) = 0 ∧ e.jens = s.jens ∧
      s.onlyJens e [Reg.ZL_ERR l]))
/-- R269, R270, R250: a host transaction is accepted or refused; it is sent when the line is free and no transaction of higher priority waits; a
good reply ends it with its nibbles, a first attempt without one is repeated, and a second ends it with NO_REPLY and the node missing.
The model's own choices behind it: log entry 61. -/
def Obligations.HostTransactionsRun : Prop :=
  ∀ (s : State) (l : Fin 2),
    (∀ p val, s.reachesField p = true → getF val Fl.ZL_TXN_CMD_START = 1 → ∃ e, exec (.zlTxnStart p l val) s = .next (s.ended e) ∧
      (∀ f, f = Fl.ZL_TXN_CMD_ADDR ∨ f = Fl.ZL_TXN_CMD_CMD ∨ f = Fl.ZL_TXN_CMD_LEN → e.jget (Reg.ZL_TXN_CMD l) f = getF val f) ∧
      ({ e with shadow := s.shadow } : State).nahar = s.nahar ∧
      (∀ a, a ∉ [Reg.ZL_TXN_CMD l, Reg.ZL_TXN_RESULT l, Reg.ZL_STATUS l] → e.jreg a = s.jreg a) ∧
      let addr := getF val Fl.ZL_TXN_CMD_ADDR
      let cmd := getF val Fl.ZL_TXN_CMD_CMD
      let ok := s.jflag (Reg.ZL_STATUS l) Fl.ZL_STATUS_TXN_BUSY = false ∧ s.zlState l = 3 ∧ cmd ≤ 4 ∧ (addr ≤ 23 ∨ (addr = 0xFF ∧ cmd = 4)) ∧
        getF val Fl.ZL_TXN_CMD_LEN = zlSendLen cmd
      (ok → e.jget (Reg.ZL_TXN_RESULT l) Fl.ZL_TXN_RESULT_CODE = 1 ∧ e.jget (Reg.ZL_STATUS l) Fl.ZL_STATUS_TXN_BUSY = 1 ∧
        e.zl l =
          { s.zl l with
            hostDue := some 0
            txnCmd := e.jreg (Reg.ZL_TXN_CMD l)
            txnData := (s.jreg (Reg.ZL_TXN_DATA0 l), s.jreg (Reg.ZL_TXN_DATA1 l)) }) ∧
      (¬ ok → e.jget (Reg.ZL_TXN_RESULT l) Fl.ZL_TXN_RESULT_CODE = 6 ∧ e.jens = s.jens ∧ e.jreg (Reg.ZL_STATUS l) = s.jreg (Reg.ZL_STATUS l))) ∧
    (∀ slots scan, s.pw.vf = true → s.zlRunning l = true → (s.zl l).txn = none → ∃ e, exec (.zlTxnDispatch l slots scan) s = .next (s.ended e) ∧
      e.nahar = s.nahar ∧
      (∀ a r, (s.zl l).sweep = a :: r → e.zl l = { s.zl l with sweep := r, lastFrame := zlFrame a 0 [], txn := some (.ping a) }) ∧
      (∀ n, (s.zl l).sweep = [] → (s.zl l).scanDue = false → (s.zl l).discovery = none → (s.zl l).hostDue = some n → s.zlTxnAddr l ≠ 0xFF →
        e.zl l =
          { s.zl l with
            hostDue := none
            txn := some (.host n)
            lastFrame := zlFrame (s.zlTxnAddr l) (s.zlTxnCmd l) (State.zlNibbles (s.zl l).txnData (zlSendLen (s.zlTxnCmd l))) }) ∧
      (∀ n, (s.zl l).sweep = [] → (s.zl l).scanDue = false → (s.zl l).discovery = none → (s.zl l).hostDue = some n → s.zlTxnAddr l = 0xFF →
        (e.zl l).hostDue = none ∧ (e.zl l).txn = none ∧ e.jget (Reg.ZL_TXN_RESULT l) Fl.ZL_TXN_RESULT_CODE = 2 ∧
        e.jget (Reg.ZL_STATUS l) Fl.ZL_STATUS_TXN_BUSY = 0 ∧ e.jget (Reg.ZL_EVENT l) Fl.ZL_EVENT_TXN_DONE = 1) ∧
      (∀ a, (s.zl l).sweep = [] → (s.zl l).scanDue = false → (s.zl l).discovery = none → (s.zl l).hostDue = none → (s.zl l).pingDue = some a →
        e.zl l = { s.zl l with pingDue := none, lastFrame := zlFrame a 0 [], txn := some (.ping a) })) ∧
    (∀ delay periods lows f n, s.pw.vf = true → (s.zl l).txn = some (.host n) → 6000 ≤ delay → delay ≤ 30000 →
      zlDecode periods lows = .frame f → f.addr = s.zlTxnAddr l → f.cmd = s.zlTxnCmd l → f.data.length = zlReplyLen f.cmd →
      ∃ e, exec (.zlReply l delay periods lows) s = .next (s.ended e) ∧ (e.zl l).txn = none ∧
        e.jget (Reg.ZL_TXN_RESULT l) Fl.ZL_TXN_RESULT_CODE = 2 ∧ e.jget (Reg.ZL_TXN_RESULT l) Fl.ZL_TXN_RESULT_RX_LEN = f.data.length ∧
        e.jget (Reg.ZL_TXN_RESULT l) Fl.ZL_TXN_RESULT_STATUS = f.data.headD 0 % 16 ∧
        e.jget (Reg.ZL_STATUS l) Fl.ZL_STATUS_TXN_BUSY = 0 ∧ e.jget (Reg.ZL_EVENT l) Fl.ZL_EVENT_TXN_DONE = 1 ∧ e.nahar = s.nahar) ∧
    (∀ n, s.pw.vf = true → (s.zl l).txn = some (.host n) → ∃ e, exec (.zlReplyTimeout l) s = .next (s.ended e) ∧ (e.zl l).txn = none ∧
      e.jget (Reg.ZL_ERR l) Fl.ZL_ERR_NO_REPLY = min (s.jget (Reg.ZL_ERR l) Fl.ZL_ERR_NO_REPLY + 1) 255 ∧
      e.jget (Reg.ZL_EVENT l) Fl.ZL_EVENT_ERR = 1 ∧ e.nahar = s.nahar ∧
      (n = 0 → (e.zl l).hostDue = some 1) ∧
      (n ≠ 0 → e.jget (Reg.ZL_TXN_RESULT l) Fl.ZL_TXN_RESULT_CODE = 3 ∧ e.jget (Reg.ZL_STATUS l) Fl.ZL_STATUS_TXN_BUSY = 0 ∧
        e.jget (Reg.ZL_EVENT l) Fl.ZL_EVENT_MISSING = 1 ∧ e.jget (Reg.ZL_EVENT l) Fl.ZL_EVENT_TXN_DONE = 1 ∧
        e.jget (Reg.ZL_NODE_HI l (s.zlTxnAddr l)) Fl.ZL_NODE_HI_PRESENT = 0))

/-- R262, R264, R266, R268, R271, R272: what starts a discovery, a scan and a supervision PING, and how a line sticks and is released.
The model's own choices behind it: log entries 22, 76 and 77. -/
def Obligations.LinesChangeState : Prop :=
  ∀ (s : State) (l : Fin 2),
    (∀ p val, s.reachesField p = true → s.allStopped = true → s.zlRunning l = true → getF val Fl.ZL_CTRL_DISCOVER = 1 →
      getF val Fl.ZL_CTRL_BIND_NEW = 0 → ∃ e, exec (.zlDiscover p l val) s = .next (s.ended e) ∧
        ({ e with shadow := s.shadow } : State).nahar = s.nahar ∧ e.jget (Reg.ZL_CTRL l) Fl.ZL_CTRL_DISCOVER = 0 ∧
        ((s.zl l).discovery = none → (e.zl l).discovery = some true ∧ e.zlState l = 2 ∧ (e.zl l).lastFrame = zlFrame 0xFF 0xF [] ∧
          (∀ n ∈ (s.zl l).listed, (∀ m ∈ (s.zl l).listed, m.addr % 24 = n.addr % 24 → m = n) → e.nodeListed l n.addr = true ∧
            e.nodeValid l n.addr = false)) ∧
        ((s.zl l).discovery ≠ none → e.zl l = { s.zl l with heldReq := some true })) ∧
    (∀ p val, s.reachesField p = true → s.zlRunning l = true → getF val Fl.ZL_CTRL_DISCOVER = 0 →
      (s.allStopped = true ∨ getF (s.shadowReg (Reg.ZL_CTRL l)) Fl.ZL_CTRL_DISCOVER = 0) →
      getF val Fl.ZL_CTRL_BIND_NEW = 1 → ∃ e, exec (.zlBindNew p l val) s = .next (s.ended e) ∧
        (s.allStopped = true → ({ e with shadow := s.shadow } : State).nahar = s.nahar) ∧ e.zlState l = s.zlState l ∧
        ((s.zl l).discovery = none → (e.zl l).discovery = some false ∧ e.jget (Reg.ZL_STATUS l) Fl.ZL_STATUS_INCR = 1) ∧
        ((s.zl l).discovery ≠ none → (e.zl l).heldReq = some ((s.zl l).heldReq == some true) ∧ (e.zl l).discovery = (s.zl l).discovery)) ∧
    (s.pw.vf = true → s.zlState l = 1 → ∃ e, exec (.zlStartReleaseEnd l) s = .next (s.ended e) ∧ (e.zl l).discovery = some true ∧
      e.zlState l = 2 ∧ e.nahar = s.nahar) ∧
    (s.pw.vf = true → s.zlRunning l = true → ∃ e, exec (.zlStuck l) s = .next (s.ended e) ∧ e.zlState l = 4 ∧ (e.zl l).txn = none ∧
      (e.zl l).resumeDisc = (s.zlState l == 2) ∧ e.jget (Reg.ZL_EVENT l) Fl.ZL_EVENT_STUCK = 1 ∧
      (∀ n, (s.zl l).txn = some (.host n) → (e.zl l).hostDue = some n) ∧ (e.jreg Reg.MIR_ATTN).getLsbD (24 + l.val) = true ∧ e.nahar = s.nahar) ∧
    (s.pw.vf = true → s.zlState l = 4 → ∃ e, exec (.zlReleased l) s = .next (s.ended e) ∧ e.zlState l = (if (s.zl l).resumeDisc then 2 else 3) ∧
      (e.zl l).sweep = s.boundAddrs l ∧ (e.zl l).scanDue = true ∧ e.jget (Reg.ZL_EVENT l) Fl.ZL_EVENT_RELEASED = 1 ∧ e.nahar = s.nahar) ∧
    (s.pw.vf = true → s.zlRunning l = true → (s.zl l).txn = none → ∃ e, exec (.zlGlitch l) s = .next (s.ended e) ∧
      e.jget (Reg.ZL_ERR l) Fl.ZL_ERR_GLITCH = min (s.jget (Reg.ZL_ERR l) Fl.ZL_ERR_GLITCH + 1) 255 ∧
      e.jget (Reg.ZL_EVENT l) Fl.ZL_EVENT_ERR = 1 ∧ e.jens = s.jens ∧ s.onlyJens e [Reg.ZL_ERR l, Reg.ZL_EVENT l]) ∧
    (∀ (slots : BitVec 24) t, s.pw.vf = true → s.zlRunning l = true → (s.zl l).txn = none → slots ≠ 0 → s.failsafe = false →
      let x := s.atTime t
      ∃ e, exec (.zlAttention l false slots t) s = .next (s.ended e) ∧ e.jreg (Reg.ZL_ATTN_TS l) = BitVec.ofNat 32 x.clk.jts ∧
        e.jget (Reg.ZL_ATTN l) Fl.ZL_ATTN_COUNT = (s.jget (Reg.ZL_ATTN l) Fl.ZL_ATTN_COUNT + 1) % 2 ^ 16 ∧ (e.zl l).scanDue = false ∧
        (e.jens.zevQ.map (· % 128)) = ((s.jens.zevQ.map (· % 128)) ++ ((List.range 24).filter fun a => slots.getLsbD a).map (· + 32 * l.val)).take
          (max 8 s.jens.zevQ.length) ∧ e.nahar = x.nahar) ∧
    (∀ a, s.pw.vf = true → s.zlRunning l = true → s.jget (Reg.ZL_CTRL l) Fl.ZL_CTRL_SUPERVISE_MS ≠ 0 →
      ((s.boundAddrs l).filter ((s.zl l).nextPing ≤ ·) ++ (s.boundAddrs l).filter (· < (s.zl l).nextPing)).head? = some a →
      exec (.zlSupervisePing l) s = .next (s.ended (s.modZl l fun z => { z with pingDue := some a, nextPing := a + 1 })))
/-! ## Beats (chapter 5) -/

/-- R147, R184, R185: a beat that does not arrive, or arrives bad, is counted by the side it was sent to; the eighth in a row loses the link,
and fewer do not.
The model's own choices behind it: log entry 56. -/
def Obligations.BadBeatsAreCounted : Prop :=
  ∀ (s : State) (idx : Nat), s.beatComes idx = true →
    let x := s.atTime (State.beatTime idx)
    (s.pw.vf = true → ∃ e, exec (.missingBeat true idx) s = .next (s.ended e) ∧
      e.jget Reg.MIR_BAD_BEATS Fl.MIR_BAD_BEATS_COUNT = min (s.jget Reg.MIR_BAD_BEATS Fl.MIR_BAD_BEATS_COUNT + 1) (2 ^ 32 - 1) ∧
      x.onlyRegs e [Reg.HZ_SER_STATUS] ∧
      (s.jensUp = true → s.jens.fsKeep = false → s.jens.badRun = 7 → e.jens.fsLoss = true ∧ e.jens.sendsTraining = true ∧
        e.jens.staging = [] ∧ e.jget Reg.MIR_STATE Fl.MIR_STATE_FAILSAFE = 1) ∧
      (s.jensUp = false ∨ s.jens.fsKeep = true ∨ s.jens.badRun ≠ 7 → e.jens.fsLoss = s.jens.fsLoss ∧
        ∀ a, a ≠ Reg.MIR_BAD_BEATS → e.jreg a = s.jreg a) ∧
      (∀ mask w, (x.takeHostBeat idx).2 = some w → beatBad idx (w ^^^ mask) = true →
        exec (.hostToFieldBeat idx mask) s = .next (s.ended e))) ∧
    (s.hzState ≠ 0 → ∃ e, exec (.missingBeat false idx) s = .next (s.ended e) ∧
      e.get Reg.HZ_BAD_RX Fl.HZ_BAD_RX_COUNT = min (s.get Reg.HZ_BAD_RX Fl.HZ_BAD_RX_COUNT + 1) (2 ^ 32 - 1) ∧
      (s.hzState = 5 → s.hz.badRun = 7 → e.hzState = 0 ∧ e.hz.lost = true ∧ e.get Reg.SYS_SVC Fl.SYS_SVC_HZ_OK = 0 ∧
        e.get Reg.HZ_EVENT Fl.HZ_EVENT_LOSS = 1 ∧
        e.get Reg.HZ_LOSS Fl.HZ_LOSS_COUNT = min (s.get Reg.HZ_LOSS Fl.HZ_LOSS_COUNT + 1) (2 ^ 16 - 1)) ∧
      (s.hzState ≠ 5 ∨ s.hz.badRun ≠ 7 → e.hzState = s.hzState ∧ e.hz.lost = s.hz.lost) ∧
      (s.hzState = 5 → s.hz.badRun ≠ 7 → e.hz.badRun = s.hz.badRun + 1))

/-- R148, R156, R160: an intact data beat ends the run of bad ones; Jens takes the output levels of a host beat, and Nahar moves the replica of
the field beat's channel by the signed difference of the position slot, and no other replica.
The model's own choices behind it: log entry 56. -/
def Obligations.IntactBeatsAreTaken : Prop :=
  ∀ (s : State) (idx : Nat) (mask w : BitVec 64), s.beatComes idx = true →
    beatBad idx (w ^^^ mask) = false → beatTraining (w ^^^ mask) = false →
    let x := s.atTime (State.beatTime idx)
    (s.pw.vf = true → (x.takeHostBeat idx).2 = some w → ∃ e, exec (.hostToFieldBeat idx mask) s = .next (s.ended e) ∧
      e.jens.miro = BitVec.ofNat 12 (beatBits (w ^^^ mask) 50 12) ∧ e.jens.badRun = 0 ∧ x.onlyRegs e [Reg.HZ_SER_STATUS]) ∧
    (∀ miri, 4 ≤ s.hzState → ((x.miriPins miri).takeFieldBeat idx).2 = some w → ∃ e,
      exec (.fieldToHostBeat idx mask miri) s = .next (s.ended e) ∧ (s.pw.vf = true → e.jens.miri = miri) ∧ e.hz.badRun = 0 ∧
      (let c := State.fin4 idx
       e.hz.replica[c] = unsigned 40 ((s.hz.replica[c] : Int) + signed 16 (beatBits (w ^^^ mask) 34 16 + 2 ^ 16 - s.hz.replica[c] % 2 ^ 16)) ∧
       ∀ d : Fin 4, d ≠ c → e.hz.replica[d] = s.hz.replica[d]))

/-- R47, R63, R149, R154, R187, R204: training ends with the link UP, the timestamp and the positions carried over and the causes of fail-safe
but the host's released; a short retraining carries the position over and keeps the high-water mark; the detector puts Jens into fail-safe.
The model's own choices behind it: log entries 53 and 64. -/
def Obligations.TrainingEndsInService : Prop :=
  ∀ (s : State),
    (∀ t, s.clocked = true → s.pw.vf = true → 2 ≤ s.hzState → s.hzState ≤ 4 →
      let x := s.atTime t
      ∃ e, exec (.hzTrainUp t) s = .next (s.ended e) ∧ e.hzState = 5 ∧ e.get Reg.SYS_SVC Fl.SYS_SVC_HZ_OK = 1 ∧
        e.get Reg.HZ_EVENT Fl.HZ_EVENT_TRAINED = 1 ∧ e.get Reg.HZ_STATUS Fl.HZ_STATUS_LAST_SHORT = 0 ∧
        e.get Reg.HZ_STATUS Fl.HZ_STATUS_TRAIN_TIME_US = min ((x.clk.ts - s.hz.trainStart) / 500) 0xFFFF ∧
        e.get Reg.SYS_JENS_ID Fl.SYS_JENS_ID_JENS_RESET = (if s.pw.vfPor then 1 else 2) ∧
        e.get Reg.HZ_SER_STATUS Fl.HZ_SER_STATUS_CREDIT = 64 ∧ e.clk = { x.clk with jts := x.clk.ts } ∧
        (∀ c : Fin 4, e.hz.replica[c] = x.pfiPosition c ∧ e.hz.hwm[c] = x.pfiPosition c) ∧
        e.jensUp = true ∧ e.jens.staging = [] ∧ e.jens.serTx = [] ∧ e.jens.serRx = [] ∧ e.jens.zevQ = [] ∧
        e.jget Reg.MIR_STATE Fl.MIR_STATE_DETECTOR = 0 ∧ e.jget Reg.MIR_STATE Fl.MIR_STATE_FAILSAFE = ofBool s.fsHoldNow ∧
        x.onlyRegs e [Reg.SYS_SVC, Reg.SYS_JENS_ID, Reg.HZ_STATUS, Reg.HZ_EVENT, Reg.HZ_SER_STATUS]) ∧
    (∀ fail t, s.clocked = true → s.hzState = 6 → s.isPark = true → s.parkExit = true →
      let x := s.atTime t
      ∃ e, exec (.hzShortRetrainDone fail t) s = .next (s.ended e) ∧
        (fail = none → s.pw.vf = true → s.jensUp = true → s.jens.fsDetector = false → e.hzState = 5 ∧
          e.get Reg.HZ_STATUS Fl.HZ_STATUS_LAST_SHORT = 1 ∧ e.get Reg.SYS_SVC Fl.SYS_SVC_HZ_OK = 1 ∧ e.jens.fsKeep = false ∧
          e.clk = { x.clk with jts := x.clk.ts } ∧ (∀ c : Fin 4, e.hz.replica[c] = x.pfiPosition c ∧ e.hz.hwm[c] = s.hz.hwm[c]) ∧
          x.onlyRegs e [Reg.SYS_SVC, Reg.HZ_STATUS, Reg.HZ_EVENT]) ∧
        (∀ step, fail = some step → step < 16 → e.hzState = 1 ∧ e.get Reg.HZ_STATUS Fl.HZ_STATUS_FAIL_STEP = step ∧
          e.get Reg.HZ_EVENT Fl.HZ_EVENT_TRAIN_FAIL = 1 ∧ e.get Reg.SYS_SVC Fl.SYS_SVC_HZ_OK = 0 ∧ e.hz.trainStart = x.clk.ts ∧
          e.jens = s.jens ∧ x.onlyRegs e [Reg.SYS_SVC, Reg.HZ_STATUS, Reg.HZ_EVENT])) ∧
    (s.pw.vf = true → ∃ e, exec .beatLossDetect s = .next (s.ended e) ∧ e.jens.fsDetector = true ∧
      e.jget Reg.MIR_STATE Fl.MIR_STATE_DETECTOR = 1 ∧ e.jget Reg.MIR_STATE Fl.MIR_STATE_FAILSAFE = 1 ∧ e.nahar = s.nahar ∧
      e.jget Reg.MIR_STATE Fl.MIR_STATE_FS_CAUSE = (if s.jens.fsUntrained then 1 else if s.jens.fsLoss then 2 else if s.jens.fsHold then 3 else
        if s.jens.fsKeep then 4 else 5))
/-- R177 to R180, R183: a write of the FX window that Jens does not have to refuse, and a read, become relay transactions in their turn; while
Horizon is down the read answers all ones and the write reaches the shadow alone; ATTN makes Nahar read MIR_ATTN. A transaction without an
answer is repeated once, and then fails.
The model's own choices behind it: log entries 51 and 52. -/
def Obligations.FieldAccessesAreRelayed : Prop :=
  ∀ (s : State) (p : Path) (addr : Nat), addr < 0x10000 → addr % 4 = 0 →
    (s.reaches p = true → s.isPark = false →
      (∀ val, ∃ e, exec (.fxWrite p addr val) s = .next (s.ended e) ∧ (∀ a, a ≠ addr → e.shadowReg a = s.shadowReg a) ∧ e.jens = s.jens ∧
        e.fregs = s.fregs ∧
        (s.hzState ≠ 5 ∨ s.fxRelayed addr val = none → e.hz = s.hz) ∧
        (∀ w, s.hzState = 5 → s.fxRelayed addr val = some w →
          (s.hz.relay = none → s.hz.relayWait = [] → e.hz =
            { s.hz with
              relaySeq := !s.hz.relaySeq
              relay := some ⟨.write, some p, addr, w, !s.hz.relaySeq, State.relayRequest .write (!s.hz.relaySeq) addr w, true, 0⟩ }) ∧
          (s.hz.relay ≠ none → e.hz = { s.hz with relayWait := s.hz.relayWait ++ [⟨.write, some p, addr, w⟩] }))) ∧
      (∃ e, exec (.fxRead p addr) s = .next (s.ended e) ∧ e.shadow = s.shadow ∧ e.jens = s.jens ∧ e.fregs = s.fregs ∧
        (fxAssigned addr = true → e.regs = s.regs) ∧
        (s.hzState ≠ 5 → (e.pathOf p).lastRead = some 0xFFFFFFFF ∧ e.hz = s.hz) ∧
        (s.hzState = 5 → (e.pathOf p).lastRead = none ∧
          (s.hz.relay = none → s.hz.relayWait = [] → e.hz =
            { s.hz with
              relaySeq := !s.hz.relaySeq
              relay := some ⟨.read, some p, addr, 0, !s.hz.relaySeq, State.relayRequest .read (!s.hz.relaySeq) addr 0, true, 0⟩ }) ∧
          (s.hz.relay ≠ none → e.hz = { s.hz with relayWait := s.hz.relayWait ++ [⟨.read, some p, addr, 0⟩] })))) ∧
    (∀ r : Relay, s.clocked = true → s.hz.relay = some r → ∃ e, exec .relayTimeout s = .next (s.ended e) ∧
      (r.attempt = 0 → (r.path ≠ none ∨ s.hz.relayWait = []) →
        e.hz.relay = some { r with attempt := 1, bytes := State.relayRequest r.op r.seq r.addr r.data, start := true } ∧
        e.get Reg.HZ_RELAY_ERR Fl.HZ_RELAY_ERR_RETRY = min (s.get Reg.HZ_RELAY_ERR Fl.HZ_RELAY_ERR_RETRY + 1) 255 ∧
        s.onlyRegs e [Reg.HZ_RELAY_ERR]) ∧
      (r.attempt ≠ 0 → s.hz.relayWait = [] → e.hz.relay = none ∧ e.get Reg.HZ_EVENT Fl.HZ_EVENT_RELAY_TIMEOUT = 1 ∧
        e.get Reg.HZ_RELAY_ERR Fl.HZ_RELAY_ERR_TIMEOUT = min (s.get Reg.HZ_RELAY_ERR Fl.HZ_RELAY_ERR_TIMEOUT + 1) 255 ∧
        e.get Reg.HZ_RELAY_ERR Fl.HZ_RELAY_ERR_ADDR = r.addr % 2 ^ 16 ∧ s.onlyRegs e [Reg.HZ_RELAY_ERR, Reg.HZ_EVENT] ∧
        (∀ q, r.op = .read → r.path = some q → (e.pathOf q).lastRead = some 0xFFFFFFFF))) ∧
    (s.clocked = true → s.hzState = 5 → s.hz.attn = true → s.hz.relayWait = [] → ∃ e, exec .attnPoll s = .next (s.ended e) ∧
      (s.hz.relay = none → ∃ r : Relay, e.hz.relay = some r ∧ r.op = .read ∧ r.path = none ∧ r.addr = Reg.MIR_ATTN) ∧
      (s.hz.relay ≠ none → e.hz = { s.hz with relayWait := [⟨.read, none, Reg.MIR_ATTN, 0⟩] }) ∧ e.regs = s.regs ∧ e.jens = s.jens)

/-- R173, R174, R7: a serial write is taken whole or dropped whole and counted, the low byte of a word first; a read pops the oldest byte with
its VALID bit, or four bytes where there are four. -/
def Obligations.SerialBytesAreQueued : Prop :=
  ∀ (s : State) (p : Path) (val : Word), s.reaches p = true → s.isPark = false →
    (∃ e, exec (.hzSerTxWrite p val) s = .next (s.ended e) ∧
      (s.hz.serTx.length < 64 → e.hz = { s.hz with serTx := s.hz.serTx ++ [BitVec.ofNat 8 val.toNat] } ∧ s.onlyRegs e []) ∧
      (64 ≤ s.hz.serTx.length → e.hz = s.hz ∧ e.get Reg.HZ_EVENT Fl.HZ_EVENT_SER_DROP = 1 ∧
        e.get Reg.HZ_SER_ERR Fl.HZ_SER_ERR_TX_DROP = min (s.get Reg.HZ_SER_ERR Fl.HZ_SER_ERR_TX_DROP + 1) 255 ∧
        s.onlyRegs e [Reg.HZ_SER_ERR, Reg.HZ_EVENT]) ∧ e.jens = s.jens) ∧
    (∃ e, exec (.hzSerTxwWrite p val) s = .next (s.ended e) ∧
      (s.hz.serTx.length ≤ 60 → e.hz = { s.hz with serTx := s.hz.serTx ++ [BitVec.ofNat 8 val.toNat,
        BitVec.ofNat 8 (val.toNat / 2 ^ 8), BitVec.ofNat 8 (val.toNat / 2 ^ 16), BitVec.ofNat 8 (val.toNat / 2 ^ 24)] } ∧ s.onlyRegs e []) ∧
      (60 < s.hz.serTx.length → e.hz = s.hz ∧ e.get Reg.HZ_EVENT Fl.HZ_EVENT_SER_DROP = 1 ∧
        e.get Reg.HZ_SER_ERR Fl.HZ_SER_ERR_TX_DROP = min (s.get Reg.HZ_SER_ERR Fl.HZ_SER_ERR_TX_DROP + 4) 255 ∧
        s.onlyRegs e [Reg.HZ_SER_ERR, Reg.HZ_EVENT]) ∧ e.jens = s.jens) ∧
    (∃ e, exec (.hzSerRxRead p) s = .next (s.ended e) ∧
      (∀ b r, s.hz.serRx = b :: r → e.hz = { s.hz with serRx := r } ∧ (e.pathOf p).lastRead = some (BitVec.ofNat 32 (b.toNat + 2 ^ 8))) ∧
      (s.hz.serRx = [] → e.hz = s.hz ∧ (e.pathOf p).lastRead = some 0) ∧ e.regs = s.regs ∧ e.jens = s.jens) ∧
    (∃ e, exec (.hzSerRxwRead p) s = .next (s.ended e) ∧
      (∀ a b c d r, s.hz.serRx = a :: b :: c :: d :: r → e.hz = { s.hz with serRx := r } ∧
        (e.pathOf p).lastRead = some (BitVec.ofNat 32 (a.toNat + 2 ^ 8 * b.toNat + 2 ^ 16 * c.toNat + 2 ^ 24 * d.toNat))) ∧
      (s.hz.serRx.length < 4 → e.hz = s.hz ∧ (e.pathOf p).lastRead = some 0) ∧ e.regs = s.regs ∧ e.jens = s.jens)

/-! ## Transits, jobs and verdicts (chapters 11 to 13) -/

/-- R347, R352, R355, R356, R359, R360: a LEP is fixed at the interpolated position; a transit closes when its conditions hold and its
function then leaves RUNNING or DRAINING with the last of them; a due line is triggered, or counted as unserved; a line timer counts.
The model's own choices behind it: log entries 6 and 69. -/
def Obligations.TransitsRunTheirCourse : Prop :=
  ∀ (s : State) (n : Fin 8) (t : Nat), s.acts = true →
    let x := s.atTime t
    (∀ (slot : Fin 16) tr u a b, x.slotOf? n slot = some tr → x.transit? n tr.tid = some tr → tr.lep = none → tr.lepAt = some u →
      x.fnLineTimer n = false → State.bracket u x.hz.samples[State.fin4 (x.fnChan n)] = some (a, b) →
      ∃ e, exec (.lepFix n slot t) s = .next (s.ended e) ∧ (e.transit? n tr.tid).bind (·.lep) = some (State.interpolate u a b) ∧
        e.reg (Reg.ACQ_FN_SLOT_LEP n tr.slot) = BitVec.ofNat 32 (State.interpolate u a b)) ∧
    (∀ (slot : Fin 16) tr, x.slotOf? n slot = some tr → x.transit? n tr.tid = some tr → x.mayClose tr = true →
      ∃ e, exec (.transitClose n slot t) s = .next (s.ended e) ∧ (∀ u ∈ e.transits, ¬(u.fn = n.val ∧ u.tid = tr.tid)) ∧
        e.reg (Reg.ACQ_FN_SLOT_TID n tr.slot) = 0 ∧ e.get (Reg.ACQ_FN_EVENT n) Fl.ACQ_FN_EVENT_CLOSED = 1 ∧
        e.get (Reg.SYS_FN_CLOSED n) Fl.SYS_FN_CLOSED_CLOSED = (s.get (Reg.SYS_FN_CLOSED n) Fl.SYS_FN_CLOSED_CLOSED + 1) % 2 ^ 32 ∧
        e.get (Reg.SYS_FN_STATE n) Fl.SYS_FN_STATE_OPEN = (e.openOf n).length % 32 ∧
        e.fnState n = (if (x.openOf n).all (·.tid == tr.tid) then (if s.fnState n = 3 then 2 else if s.fnState n = 4 then 0 else s.fnState n)
          else s.fnState n)) ∧
    (∀ q : Fin 4, x.portFn q = some n.val → ∀ tr c, x.openOf n = [tr] → State.capOn tr q = some c → x.spanOpen tr c = true →
      x.lineDue tr c c.next = true → ∃ e, exec (.lineTriggerIssue q t) s = .next (s.ended e) ∧
        (x.inService q = true → c.barred = false → x.resettling q = false →
          let trig : Trigger := ⟨c.next % 2 ^ 16, x.fnPos n, tr.tid, !c.first, false⟩
          e.get (Reg.LTG_P_TRIGGERS q) Fl.LTG_P_TRIGGERS_COUNT = (s.get (Reg.LTG_P_TRIGGERS q) Fl.LTG_P_TRIGGERS_COUNT + 1) % 2 ^ 32 ∧
          e.ports[q].lastTx = triggerWords q trig ∧
          e.ports[q].awaited = s.ports[q].awaited ++ [⟨trig, List.range (x.portChannels q), x.clk.ts, tr.fn, c.next⟩] ∧
          ∀ r : Fin 4, r ≠ q → e.ports[r] = s.ports[r]) ∧
        (x.inService q = false ∨ c.barred = true →
          e.get (Reg.LTG_P_SKIP q) Fl.LTG_P_SKIP_UNSERVED = min (s.get (Reg.LTG_P_SKIP q) Fl.LTG_P_SKIP_UNSERVED + 1) (2 ^ 16 - 1) ∧
          e.get (Reg.LTG_P_EVENT q) Fl.LTG_P_EVENT_UNSERVED = 1 ∧ e.ports = s.ports)) ∧
    (x.fnLineTimer n = true → (s.fnState n = 2 ∨ s.fnState n = 3 ∨ s.fnState n = 4) →
      (s.fnRun n).lastTick + u32 (s.fnSec n) 0x10 ≤ x.clk.ts → ∃ e, exec (.lineTimerTick n t) s = .next (s.ended e) ∧
        e.reg (Reg.LTG_TMR_COUNT n) = s.reg (Reg.LTG_TMR_COUNT n) + 1 ∧
        (e.fnRun n).lastTick = (s.fnRun n).lastTick + u32 (s.fnSec n) 0x10 ∧
        (x.fnOpenSource n ≠ 2 → e.reg Reg.ACQ_TID_NEXT = s.reg Reg.ACQ_TID_NEXT))

/-- R28, R383, R390, R395, R404, R405, R408 to R411: the earliest ready job starts on a free unit while nothing holds dispatch; a job leaves the
unit free and its cycles recorded; a result comes into existence once; the verdict is that of the first matching group, or the default.
The model's own choices behind it: log entries 29 and 66. -/
def Obligations.JobsAndVerdictsComplete : Prop :=
  ∀ (s : State) (t : Nat), s.acts = true →
    let x := s.atTime t
    (∀ u : Fin 3, ∃ e, exec (.jobDispatch u t) s = .next (s.ended e) ∧
      (s.running[u] = none → x.unitFenced u = false → x.dispatchHeld = false → s.isRun = true →
        ∀ tr k, x.firstJob (x.readyJobs u) = some (tr, k) →
          e.running = s.running.set u (some ⟨tr.fn, tr.tid, k, tr.jobs.getD k 0, x.clk.ts, false⟩) ∧
          e.get (State.unitStatus u) Fl.E_STATUS_BUSY = 1 ∧ e.get (State.unitStatus u) Fl.E_STATUS_STEP = k % 2 ^ 12 ∧
          x.onlyRegs e [State.unitStatus u, Reg.PST_JOB_TID, Reg.E_JOB 0, Reg.E_JOB 1, Reg.E_JOB_TID 0, Reg.E_JOB_TID 1]) ∧
      (s.running[u] ≠ none ∨ x.unitFenced u = true ∨ x.dispatchHeld = true ∨ s.isRun = false → e = x)) ∧
    (∀ (u : Fin 3) (stall : Nat) errs job tr, s.running[u] = some job → s.anyTransit? job.fn job.tid = some tr →
      let cycles := s.jobCycles tr (s.transitGeos tr) job.step job.j + stall
      ∃ e, exec (.jobComplete u stall errs) s = .next (s.ended e) ∧ e.running = s.running.set u none ∧
        e.get (State.unitStatus u) Fl.E_STATUS_BUSY = 0 ∧ e.clk = (s.atTime (job.start + cycles)).clk ∧
        (u.val = 2 → e.reg Reg.PST_LAST_CYCLES = BitVec.ofNat 32 cycles ∧
          e.get Reg.PST_JOBS Fl.PST_JOBS_COUNT = (s.get Reg.PST_JOBS Fl.PST_JOBS_COUNT + 1) % 2 ^ 32) ∧
        (u.val ≠ 2 → e.reg (Reg.E_LAST_CYCLES u) = BitVec.ofNat 32 cycles ∧
          e.get (Reg.E_JOBS u) Fl.E_JOBS_COUNT = (s.get (Reg.E_JOBS u) Fl.E_JOBS_COUNT + 1) % 2 ^ 32 ∧
          e.pair (Reg.E_BUSY_LO u) (Reg.E_BUSY_HI u) = (s.pair (Reg.E_BUSY_LO u) (Reg.E_BUSY_HI u) + cycles) % 2 ^ 64)) ∧
    (∀ (n : Fin 8) (slot : Fin 16) tr, x.slotOf? n slot = some tr → x.transit? n tr.tid = some tr →
      ∃ e, exec (.resultExists n slot t) s = .next (s.ended e) ∧
        (tr.result = none → x.resultReady tr = true → (e.transit? n tr.tid).bind (·.result) = some x.clk.ts) ∧
        (tr.result ≠ none ∨ x.resultReady tr = false → e = x)) ∧
    (∀ (n : Fin 8) tr v, s.nextVerdict n = some tr → s.fnVerdict n = some v → s.anyTransit? n tr.tid = some tr →
      let y := s.atTime (tr.result.getD 0 + 16 + (s.rulesOf v).length)
      let hit := matchRules (s.scoresOf tr) 0 true (s.rulesOf v)
      ∃ e, exec (.verdictExists n) s = .next (s.ended e) ∧
        e.get (Reg.VRD_FN_LAST n) Fl.VRD_FN_LAST_CODE = hit.getD 0x40 % 2 ^ 8 ∧
        e.get (Reg.VRD_FN_LAST n) Fl.VRD_FN_LAST_ISSUE = (if tr.late then 3 else
          if tr.degraded && !s.flag (Reg.ACQ_FN_CTRL n) Fl.ACQ_FN_CTRL_DEG_VERDICT then 4 else if hit.isSome then 1 else 2) ∧
        e.reg (Reg.VRD_FN_LAST_TID n) = BitVec.ofNat 32 tr.tid ∧ e.get (Reg.VRD_FN_EVENT n) Fl.VRD_FN_EVENT_VERDICT = 1 ∧
        e.reg (Reg.VRD_FN_SLACK n) = BitVec.ofInt 32 (y.slackOf tr))

/-! ## The host attachment (chapter 4) -/

/-- R51, R63, R109, R110, R121, R435: Jens's supply; the training and the coming up of the link; the return to D0; poisoned writes and
unsupported requests; MSI-X Enable, the Function Mask and Bus Master Enable.
The model's own choices behind it: log entries 4, 32, 41 and 42. -/
def Obligations.HostAttachmentFollowsItsPins : Prop :=
  ∀ (s : State),
    (s.pw.vf = false → ∃ e, exec .vfPowerOn s = .next (s.ended e) ∧ e.pw = { s.pw with vf := true, vfPor := true } ∧ e.regs = s.regs ∧
      e.jens = jensReset ∧ e.jget Reg.MIR_STATE Fl.MIR_STATE_FAILSAFE = 1 ∧ e.jget Reg.MIR_STATE Fl.MIR_STATE_FS_CAUSE = 1 ∧
      ∀ a, a ≠ Reg.MIR_STATE → e.jreg a = fieldReset a) ∧
    (s.pw.vf = true → ∃ e, exec .vfPowerLoss s = .next (s.ended e) ∧ e.pw = { s.pw with vf := false, vfPor := true } ∧ e.regs = s.regs ∧
      e.jens = jensReset ∧ ∀ a, a ≠ Reg.MIR_STATE → e.jreg a = fieldReset a) ∧
    (∃ e, exec .perstDeassert s = .next (s.ended e) ∧ e = { s with pcie := { s.pcie with perst := false } }) ∧
    (∀ t, s.alive = true → 6 ≤ s.pw.bootStep → s.pcie.perst = false → s.pcie.linkUp = false → ∃ e,
      exec (.pcieLinkTrainStart t) s = .next (s.ended e) ∧ e = { s.atTime t with pcie := { s.pcie with training := true } }) ∧
    (∀ speed width t, s.alive = true → s.pcie.training = true → s.pcie.perst = false → 1 ≤ speed → speed ≤ 4 → width ∈ [1, 2, 4, 8] →
      ∃ e, exec (.pcieLinkUp speed width t) s = .next (s.ended e) ∧ e.pcie = { s.pcie with linkUp := true, training := false } ∧
        e.get Reg.PCX_LINK Fl.PCX_LINK_DL_UP = 1 ∧ e.get Reg.PCX_LINK_EVENT Fl.PCX_LINK_EVENT_DL_UP = 1 ∧
        e.get Reg.PCX_LINK Fl.PCX_LINK_SPEED = speed ∧ e.get Reg.PCX_LINK Fl.PCX_LINK_WIDTH = width ∧
        (s.get Reg.PCX_LINK Fl.PCX_LINK_SPEED ≠ 0 → s.get Reg.PCX_LINK Fl.PCX_LINK_SPEED ≠ speed →
          e.get Reg.PCX_LINK_EVENT Fl.PCX_LINK_EVENT_SPEED_CHG = 1) ∧
        (s.get Reg.PCX_LINK Fl.PCX_LINK_WIDTH ≠ 0 → s.get Reg.PCX_LINK Fl.PCX_LINK_WIDTH ≠ width →
          e.get Reg.PCX_LINK_EVENT Fl.PCX_LINK_EVENT_WIDTH_CHG = 1) ∧
        (s.atTime t).onlyRegs e [Reg.PCX_LINK, Reg.PCX_LINK_EVENT]) ∧
    (s.pcie.linkUp = true → s.inD3 = true → ∃ e, exec .pcieD0Entry s = .next (s.ended e) ∧ e.get Reg.PCX_LINK Fl.PCX_LINK_DSTATE = 0 ∧
      e.get Reg.PCX_LINK Fl.PCX_LINK_BME = 0 ∧ s.onlyRegs e [Reg.PCX_LINK] ∧
      e.pcie = { s.pcie with msixTable := [], pba := [], msixEnable := false, functionMask := false }) ∧
    (∀ (sp : Fin 3) off (be : Fin 16), s.reaches .pcie = true → ∃ e, exec (.pciePoisonedWrite sp off be) s = .next (s.ended e) ∧
      e.pcie = { s.pcie with poisoned := s.pcie.poisoned + 1 } ∧ e.get Reg.PCX_AEL_COUNT Fl.PCX_AEL_COUNT_EVENT = 1 ∧
      e.get Reg.PCX_AEL_COUNT Fl.PCX_AEL_COUNT_COUNT = min (s.get Reg.PCX_AEL_COUNT Fl.PCX_AEL_COUNT_COUNT + 1) (2 ^ 16 - 1) ∧
      s.onlyRegs e ([0, 4, 8, 12, 16].map fun d => Reg.PCX_AEL_COUNT + d)) ∧
    (s.clocked = true → s.pcie.linkUp = true → ∃ e, exec .pcieUnsupportedRequest s = .next (s.ended e) ∧
      e = { s with pcie := { s.pcie with unsupported := s.pcie.unsupported + 1 } }) ∧
    (∀ enable fmask master, s.alive = true → s.pcie.linkUp = true → ∃ e, exec (.msixEnable enable fmask master) s = .next (s.ended e) ∧
      e.pcie.msixEnable = enable ∧ e.pcie.functionMask = fmask ∧ e.pcie.msixTable = s.pcie.msixTable ∧
      e.get Reg.PCX_LINK Fl.PCX_LINK_BME = (if master then 1 else s.get Reg.PCX_LINK Fl.PCX_LINK_BME) ∧
      s.onlyRegs e (Reg.PCX_LINK :: (List.range 9).map fun k => Reg.EVT_VPEND k))

/-- The commands that take the host away, with the KIND that PCX_HOSTLOSS then shows (R122, R123). -/
def hostTaken (t : Nat) : List (Instr × Nat) :=
  [(.perstAssert t, 2), (.pcieLinkDown t, 1), (.pcieHotReset t, 3), (.pcieLinkDisable t, 4), (.pcieFlr t, 5), (.pcieBmeClear t, 6),
    (.pcieD3hotEntry t, 7)]

/-- R110, R122 to R124, R126, R96: each of the seven host-loss events is recorded with its kind and time; the first while no earlier one is
active takes ARMED functions to STOPPED and RUNNING ones to DRAINING, and holds the field where FIELD asks for it. Those that reset the
endpoint end the path's session and reset its configuration space. HOSTLOSS_RELEASE releases.
The model's own choices behind it: log entries 60 and 102. -/
def Obligations.HostLossEndsService : Prop :=
  ∀ (s : State),
    (∀ t c k, (c, k) ∈ hostTaken t → s.clocked = true → s.isSafe = false → s.bme = true →
      (k = 2 → s.pcie.perst = false) → (k ≠ 2 → s.pcie.linkUp = true) → (k = 7 → s.inD3 = false) →
      let x := s.atTime t
      ∃ e, exec c s = .next (s.endedLoss e true) ∧ e.get Reg.PCX_HOSTLOSS Fl.PCX_HOSTLOSS_ACTIVE = 1 ∧
        e.get Reg.PCX_HOSTLOSS Fl.PCX_HOSTLOSS_KIND = k ∧
        e.get Reg.PCX_HOSTLOSS Fl.PCX_HOSTLOSS_COUNT = min (s.get Reg.PCX_HOSTLOSS Fl.PCX_HOSTLOSS_COUNT + 1) 255 ∧
        e.pair Reg.PCX_HOSTLOSS_TS_LO Reg.PCX_HOSTLOSS_TS_HI = x.ts64 ∧ e.get Reg.EVT_PULSE Fl.EVT_PULSE_HOSTLOSS = 1 ∧
        (∀ n : Fin 8, e.fnState n = (if s.flag Reg.PCX_HOSTLOSS Fl.PCX_HOSTLOSS_ACTIVE then s.fnState n else
          if s.fnState n = 2 then 0 else if s.fnState n = 3 then 4 else s.fnState n)) ∧
        (s.flag Reg.PCX_HOSTLOSS Fl.PCX_HOSTLOSS_ACTIVE = false → x.surpriseFailsafe = true →
          e.get Reg.PCX_HOSTLOSS Fl.PCX_HOSTLOSS_FIELD_HELD = 1) ∧
        (k ≤ 4 → e.pcie.linkUp = false ∧ (s.pcie.linkUp = true → e.get Reg.PCX_LINK Fl.PCX_LINK_DL_UP = 0 ∧
          e.get Reg.PCX_LINK_EVENT Fl.PCX_LINK_EVENT_DL_DOWN = 1)) ∧
        (k ≤ 5 → e.sessionOf .pcie = false ∧ e.pcie.msixTable = [] ∧ e.pcie.pba = [] ∧ e.pcie.msixEnable = false) ∧
        (k ≤ 6 → e.get Reg.PCX_LINK Fl.PCX_LINK_BME = 0) ∧ (k = 7 → e.get Reg.PCX_LINK Fl.PCX_LINK_DSTATE = 3)) ∧
    (∀ p val, s.reaches p = true → s.isPark = false → getF val ⟨0, 1⟩ = 1 → ∃ e, exec (.hostlossRelease p val) s = .next (s.ended e) ∧
      e.get Reg.PCX_HOSTLOSS Fl.PCX_HOSTLOSS_ACTIVE = 0 ∧ e.get Reg.PCX_HOSTLOSS Fl.PCX_HOSTLOSS_FIELD_HELD = 0 ∧
      e.get Reg.PCX_HOSTLOSS Fl.PCX_HOSTLOSS_DISCARDED = 0 ∧ s.onlyRegs e [Reg.PCX_HOSTLOSS] ∧ e.unregistered = s.unregistered)

/-! ## The Chart store, BAR2 and boot (chapters 2 to 4) -/

/-- R88, R94 to R101: a session is opened by one path at a time and closed by its own; the store takes a word in a session and advances;
COMMIT is refused with its code, or ends the session and runs; it ends with the new Chart in force or with its failure; a region's check sets
VERIFIED, or stops the bring-up of the functions that wait for it.
The model's own choices behind it: log entries 20, 21, 82 and 86. -/
def Obligations.ChartsAreCommitted : Prop :=
  ∀ (s : State) (p : Path), s.reaches p = true → s.isPark = false →
    (∃ e, exec (.chtOpen p) s = .next (s.ended e) ∧ s.onlyRegs e [Reg.CHT_STATUS] ∧ e.unregistered = s.unregistered ∧
      (s.sessionOpen = false → e.sessionOf p = true) ∧ (s.sessionOpen = true → e.reg Reg.CHT_STATUS = s.reg Reg.CHT_STATUS)) ∧
    (∃ e, exec (.chtClose p) s = .next (s.ended e) ∧ s.onlyRegs e [Reg.CHT_STATUS] ∧ e.unregistered = s.unregistered ∧
      (s.sessionOf p = true → e.sessionOpen = false) ∧ (s.sessionOf p = false → e.reg Reg.CHT_STATUS = s.reg Reg.CHT_STATUS)) ∧
    (∀ val : Word, ∃ e, exec (.chtDataWrite p val) s = .next (s.ended e) ∧
      e.get Reg.CHT_ADDR Fl.CHT_ADDR_ADDR = (s.get Reg.CHT_ADDR Fl.CHT_ADDR_ADDR + 1) % 2 ^ 19 ∧
      (∀ a, a < s.chtAddr ∨ s.chtAddr + 4 ≤ a → e.chtByte a = s.chtByte a) ∧
      (∀ i, i < 4 → e.chtByte (s.chtAddr + i) =
        if s.storeRefuses p [s.chtAddr + i] then s.chtByte (s.chtAddr + i) else val.toNat / 2 ^ (8 * i) % 256) ∧
      ((∀ i, i < 4 → s.storeRefuses p [s.chtAddr + i] = false) → s.onlyRegs e [Reg.CHT_ADDR])) ∧
    (∃ e, exec (.chtDataRead p) s = .next (s.ended e) ∧ (e.pathOf p).lastRead = some (State.wordAt s.cht chtId s.chtAddr) ∧ e.cht = s.cht ∧
      e.get Reg.CHT_ADDR Fl.CHT_ADDR_ADDR = (s.get Reg.CHT_ADDR Fl.CHT_ADDR_ADDR + 1) % 2 ^ 19 ∧ s.onlyRegs e [Reg.CHT_ADDR]) ∧
    (∀ scope : Byte, ∃ e, exec (.chtCommit p scope) s = .next (s.ended e) ∧ e.chart = s.chart ∧ e.cht = s.cht ∧
      (s.commitRefused (s.sessionOther p) scope.toNat = none → e.commit = some ⟨scope.toNat, s.clk.ts, false, []⟩ ∧
        e.get Reg.CHT_STATUS Fl.CHT_STATUS_BUSY = 1 ∧ e.sessionOpen = false ∧ s.onlyRegs e [Reg.CHT_STATUS]) ∧
      (∀ c d, s.commitRefused (s.sessionOther p) scope.toNat = some (c, d) → e.commit = s.commit ∧
        e.reg Reg.CHT_RESULT = BitVec.ofNat 32 (c + 2 ^ 8 * 0xFF + 2 ^ 16 * d) ∧ e.get Reg.CHT_EVENT Fl.CHT_EVENT_FAILED = 1)) ∧
    (∀ ecc t run, s.commit = some run → run.boot = false →
      let y : State := { (s.atTime t).put Reg.CHT_STATUS Fl.CHT_STATUS_BUSY 0 with commit := none }
      ∃ e, exec (.commitComplete ecc t) s = .next (s.ended e) ∧ e.commit = none ∧ e.get Reg.CHT_STATUS Fl.CHT_STATUS_BUSY = 0 ∧
        (y.commitFail y.storeChart run ecc = none → e.chart = some y.storeChart ∧ e.reg Reg.CHT_RESULT = 0xFF00 ∧
          e.get Reg.CHT_EVENT Fl.CHT_EVENT_DONE = 1 ∧ e.get Reg.CHT_STATUS Fl.CHT_STATUS_COMMITTED = 1) ∧
        (∀ f, y.commitFail y.storeChart run ecc = some f → e.chart = s.chart ∧ e.get Reg.CHT_EVENT Fl.CHT_EVENT_FAILED = 1 ∧
          e.reg Reg.CHT_RESULT = BitVec.ofNat 32 (f.code + 2 ^ 8 * f.sec + 2 ^ 16 * f.detail))) ∧
    (∀ (i : Fin 16) t, s.isSafe = false → s.hashedFor i ≠ [] → s.wrefVerified i = false → s.hasSec 0x12 i = true →
      ∃ e, exec (.weightHashDone i t) s = .next (s.ended e) ∧
        (sha256 (s.wrefBytes i) = s.wrefDigest i → e.wrefVerified i = true ∧ e.get (Reg.CHT_WREF i) Fl.CHT_WREF_DIRTY = 0 ∧
          e.get (Reg.CHT_WREF i) Fl.CHT_WREF_MISMATCH = 0 ∧ (s.atTime t).onlyRegs e [Reg.CHT_WREF i]) ∧
        (sha256 (s.wrefBytes i) ≠ s.wrefDigest i → e.wrefVerified i = false ∧ e.get (Reg.CHT_WREF i) Fl.CHT_WREF_MISMATCH = 1 ∧
          ∀ n ∈ s.hashedFor i, e.fnState n = 0 ∧ e.get (Reg.SYS_FN_STATE n) Fl.SYS_FN_STATE_START_FAIL = 2))

/-- R117, R118, R366: through BAR2 each enabled byte that is not refused is stored, and every other byte of every memory is as before; a read
gives each byte as it stands, 0 where it is refused, and an uncorrectable word raises its memory's source and poisons or zeroes the answer.
The model's own choices behind it: log entries 18, 19, 46 and 47. -/
def Obligations.MemoriesAreReachedThroughBar2 : Prop :=
  ∀ (s : State) (p : Path) (off : Nat), s.reaches p = true →
    (∀ data, ∃ e, exec (.bar2Write p off data) s = .next (s.ended e) ∧
      (∀ o id a, bar2Memory o = some (id, a) → (e.getMem id).read id a =
        if off ≤ o ∧ s.bar2WriteReason p o = none then (data[o - off]?).join.getD ((s.getMem id).read id a) else (s.getMem id).read id a) ∧
      ((∀ i b, data[i]? = some (some b) → s.bar2WriteReason p (off + i) = none) → s.onlyRegs e ((List.range 16).map fun i => Reg.CHT_WREF i)) ∧
      ((∃ i b, data[i]? = some (some b) ∧ s.bar2WriteReason p (off + i) ≠ none) →
        e.get (State.aelBase p) Fl.PCX_AEL_COUNT_COUNT = min (s.get (State.aelBase p) Fl.PCX_AEL_COUNT_COUNT + 1) (2 ^ 16 - 1))) ∧
    (∀ n, ∃ e, exec (.bar2Read p off n none) s = .next (s.ended e) ∧
      (e.pathOf p).block = (List.range n).map (fun i => s.bar2Byte (off + i)) ∧ (e.pathOf p).poisoned = false ∧
      (∀ id, e.getMem id = s.getMem id) ∧
      ((∀ i, i < n → s.bar2ReadReason (off + i) = none) → e.regs = s.regs)) ∧
    (∀ n i id a, i < n → s.bar2ReadReason (off + i) = none → bar2Memory (off + i) = some (id, a) →
      ∃ e, exec (.bar2Read p off n (some (off + i))) s = .next (s.ended e) ∧ e.fcuLatched (memSource id) = true ∧
        (p = .pcie → (e.pathOf p).poisoned = true) ∧ (p = .spi → (e.pathOf p).block = List.replicate n 0) ∧
        (∀ id, e.getMem id = s.getMem id))

/-- R136, R137, R65, R305: boot reads the directory and takes a Chart slot, or goes on without a Chart and says why; it copies the image and
starts a full COMMIT; once the record check and the thirteen calibrations have ended the device is in RUN.
The model's own choices behind it: log entry 27. -/
def Obligations.BootReadsFlash : Prop :=
  ∀ (s : State) (t : Nat), s.alive = true → s.isBoot = true →
    let x := s.atTime t
    (s.pw.bootStep = 5 → ∃ e, exec (.bootDirectoryRead t) s = .next (s.ended e) ∧
      e.get Reg.BSP_STATUS Fl.BSP_STATUS_DIR_OK = ofBool s.dirValid ∧
      (s.dirValid = false → e.get Reg.PWR_BOOT Fl.PWR_BOOT_CHART = 1 ∧ e.pw.bootStep = 10) ∧
      (∀ i off len, s.dirValid = true → (s.dirEntries.all (·.1 != 1)) = false → s.chartSlot = some (i, off, len) →
        e.bsp.slot = some (off, len) ∧ e.pw.bootStep = 6 ∧ e.get Reg.BSP_STATUS Fl.BSP_STATUS_CHART_SLOT = (i + 1) % 4 ∧
        x.onlyRegs e [Reg.BSP_STATUS])) ∧
    (s.pw.bootStep = 5 ∨ s.pw.bootStep = 6 → ∃ e, exec (.bootFlashTimeout t) s = .next (s.ended e) ∧ e.bsp.slot = none ∧
      e.get Reg.PWR_BOOT Fl.PWR_BOOT_CHART = 3 ∧ e.pw.bootStep = 10) ∧
    (∀ off len, s.pw.bootStep = 6 → s.bsp.slot = some (off, len) → ∃ e, exec (.bootChartRead t) s = .next (s.ended e) ∧
      (∀ i, i < len → e.chtByte i = s.flashByte (off + i)) ∧ (∀ a, len ≤ a → e.chtByte a = s.chtByte a) ∧
      (s.commitRefused false 0 = none → e.commit = some ⟨0, x.clk.ts, true, []⟩ ∧ e.commitBusy = true ∧ e.pw.bootStep = 7 ∧
        x.onlyRegs e [Reg.CHT_STATUS]) ∧
      (s.commitRefused false 0 ≠ none → e.get Reg.PWR_BOOT Fl.PWR_BOOT_CHART = 2 ∧ e.pw.bootStep = 10)) ∧
    (∀ (k : Fin 13) pass, s.pw.bootStep = 10 → s.bistPhase = 0 → s.bist.calDone.contains k.val = false →
      ∃ e, exec (.offsetCalDone k pass t) s = .next (s.ended e) ∧ e.bist.calDone = s.bist.calDone ++ [k.val] ∧
        (12 ≤ s.bist.calDone.length → s.bsp.record = none → e.isRun = true ∧ e.pw.bootStep = 13) ∧
        (s.bist.calDone.length < 12 ∨ s.bsp.record ≠ none → e.isBoot = true ∧ e.pw.bootStep = 10))

/-- R128 to R134: frames of the service SPI. A WRITE queues the words there is room for and counts the rest, and the queue drains in order; a
READ in time answers with its word, a late one with zeros and later with its result; RESULT, STATUS and ID shift out what they are named for;
an unknown command and an incomplete frame are counted.
The model's own choices behind it: log entries 45, 48, 49 and 50. -/
def Obligations.ServiceSpiFramesAreAnswered : Prop :=
  ∀ (s : State), s.clocked = true →
    (∀ (addr : Word) words, ∃ e, exec (.spiWrite addr words) s = .next (s.ended e) ∧
      e.spi =
        { s.spi with
          wfifo := s.spi.wfifo ++ ((words.zipIdx.map fun x => ((addr.toNat + 4 * x.2) % 2 ^ 32, x.1)).take (16 - s.spi.wfifo.length))
          out := s.sspStatusByte :: List.replicate (4 + 4 * words.length) 0 } ∧
      e.get Reg.SSP_ERR1 Fl.SSP_ERR1_OVERFLOW =
        min (s.get Reg.SSP_ERR1 Fl.SSP_ERR1_OVERFLOW + (words.length - (16 - s.spi.wfifo.length))) 255 ∧
      s.onlyRegs e [Reg.SSP_ERR1]) ∧
    (∀ a w r, s.spi.wfifo = (a, w) :: r → s.spiHeld = false → ∃ e, exec .spiWfifoDrain s = .next (s.ended e) ∧
      (∀ off, State.spiSpace a = .bar0 off → off % 4 = 0 → e = ({ s with spi := { s.spi with wfifo := r } } : State).busWrite .spi off w) ∧
      (∀ off, State.spiSpace a = .bar2 off → off % 4 = 0 →
        e = ({ s with spi := { s.spi with wfifo := r } } : State).bar2Write .spi off ((State.wordLe w).map some)) ∧
      (∀ x q, State.spiRefusal a true = some (x, q) → e = ({ s with spi := { s.spi with wfifo := r } } : State).ael .spi x q)) ∧
    (∀ (addr : Word) (f : SpiWord), ∃ e, exec (.spiRead addr f []) s = .next (s.ended e) ∧
      (∀ t w, f.inTime = true → s.spi.wfifo = [] → s.spiHeld = false → s.spi.late = [] → s.spiFetch addr.toNat f.ecc = (t, some w) →
        e.spi.rdata = w ∧ e.spi.rstat = State.rstatOf true (s.spiLogged addr.toNat f.ecc) ∧ e.spi.late = [] ∧
        e.spi.out = s.sspStatusByte :: List.replicate (5 + s.get Reg.SSP_CFG Fl.SSP_CFG_DUMMY) 0 ++ e.spi.rstat :: State.wordBe w) ∧
      (f.inTime = false ∨ s.spi.wfifo ≠ [] ∨ s.spiHeld = true ∨ s.spi.late ≠ [] →
        e.spi.late = (s.spi.late.map fun y => { y with first := false }) ++ [⟨addr.toNat, true, f.ecc⟩] ∧ e.spi.rstat = 0x80 ∧
        e.spi.out = s.sspStatusByte :: List.replicate (5 + s.get Reg.SSP_CFG Fl.SSP_CFG_DUMMY) 0 ++ [0x80, 0, 0, 0, 0] ∧ e.regs = s.regs)) ∧
    (∀ x r, s.spi.late = x :: r → s.spi.relayed = false → s.spi.wfifo = [] → s.spiHeld = false →
      ∀ t w, s.spiFetch x.addr x.ecc = (t, some w) → ∃ e, exec .spiReadComplete s = .next (s.ended e) ∧ e.spi.late = r ∧
        (x.first = true → e.spi.rdata = w ∧ e.spi.rstat = State.rstatOf true (s.spiLogged x.addr x.ecc))) ∧
    (∃ e, exec .spiResult s = .next (s.ended e) ∧
      e = { s with spi := { s.spi with out := s.sspStatusByte :: s.spi.rstat :: State.wordBe s.spi.rdata } }) ∧
    (∃ e, exec .spiStatus s = .next (s.ended e) ∧ e = { s with spi := { s.spi with out := s.sspStatusByte :: State.wordBe s.sspStatus } }) ∧
    (∃ e, exec .spiId s = .next (s.ended e) ∧ e = { s with spi := { s.spi with out := s.sspStatusByte :: State.wordBe (s.shown Reg.SYS_ID) } }) ∧
    (∃ e, exec .spiBadCommand s = .next (s.ended e) ∧ e.spi = { s.spi with out := [s.sspStatusByte] } ∧
      e.get Reg.SSP_ERR0 Fl.SSP_ERR0_BAD_CMD = min (s.get Reg.SSP_ERR0 Fl.SSP_ERR0_BAD_CMD + 1) 255 ∧ s.onlyRegs e [Reg.SSP_ERR0]) ∧
    (∀ write edges, ∃ e, exec (.spiFrameEnd write edges) s = .next (s.ended e) ∧
      e.spi = { s.spi with out := s.spi.out.take (edges / 8) } ∧ s.onlyRegs e [Reg.SSP_ERR0] ∧
      e.get Reg.SSP_ERR0 Fl.SSP_ERR0_PARTIAL =
        (if edges % 8 = 0 then s.get Reg.SSP_ERR0 Fl.SSP_ERR0_PARTIAL else min (s.get Reg.SSP_ERR0 Fl.SSP_ERR0_PARTIAL + 1) 255) ∧
      e.get Reg.SSP_ERR0 Fl.SSP_ERR0_SHORT =
        (if write = true ∧ 5 < edges / 8 ∧ (edges / 8 - 5) % 4 ≠ 0 then min (s.get Reg.SSP_ERR0 Fl.SSP_ERR0_SHORT + 1) 255
          else s.get Reg.SSP_ERR0 Fl.SSP_ERR0_SHORT))

/-- The boot flash operations by their codes. -/
def flashCommands (p : Path) : List (Instr × Nat) := [(.bspRead p, 1), (.bspErase4k p, 2), (.bspProgram p, 3)]

/-- R141, R142: a flash operation is refused, out of range, or starts with the address, length and buffer of its registers; it ends with its
data moved, or with TIMEOUT and the rest of the flash as before.
The model's own choices behind it: log entries 30 and 43. -/
def Obligations.FlashOperationsRun : Prop :=
  ∀ (s : State),
    (∀ p c k, (c, k) ∈ flashCommands p → s.reaches p = true → s.isPark = false → s.isSafe = false → s.bsp.op = none →
      let addr := s.get Reg.BSP_ADDR Fl.BSP_ADDR_ADDR
      let len := s.get Reg.BSP_LEN Fl.BSP_LEN_LEN
      ∃ e, exec c s = .next (s.ended e) ∧ e.bsp.flash = s.bsp.flash ∧
        (s.flashRefused k addr len = true → e.bsp.op = none ∧ e.get Reg.BSP_RESULT Fl.BSP_RESULT_CODE = 1 ∧
          e.get Reg.BSP_EVENT Fl.BSP_EVENT_DONE = 1 ∧ s.onlyRegs e [Reg.BSP_RESULT, Reg.BSP_EVENT]) ∧
        (s.flashRefused k addr len = false → State.flashRange k addr len = true → e.bsp.op = none ∧
          e.get Reg.BSP_RESULT Fl.BSP_RESULT_CODE = 3 ∧ e.get Reg.BSP_EVENT Fl.BSP_EVENT_DONE = 1 ∧
          s.onlyRegs e [Reg.BSP_RESULT, Reg.BSP_EVENT]) ∧
        (s.flashRefused k addr len = false → State.flashRange k addr len = false → s.onlyRegs e [] ∧
          e.bsp.op = some ⟨k, addr, len, (List.range len).map s.bufByte⟩)) ∧
    (∀ t o, s.clocked = true → s.bsp.op = some o → ∃ e, exec (.bspOpComplete t) s = .next (s.ended e) ∧ e.bsp.op = none ∧
      e.get Reg.BSP_RESULT Fl.BSP_RESULT_CODE = 0 ∧ e.get Reg.BSP_EVENT Fl.BSP_EVENT_DONE = 1 ∧
      (o.op = 1 → o.len ≤ 256 → e.bsp.flash = s.bsp.flash ∧ ∀ i, i < o.len → (e.bufByte i).toNat = s.flashByte (o.addr + i)) ∧
      (o.op = 2 → ∀ a, e.flashByte a = if o.addr ≤ a ∧ a < o.addr + 4096 then 0xFF else s.flashByte a) ∧
      (o.op = 3 → ∀ a, e.flashByte a =
        if o.addr ≤ a ∧ a < o.addr + o.data.length then (o.data.getD (a - o.addr) 0).toNat else s.flashByte a)) ∧
    (∀ t o, s.clocked = true → s.bsp.op = some o → ∃ e, exec (.bspTimeout t) s = .next (s.ended e) ∧ e.bsp.op = none ∧
      e.get Reg.BSP_RESULT Fl.BSP_RESULT_CODE = 2 ∧ e.get Reg.BSP_EVENT Fl.BSP_EVENT_DONE = 1 ∧
      (o.op ≠ 2 → o.op ≠ 3 → e.bsp.flash = s.bsp.flash) ∧
      (o.op = 2 → ∀ a, a < o.addr ∨ o.addr + 4096 ≤ a → e.flashByte a = s.flashByte a) ∧
      (o.op = 3 → ∀ a, a < o.addr / 256 * 256 ∨ o.addr / 256 * 256 + 256 ≤ a → e.flashByte a = s.flashByte a))

/-! ## Camera lanes (chapter 9) -/

/-- What a lane's count shows after one more event: CNT_FREEZE holds it, and it saturates (R308). -/
def laneCounted (s : State) (x : Fin 16) (off : Nat) (f : Fld) : Nat :=
  if s.flag (Reg.LN_CTRL x) Fl.LN_CTRL_CNT_FREEZE then s.get off f else min (s.get off f + 1) (2 ^ f.width - 1)

/-- Only this lane, and of the registers only its own, may differ. -/
def onlyLane (s y : State) (x : Fin 16) : Prop :=
  { y.unregistered with lanes := s.lanes } = s.unregistered ∧ (∀ u : Fin 16, u ≠ x → y.lanes[u] = s.lanes[u]) ∧
    s.onlyRegs y ((List.range 15).map fun k => Reg.LN_CFG x + 4 * k)

/-- R295, R296, R300 to R302: how a receive lane acquires and is lost. Phase lock, the end of an acquisition and its two failures, the loss of
lock of an active and of an acquiring lane, the end of a reacquisition, and the loss of a forwarded clock, which takes its port's data lanes
with it. The ports then follow their lanes.
The model's own choices behind it: log entry 122. -/
def Obligations.LanesAcquireAndAreLost : Prop :=
  ∀ (s : State) (x : Fin 16) (t : Nat), s.acts = true →
    let z := s.atTime t
    (∃ y : State, exec (.lnPhaseLock x.castSucc t) s = .next (s.ended y.allPortLanes) ∧ onlyLane z y x ∧
      (s.laneState x = 2 → s.laneLocked x = false → y.laneLocked x = true ∧ (s.laneRole x ≠ 2 → y.laneState x = 2) ∧
        (s.laneRole x = 2 → y.laneState x = 3 ∧ y.get (Reg.LN_STATE x) Fl.LN_STATE_CLK_OK = 1 ∧ y.get (Reg.LN_ACQ x) Fl.LN_ACQ_RESULT = 1 ∧
          y.get (Reg.LN_ACQ x) Fl.LN_ACQ_TIME = z.acqTime x ∧ y.get (Reg.LN_EVENT x) Fl.LN_EVENT_ACQ_DONE = 1)) ∧
      (s.laneState x = 4 → s.laneRole x = 1 → y.laneState x = 5 ∧ y.laneLocked x = true) ∧
      (s.laneState x = 4 → s.laneRole x = 2 → y.laneState x = 3 ∧ y.laneLocked x = true ∧
        y.get (Reg.LN_STATE x) Fl.LN_STATE_CLK_OK = 1 ∧ y.get (Reg.LN_EVENT x) Fl.LN_EVENT_RELOCKED = 1)) ∧
    (∀ ctle efm taps sat, s.laneState x = 2 → s.laneLocked x = true → s.laneRole x = 1 → efm < 256 →
      ∃ y : State, exec (.lnAcqDone x.castSucc ctle efm taps sat t) s = .next (s.ended y.allPortLanes) ∧ onlyLane z y x ∧
        y.get (Reg.LN_ACQ x) Fl.LN_ACQ_CTLE = ctle % 32 ∧ y.get (Reg.LN_ACQ x) Fl.LN_ACQ_EFM = efm ∧
        y.get (Reg.LN_ACQ x) Fl.LN_ACQ_TIME = z.acqTime x ∧ (sat = true → y.get (Reg.LN_EVENT x) Fl.LN_EVENT_TAP_SAT = 1) ∧
        (efm < 16 → y.laneState x = 7 ∧ y.get (Reg.LN_ACQ x) Fl.LN_ACQ_RESULT = 3 ∧ y.get (Reg.LN_EVENT x) Fl.LN_EVENT_ACQ_FAIL = 1 ∧
          y.get (Reg.LN_CNT1 x) Fl.LN_CNT1_ACQ_FAIL = laneCounted s x (Reg.LN_CNT1 x) Fl.LN_CNT1_ACQ_FAIL) ∧
        (16 ≤ efm → y.laneState x = 3 ∧ y.get (Reg.LN_ACQ x) Fl.LN_ACQ_RESULT = 1 ∧ y.get (Reg.LN_STATE x) Fl.LN_STATE_CTLE = ctle % 32 ∧
          y.get (Reg.LN_EFM x) Fl.LN_EFM_LAST = efm ∧ y.get (Reg.LN_EFM x) Fl.LN_EFM_BASE = efm ∧ y.laneTaps x = taps.clamp ∧
          y.get (Reg.LN_EVENT x) Fl.LN_EVENT_ACQ_DONE = 1 ∧ y.lanes[x] = { s.lanes[x] with fresh := true, trial := none, forced := false })) ∧
    (s.laneState x = 2 → s.laneLocked x = false → ∃ y : State, exec (.lnAcqNoLock x.castSucc t) s = .next (s.ended y.allPortLanes) ∧
      onlyLane z y x ∧ y.laneState x = 7 ∧ y.get (Reg.LN_ACQ x) Fl.LN_ACQ_RESULT = 2 ∧ y.get (Reg.LN_EVENT x) Fl.LN_EVENT_ACQ_FAIL = 1 ∧
      y.get (Reg.LN_CNT1 x) Fl.LN_CNT1_ACQ_FAIL = laneCounted s x (Reg.LN_CNT1 x) Fl.LN_CNT1_ACQ_FAIL) ∧
    (s.laneRole x = 1 → s.laneState x = 3 ∨ s.laneState x = 5 ∨ (s.laneState x = 2 ∧ s.laneLocked x = true) →
      ∃ y : State, exec (.lnLockLoss x.castSucc t) s = .next (s.ended y.allPortLanes) ∧ onlyLane z y x ∧ y.laneLocked x = false ∧
        y.get (Reg.LN_EVENT x) Fl.LN_EVENT_CDR_LOSS = 1 ∧
        y.get (Reg.LN_CNT1 x) Fl.LN_CNT1_CDR_LOSS = laneCounted s x (Reg.LN_CNT1 x) Fl.LN_CNT1_CDR_LOSS ∧
        (s.laneState x ≠ 2 → y.laneState x = 4 ∧ y.get (Reg.LN_STATE x) Fl.LN_STATE_TRIAL = 0 ∧ y.laneTaps x = s.laneTaps x ∧
          y.lanes[x] = { s.lanes[x] with trial := none, forced := false }) ∧
        (s.laneState x = 2 → y.laneState x = 2 ∧ y.laneTaps x = { Taps.zero with amp := 128 } ∧
          y.get (Reg.LN_STATE x) Fl.LN_STATE_CTLE = s.ctleInit x % 32 ∧ y.lanes[x] = { s.lanes[x] with lockFrom := z.clk.ts })) ∧
    (∀ efm taps, s.laneState x = 5 → efm < 256 → ∃ y : State, exec (.lnReacqDone x.castSucc efm taps t) s = .next (s.ended y.allPortLanes) ∧
      onlyLane z y x ∧
      (efm < 16 → y.laneState x = 7 ∧ y.get (Reg.LN_ACQ x) Fl.LN_ACQ_RESULT = 3 ∧ y.get (Reg.LN_EVENT x) Fl.LN_EVENT_ACQ_FAIL = 1) ∧
      (16 ≤ efm → y.laneState x = 3 ∧ y.get (Reg.LN_EFM x) Fl.LN_EFM_LAST = efm ∧ y.get (Reg.LN_EFM x) Fl.LN_EFM_BASE = efm ∧
        y.laneTaps x = taps.clamp ∧ y.get (Reg.LN_EVENT x) Fl.LN_EVENT_RELOCKED = 1)) ∧
    (∀ q : Fin 4, x = State.laneNo q 2 → s.laneRole x = 2 → s.laneState x = 3 ∨ (s.laneState x = 2 ∧ s.laneLocked x = true) →
      ∃ y : State, exec (.lnClockLoss q t) s = .next (s.ended y.allPortLanes) ∧ y.laneState x = 4 ∧ y.laneLocked x = false ∧
        y.get (Reg.LN_STATE x) Fl.LN_STATE_CLK_OK = 0 ∧ y.get (Reg.LN_EVENT x) Fl.LN_EVENT_CLK_LOSS = 1 ∧
        y.get (Reg.LN_CNT1 x) Fl.LN_CNT1_CDR_LOSS = laneCounted s x (Reg.LN_CNT1 x) Fl.LN_CNT1_CDR_LOSS ∧
        (∀ r, r < 2 → s.laneRole (State.laneNo q r) = 1 → s.laneState (State.laneNo q r) = 3 ∨ s.laneState (State.laneNo q r) = 5 →
          y.laneState (State.laneNo q r) = 4 ∧ y.laneLocked (State.laneNo q r) = false) ∧
        ∀ u : Fin 16, u.val / 4 ≠ q.val → y.lanes[u] = s.lanes[u] ∧ y.laneState u = s.laneState u)

/-- R297 to R299, R303 to R306: what an active lane measures and adapts. The window of an epoch is measure-only, or keeps or reverts its trial;
the end of an epoch proposes the next one; TX0 locks, times out or is lost; a recalibration is asked for, refused and ends.
The model's own choices behind it: log entry 122. -/
def Obligations.LanesAdaptAndCalibrate : Prop :=
  ∀ (s : State) (x : Fin 16) (t : Nat), s.acts = true →
    let z := s.atTime t
    (∀ m, s.laneState x = 3 → s.laneRole x = 1 → (s.lane x).fresh = false → m < 256 →
      ∃ y : State, exec (.lnEfmWindowEnd x.castSucc m) s = .next (s.ended y.allPortLanes) ∧ onlyLane s y x ∧ y.laneState x = 3 ∧
        y.get (Reg.LN_EFM x) Fl.LN_EFM_LAST = m ∧
        ((s.lane x).trial = none → y.laneTaps x = s.laneTaps x ∧ y.lanes[x] = s.lanes[x]) ∧
        (∀ h, (s.lane x).trial = some h → s.get (Reg.LN_EFM x) Fl.LN_EFM_BASE ≤ m + s.laneRevert x → h.clamp = h →
          y.laneTaps x = h ∧ y.lanes[x] = { s.lanes[x] with trial := none }) ∧
        ((s.lane x).trial = none ∨ s.get (Reg.LN_EFM x) Fl.LN_EFM_BASE ≤ m + s.laneRevert x →
          y.get (Reg.LN_EFM x) Fl.LN_EFM_BASE = m ∧ y.get (Reg.LN_EFM x) Fl.LN_EFM_LAST_REVERTED = 0 ∧
          y.get (Reg.LN_EFM x) Fl.LN_EFM_MIN = min m (s.get (Reg.LN_EFM x) Fl.LN_EFM_MIN) ∧
          (m < s.get (Reg.LN_EFM_LOW x) Fl.LN_EFM_LOW_THRESHOLD → y.get (Reg.LN_EVENT x) Fl.LN_EVENT_EFM_LOW = 1 ∧
            y.get (Reg.LN_CNT0 x) Fl.LN_CNT0_EFM_LOW_EPOCHS = laneCounted s x (Reg.LN_CNT0 x) Fl.LN_CNT0_EFM_LOW_EPOCHS) ∧
          (s.get (Reg.LN_EFM_LOW x) Fl.LN_EFM_LOW_THRESHOLD ≤ m → y.reg (Reg.LN_EVENT x) = s.reg (Reg.LN_EVENT x))) ∧
        (∀ h, (s.lane x).trial = some h → m + s.laneRevert x < s.get (Reg.LN_EFM x) Fl.LN_EFM_BASE →
          y.laneTaps x = s.laneTaps x ∧ y.get (Reg.LN_EFM x) Fl.LN_EFM_LAST_REVERTED = 1 ∧
          y.get (Reg.LN_EFM x) Fl.LN_EFM_BASE = s.get (Reg.LN_EFM x) Fl.LN_EFM_BASE ∧
          y.get (Reg.LN_CNT0 x) Fl.LN_CNT0_REVERTS = laneCounted s x (Reg.LN_CNT0 x) Fl.LN_CNT0_REVERTS ∧
          y.lanes[x] = { s.lanes[x] with trial := none, forced := true })) ∧
    (∀ acc, s.laneState x = 3 → s.laneRole x = 1 → ∃ y : State, exec (.lnEpochEnd x.castSucc acc) s = .next (s.ended y.allPortLanes) ∧
      onlyLane s y x ∧ ((s.lane x).fresh = true → y.regs = s.regs ∧ y.lanes[x] = { s.lanes[x] with fresh := false }) ∧
      ((s.lane x).fresh = false →
        let want := (s.laneTaps x).add acc.propose
        let go := acc.propose != Taps.zero && !(s.lane x).forced && !s.flag (Reg.LN_CTRL x) Fl.LN_CTRL_ADAPT_HOLD
        y.get (Reg.LN_EPOCH x) Fl.LN_EPOCH_COUNT = (s.get (Reg.LN_EPOCH x) Fl.LN_EPOCH_COUNT + 1) % 2 ^ 32 ∧
        y.get (Reg.LN_STATE x) Fl.LN_STATE_TRIAL = ofBool go ∧ y.laneTaps x = s.laneTaps x ∧
        y.lanes[x] = { s.lanes[x] with trial := if go then some want.clamp else none, forced := false } ∧
        (go = true → want.clamp ≠ want → y.get (Reg.LN_EVENT x) Fl.LN_EVENT_TAP_SAT = 1 ∧
          y.get (Reg.LN_CNT1 x) Fl.LN_CNT1_TAP_SAT = laneCounted s x (Reg.LN_CNT1 x) Fl.LN_CNT1_TAP_SAT))) ∧
    (s.laneState x = 6 → ∃ y : State, exec (.lnSynLock x.castSucc t) s = .next (s.ended y.allPortLanes) ∧ onlyLane z y x ∧ y.laneState x = 3 ∧
      y.laneLocked x = true ∧ y.get (Reg.LN_SYN x) Fl.LN_SYN_SETTLE_US = min 0xFFFF ((z.clk.ts - (s.lane x).start) / 500)) ∧
    (s.laneState x = 6 → ∃ y : State, exec (.lnSynTimeout x.castSucc t) s = .next (s.ended y.allPortLanes) ∧ onlyLane z y x ∧ y.laneState x = 7 ∧
      y.get (Reg.LN_EVENT x) Fl.LN_EVENT_SYN_TIMEOUT = 1) ∧
    (s.laneState x = 3 → s.laneRole x = 3 → ∃ y : State, exec (.lnSynLockLoss x t) s = .next (s.ended y.allPortLanes) ∧ onlyLane z y x ∧
      y.laneState x = 6 ∧ y.laneLocked x = false ∧ y.get (Reg.LN_EVENT x) Fl.LN_EVENT_SYN_LOCK_LOST = 1 ∧
      y.get (Reg.LN_CNT1 x) Fl.LN_CNT1_SYN_LOSS = laneCounted s x (Reg.LN_CNT1 x) Fl.LN_CNT1_SYN_LOSS ∧
      y.get (Reg.LN_SYN x) Fl.LN_SYN_CAL_COUNT = min (s.get (Reg.LN_SYN x) Fl.LN_SYN_CAL_COUNT + 1) 255 ∧ (y.lane x).start = z.clk.ts) ∧
    (∀ p val, s.reaches p = true → s.isPark = false → getF val Fl.LN_CAL_RECAL = 1 → s.laneRole x ≠ 3 →
      ∃ e, exec (.lnRecal p x val) s = .next (s.ended e) ∧ e.unregistered = s.unregistered ∧
        s.onlyRegs e [Reg.LN_CAL x, Reg.LN_STATE x, Reg.LN_EVENT x] ∧
        (s.laneState x = 0 → x.val % 4 ≠ 3 → e.laneState x = 1 ∧ e.reg (Reg.LN_EVENT x) = s.reg (Reg.LN_EVENT x)) ∧
        (s.laneState x ≠ 0 ∨ x.val % 4 = 3 → e.laneState x = s.laneState x ∧ e.get (Reg.LN_EVENT x) Fl.LN_EVENT_CAL_REFUSED = 1)) ∧
    (∀ pass, s.laneState x = 1 → ∃ y : State, exec (.lnCalDone x pass) s = .next (s.ended y.allPortLanes) ∧ onlyLane s y x ∧ y.laneState x = 0 ∧
      y.get (Reg.LN_CAL x) Fl.LN_CAL_DONE = 1 ∧ y.get (Reg.LN_CAL x) Fl.LN_CAL_FAIL = (if pass then 0 else 1) ∧
      (pass = false → y.get (Reg.LN_EVENT x) Fl.LN_EVENT_CAL_FAIL = 1))

/-! ## Camera ports (chapter 10) -/

/-- What a port's count shows after one more event: CNT_FREEZE holds it, and it saturates (R342). -/
def portCounted (s : State) (q : Fin 4) (off : Nat) (f : Fld) : Nat :=
  if s.cpFrozen q then s.get off f else min (s.get off f + 1) (2 ^ f.width - 1)

/-- Training attempt `n` of a port has begun in `y` (step 1 of Table 10-7): TX0 settles, and the receive lanes acquire, in forwarded-clock mode
RX2 alone. A lane that failed its offset calibration, or has no role, does not (R305). -/
def attemptBegun (z y : State) (q : Fin 4) (n : Nat) : Prop :=
  y.portState q = 2 ∧ y.portStep q = 1 ∧ y.get (Reg.CP_STATE q) Fl.CP_STATE_ALIGNED = 0 ∧ y.get (Reg.CP_STATE q) Fl.CP_STATE_PREC = 0 ∧
    y.resettling q = false ∧ y.get (Reg.CP_TRAIN q) Fl.CP_TRAIN_ATTEMPTS = min 15 n ∧ y.ports[q].attempts = n ∧
    y.ports[q].waiting = false ∧ y.ports[q].start = z.clk.ts ∧ y.ports[q].step5 = false ∧
    (z.laneRefuses (State.laneNo q 3) = false → y.laneState (State.laneNo q 3) = 6) ∧
    ∀ r, r < 3 → z.laneRefuses (State.laneNo q r) = false →
      y.laneState (State.laneNo q r) = (if z.refMode q = 0 ∧ r ≠ 2 then 0 else 2)

/-- A training attempt of a port has failed in `y` (R333). -/
def attemptFailed (y : State) (q : Fin 4) (cause detail : Nat) : Prop :=
  y.get (Reg.CP_TRAIN q) Fl.CP_TRAIN_CAUSE = cause ∧ y.get (Reg.CP_TRAIN q) Fl.CP_TRAIN_DETAIL = detail ∧
    y.get (Reg.CP_EVENT q) Fl.CP_EVENT_TRAIN_FAIL = 1 ∧ ∀ r, r < 4 → y.laneState (State.laneNo q r) = 0

/-- R330 to R335, R339: how a port trains. Presence starts it for a function that runs, and its loss ends every capture in progress; training
blocks lead to step 5 or end the attempt; marker SEQ 0 leads to step 6 and the head's registers to READY; an attempt that fails is tried again
or leaves the port in FAULT, and the function, if IDLE, in START_FAIL; RETRAIN starts afresh.
The model's own choices behind it: log entry 74. -/
def Obligations.PortsTrain : Prop :=
  ∀ (s : State) (q : Fin 4) (t : Nat), s.acts = true →
    let z := s.atTime t
    (∃ e, exec (.cpPresence q t) s = .next (s.ended e) ∧ e.get (Reg.CP_STATE q) Fl.CP_STATE_PRES = 1 ∧
      e.get (Reg.CP_EVENT q) Fl.CP_EVENT_PRESENCE = 1 ∧ (s.portFnIn q [1, 2, 3] = true → attemptBegun z e q 1) ∧
      (s.portFnIn q [1, 2, 3] = false → e.portState q = 1)) ∧
    (∃ e, exec (.cpPresenceLoss q t) s = .next (s.ended e) ∧ e.get (Reg.CP_STATE q) Fl.CP_STATE_PRES = 0 ∧
      e.get (Reg.CP_EVENT q) Fl.CP_EVENT_PRESENCE = 1 ∧ e.portState q = 0 ∧ e.ports[q].queue = [] ∧
      (∀ r, r < 4 → e.laneState (State.laneNo q r) = 0) ∧ (s.portState q = 2 → attemptFailed e q 10 0) ∧
      ∀ tr ∈ s.transits, ∀ c ∈ tr.caps, c.port = q.val → s.inSpan tr c = true → ∀ tr', e.transit? tr.fn tr.tid = some tr' →
        tr'.degraded = true ∧ ∀ c' ∈ tr'.caps, c'.port = q.val → c'.ended = true) ∧
    (∀ (r : Fin 3) st prec laneId skew ok, s.portState q = 2 → s.ports[q].waiting = false → r.val ∈ s.dataLanes q →
      ∃ e, exec (.trainingBlock q.castSucc r st prec laneId skew ok) s = .next (s.ended e) ∧
        (ok = false → e.regs = s.regs ∧ e.ports[q].blocks[r] = 0 ∧ e.ports[q].seen = s.ports[q].seen) ∧
        (ok = true → e.ports[q].seen[r] = true) ∧
        (ok = true → laneId ≠ r.val → attemptFailed e q 6 r.val) ∧
        (ok = true → laneId = r.val → 64 < skew → attemptFailed e q 5 r.val) ∧
        (ok = true → laneId = r.val → skew ≤ 64 → st ≠ 2 → e.regs = s.regs ∧ e.ports[q].blocks[r] = 0) ∧
        (ok = true → laneId = r.val → skew ≤ 64 → st = 2 → prec = true → u8 (s.portSec q) 0x1C % 2 = 0 → attemptFailed e q 7 r.val) ∧
        (ok = true → laneId = r.val → skew ≤ 64 → st = 2 → (prec = true → u8 (s.portSec q) 0x1C % 2 = 1) →
          (s.ports[q].prec[r] = none → s.ports[q].blocks[r] = 0 → e.ports[q].prec[r] = some prec ∧ e.ports[q].blocks[r] = 1 ∧
            e.flag (Reg.LN_STATE (State.laneNo q r)) Fl.LN_STATE_PRECODE = prec ∧
            (s.laneActive (State.laneNo q r) = true → s.flag (Reg.LN_STATE (State.laneNo q r)) Fl.LN_STATE_PRECODE ≠ prec →
              s.laneRefuses (State.laneNo q r) = false → e.laneState (State.laneNo q r) = 2)) ∧
          (s.ports[q].prec[r] = some prec → 3 ≤ s.ports[q].blocks[r] → s.laneGone q = false →
            (∀ o : Fin 3, o.val ∈ s.dataLanes q → o ≠ r → 4 ≤ s.ports[q].blocks[o] ∧ s.ports[q].prec[o] = some prec) →
            e.ports[q].step5 = true ∧ e.portStep q = 5 ∧ e.get (Reg.CP_STATE q) Fl.CP_STATE_PREC = ofBool prec))) ∧
    (∀ (r : Fin 3) m skew, s.portState q = 2 → s.ports[q].step5 = true → r.val ∈ s.dataLanes q → State.markerSeq r m = some 0 →
      ∃ e, exec (.laneMarker q r m skew t) s = .next (s.ended e) ∧ (64 < skew → attemptFailed e q 5 r.val) ∧
        (skew ≤ 64 → e.aligned q r = true ∧ e.ports[q].seq[r] = 1 ∧
          ((∀ o ∈ s.dataLanes q, o ≠ r.val → s.aligned q o = true) → e.portStep q = 6))) ∧
    (∀ regs, s.portState q = 2 → s.portStep q = 6 → ∃ e, exec (.cpTrainingDone q regs t) s = .next (s.ended e) ∧
      e.reg (Reg.CP_HEAD_ID q) = regs.getD 1 0 ∧ e.get (Reg.CP_HEAD_CAPS q) Fl.CP_HEAD_CAPS_MODES = getF (regs.getD 8 0) ⟨0, 3⟩ ∧
      (headCheck (s.portSec q) regs = none → e.portState q = (if s.portFnIn q [1] then 4 else 3) ∧ e.portStep q = 0 ∧
        e.get (Reg.CP_EVENT q) Fl.CP_EVENT_TRAINED = 1 ∧
        e.get (Reg.CP_TRAIN q) Fl.CP_TRAIN_TIME_US = min ((z.clk.ts - s.ports[q].start) / 500) 0xFFFF) ∧
      ∀ a, headCheck (s.portSec q) regs = some a → attemptFailed e q 9 a) ∧
    (∀ cause detail, s.portState q = 2 → s.ports[q].waiting = false → 1 ≤ cause → cause ≤ 10 → detail < 256 →
      ∃ e, exec (.cpTrainFail q cause detail t) s = .next (s.ended e) ∧
        attemptFailed e q (if cause = 3 ∨ cause = 4 then s.step5Cause q else cause) detail ∧
        e.get (Reg.CP_SVC_CNT q) Fl.CP_SVC_CNT_TRAIN_FAIL = portCounted s q (Reg.CP_SVC_CNT q) Fl.CP_SVC_CNT_TRAIN_FAIL ∧
        (cause ≠ 10 → s.ports[q].attempts ≤ s.get (Reg.CP_CFG q) Fl.CP_CFG_RETRIES →
          e.ports[q].waiting = true ∧ e.ports[q].start = z.clk.ts ∧ e.portState q = 2) ∧
        (cause ≠ 10 → s.get (Reg.CP_CFG q) Fl.CP_CFG_RETRIES < s.ports[q].attempts →
          (s.portFnIn q [1] = false → e.portState q = 6) ∧
          ∀ n, s.portFn q = some n → n < 8 → s.fnIdle n = true → e.fnState n = 0 ∧
            e.get (Reg.SYS_FN_STATE n) Fl.SYS_FN_STATE_START_FAIL = 1)) ∧
    (s.ports[q].waiting = true → ∃ e, exec (.cpTrainRetry q t) s = .next (s.ended e) ∧ attemptBegun z e q (s.ports[q].attempts + 1)) ∧
    (∀ p val, s.reaches p = true → s.isPark = false → getF val Fl.CP_CTRL_RETRAIN = 1 → s.portState q = 6 →
      s.portFnIn q [1, 2, 3] = true → ∃ e, exec (.cpRetrain p q val) s = .next (s.ended e) ∧ attemptBegun s e q 1)

/-- R317, R318, R319, R336 to R338: a port in service. A marker keeps its lane aligned; a second bad one in a row, or one out of skew, takes the
lane out, and with it the port; a lane that is back rejoins at a good marker, and the last of them makes the port READY; a READY port enters
service at a gap; one that stays out trains again. Stray groups and messages are counted.
The model's own choices behind it: log entries 7, 71 and 72. -/
def Obligations.PortsServe : Prop :=
  ∀ (s : State) (q : Fin 4) (t : Nat), s.acts = true →
    let z := s.atTime t
    (∀ (r : Fin 3) m skew, 3 ≤ s.portState q → s.portState q ≤ 5 → r.val ∈ s.dataLanes q → s.aligned q r = true →
      let want := s.ports[q].seq[r]
      let bad := State.markerSeq r m != some want
      ∃ e, exec (.laneMarker q r m skew t) s = .next (s.ended e) ∧
        (m.isSome = true → e.get (Reg.CP_SKEW q) ⟨8 * r.val, 8⟩ = min skew 255) ∧
        e.get (Reg.CP_MARK_ERR q) ⟨8 * r.val, 8⟩ =
          (if bad then portCounted s q (Reg.CP_MARK_ERR q) ⟨8 * r.val, 8⟩ else s.get (Reg.CP_MARK_ERR q) ⟨8 * r.val, 8⟩) ∧
        (m.isSome = true → 64 < skew →
          e.get (Reg.CP_MARK_ERR q) Fl.CP_MARK_ERR_SKEW = portCounted s q (Reg.CP_MARK_ERR q) Fl.CP_MARK_ERR_SKEW) ∧
        ((m.isSome = true ∧ 64 < skew) ∨ (bad = true ∧ 1 ≤ s.ports[q].errRun[r]) →
          (s.portState q = 5 → e.aligned q r = false ∧ e.portState q = 5) ∧
          (s.portState q ≠ 5 → s.laneState (State.laneNo q 3) ≠ 7 → e.aligned q r = false ∧ e.portState q = 5 ∧ e.ports[q].queue = [] ∧
            e.get (Reg.CP_EVENT q) Fl.CP_EVENT_OUT_OF_SERVICE = 1 ∧
            e.get (Reg.CP_SVC_CNT q) Fl.CP_SVC_CNT_OUT = portCounted s q (Reg.CP_SVC_CNT q) Fl.CP_SVC_CNT_OUT) ∧
          (s.portState q ≠ 5 → s.laneState (State.laneNo q 3) = 7 → attemptBegun z e q (s.ports[q].attempts + 1))) ∧
        (m.isSome = false ∨ skew ≤ 64 → bad = false ∨ s.ports[q].errRun[r] = 0 → e.aligned q r = true ∧
          e.ports[q].seq[r] = (want + 1) % 4096 ∧ e.ports[q].errRun[r] = (if bad then 1 else 0) ∧
          (s.portState q ≠ 5 → e.portState q = s.portState q))) ∧
    (∀ (r : Fin 3) m skew, s.portState q = 5 → r.val ∈ s.dataLanes q → s.aligned q r = false → s.laneActive (State.laneNo q r) = true →
      ∃ e, exec (.laneMarker q r m skew t) s = .next (s.ended e) ∧
        (∀ v, State.markerSeq r m = some v → skew ≤ 64 → (s.slotSeq q r).getD v = v → e.aligned q r = true ∧
          e.ports[q].seq[r] = (v + 1) % 4096 ∧ e.get (Reg.CP_EVENT q) Fl.CP_EVENT_LANE_REJOIN = 1 ∧
          e.get (Reg.CP_SVC_CNT q) Fl.CP_SVC_CNT_LANE_REJOIN = portCounted s q (Reg.CP_SVC_CNT q) Fl.CP_SVC_CNT_LANE_REJOIN ∧
          e.portState q = (if ∀ o ∈ s.dataLanes q, o ≠ r.val → s.aligned q o = true then (if s.portFnIn q [1] then 4 else 3) else 5)) ∧
        ((∀ v, State.markerSeq r m = some v → 64 < skew ∨ (s.slotSeq q r).getD v ≠ v) → e.aligned q r = false ∧ e.portState q = 5 ∧
          e.get (Reg.CP_MARK_ERR q) ⟨8 * r.val, 8⟩ = portCounted s q (Reg.CP_MARK_ERR q) ⟨8 * r.val, 8⟩)) ∧
    (s.portState q = 3 → s.portFnIn q [1] = true ∨ (s.portFnIn q [2, 3] = true ∧ s.atGap q = true) →
      ∃ e, exec (.cpPortRejoin q t) s = .next (s.ended e) ∧ e.portState q = 4 ∧ e.get (Reg.CP_EVENT q) Fl.CP_EVENT_IN_SERVICE = 1 ∧
        e.get (Reg.CP_SVC_CNT q) Fl.CP_SVC_CNT_PORT_REJOIN = (if s.ports[q].wasOut then
          portCounted s q (Reg.CP_SVC_CNT q) Fl.CP_SVC_CNT_PORT_REJOIN else s.get (Reg.CP_SVC_CNT q) Fl.CP_SVC_CNT_PORT_REJOIN) ∧
        ∀ tr ∈ s.transits, ∀ c ∈ tr.caps, c.port = q.val → tr.lep.isSome = true → 0 ≤ s.past tr.fn (s.spanStart tr c) →
          ∀ tr', e.transit? tr.fn tr.tid = some tr' → ∀ c' ∈ tr'.caps, c'.port = q.val → c'.barred = true) ∧
    (s.portState q = 3 → s.portFnIn q [1] = false → s.portFnIn q [2, 3] = false ∨ s.atGap q = false →
      exec (.cpPortRejoin q t) s = .next (s.ended z)) ∧
    (s.portState q = 5 → ∃ e, exec (.cpRejoinTimeout q t) s = .next (s.ended e) ∧ attemptBegun z e q (s.ports[q].attempts + 1)) ∧
    (s.allAligned q = true → ∃ e, exec (.idleErr q) s = .next (s.ended e) ∧ e.unregistered = s.unregistered ∧
      e.get (Reg.CP_CV q) Fl.CP_CV_IDLE_ERR = portCounted s q (Reg.CP_CV q) Fl.CP_CV_IDLE_ERR ∧
      (s.cpFrozen q = false → e.get (Reg.CP_EVENT q) Fl.CP_EVENT_ERR = 1) ∧ s.onlyRegs e [Reg.CP_CV q, Reg.CP_EVENT q]) ∧
    (s.allAligned q = true → ∃ e, exec (.unexpectedMessage q) s = .next (s.ended e) ∧ e.unregistered = s.unregistered ∧
      e.get (Reg.CP_PKT_ERR q) Fl.CP_PKT_ERR_UNEXPECTED = portCounted s q (Reg.CP_PKT_ERR q) Fl.CP_PKT_ERR_UNEXPECTED ∧
      (s.cpFrozen q = false → e.get (Reg.CP_EVENT q) Fl.CP_EVENT_ERR = 1) ∧ s.onlyRegs e [Reg.CP_PKT_ERR q, Reg.CP_EVENT q])

/-- R322, R323, R340, R344: the lines a port takes. A LINE message is dropped and counted with the first reason that applies, or goes whole into the FIFO; a
trigger whose time is up has its channels counted as missing, its transit degraded; the triggers queued while TX0 resettled go out LATE.
The model's own choices behind it: log entries 72 and 110. -/
def Obligations.LinesAreTaken : Prop :=
  ∀ (s : State) (q : Fin 4) (t : Nat), s.acts = true →
    let z := s.atTime t
    let was := s.ports[q].awaited
    (∀ l cv, s.inService q = true →
      let m := lineParse l
      let hit := was.find? fun a => a.trig.line == m.line && a.trig.pos == m.pos && a.trig.tid == m.tid && a.chans.contains m.ch
      ∃ e, exec (.lineMessage q l cv t) s = .next (s.ended e) ∧
        (∀ r, cv = [r] → e.get (Reg.CP_CV q) ⟨8 * r.val, 8⟩ = portCounted s q (Reg.CP_CV q) ⟨8 * r.val, 8⟩) ∧
        (m.headOk = false → e.ports = s.ports ∧
          e.get (Reg.CP_PKT_ERR q) Fl.CP_PKT_ERR_HDR_CRC = portCounted s q (Reg.CP_PKT_ERR q) Fl.CP_PKT_ERR_HDR_CRC) ∧
        (m.headOk = true → 131072 < State.fifoBytes s.ports[q].fifo + m.npix → e.ports[q].fifo = s.ports[q].fifo ∧
          e.get (Reg.CP_LINE_ERR q) Fl.CP_LINE_ERR_FIFO_DROP = portCounted s q (Reg.CP_LINE_ERR q) Fl.CP_LINE_ERR_FIFO_DROP ∧
          ∀ a, hit = some a → ∀ tr, e.transit? a.fn a.trig.tid = some tr → tr.degraded = true) ∧
        (m.headOk = true → State.fifoBytes s.ports[q].fifo + m.npix ≤ 131072 →
          (m.payOk = false → e.ports = s.ports ∧
            e.get (Reg.CP_PKT_ERR q) Fl.CP_PKT_ERR_PAY_CRC = portCounted s q (Reg.CP_PKT_ERR q) Fl.CP_PKT_ERR_PAY_CRC) ∧
          (m.payOk = true → m.npix ≠ s.portPixels q → e.ports = s.ports ∧
            e.get (Reg.CP_PKT_ERR q) Fl.CP_PKT_ERR_NPIX = portCounted s q (Reg.CP_PKT_ERR q) Fl.CP_PKT_ERR_NPIX) ∧
          (m.payOk = true → m.npix = s.portPixels q → hit = none → e.ports = s.ports ∧
            e.get (Reg.CP_PKT_ERR q) Fl.CP_PKT_ERR_UNEXPECTED = portCounted s q (Reg.CP_PKT_ERR q) Fl.CP_PKT_ERR_UNEXPECTED) ∧
          (∀ a, m.payOk = true → m.npix = s.portPixels q → hit = some a →
            e.ports[q].fifo = s.ports[q].fifo ++ [⟨a.trig.tid, a.fn, a.k, m.ch, m.pixels⟩] ∧
            e.ports[q].awaited = (was.map fun y => if y == a then { y with chans := y.chans.filter (· != m.ch) } else y).filter
              (fun y => !y.chans.isEmpty) ∧
            e.reg (Reg.CP_PKT_ERR q) = s.reg (Reg.CP_PKT_ERR q) ∧
            e.get (Reg.CP_FIFO q) Fl.CP_FIFO_LEVEL = State.fifoBytes e.ports[q].fifo % 2 ^ 18 ∧
            (s.cpFrozen q = false → e.get (Reg.CP_LINES q) Fl.CP_LINES_COUNT = (s.get (Reg.CP_LINES q) Fl.CP_LINES_COUNT + 1) % 2 ^ 32) ∧
            (m.late = true → e.get (Reg.ACQ_FN_CNT2 a.fn) Fl.ACQ_FN_CNT2_LATE_LINES =
              min (s.get (Reg.ACQ_FN_CNT2 a.fn) Fl.ACQ_FN_CNT2_LATE_LINES + 1) (2 ^ Fl.ACQ_FN_CNT2_LATE_LINES.width - 1))))) ∧
    (let limit := 500 * s.get (Reg.CP_CFG q) Fl.CP_CFG_LINE_TIMEOUT_US
     let out := was.filter fun a => decide (a.since + limit ≤ z.clk.ts)
     ∃ e, exec (.lineTimeout q t) s = .next (s.ended e) ∧ e.ports[q].awaited = was.filter (fun a => decide (z.clk.ts < a.since + limit)) ∧
       e.get (Reg.CP_LINE_ERR q) Fl.CP_LINE_ERR_MISSING = (if s.cpFrozen q then s.get (Reg.CP_LINE_ERR q) Fl.CP_LINE_ERR_MISSING else
         min (s.get (Reg.CP_LINE_ERR q) Fl.CP_LINE_ERR_MISSING + (out.map fun a => a.chans.length).sum) 0xFFFF) ∧
       ∀ a ∈ out, a.chans ≠ [] → ∀ tr, e.transit? a.fn a.trig.tid = some tr → tr.degraded = true) ∧
    (s.inService q = true → s.resettling q = true → s.laneActive (State.laneNo q 3) = true →
      ∃ e, exec (.cpTrqRelease q t) s = .next (s.ended e) ∧ e.resettling q = false ∧ e.ports[q].queue = [] ∧
        e.get (Reg.CP_TRQ q) Fl.CP_TRQ_LEVEL = 0 ∧
        e.ports[q].awaited = was ++ s.ports[q].queue.map (fun a => { a with trig := { a.trig with late := true }, since := z.clk.ts }) ∧
        (s.cpFrozen q = false →
          e.get (Reg.CP_TRQ q) Fl.CP_TRQ_LATE = min (s.get (Reg.CP_TRQ q) Fl.CP_TRQ_LATE + s.ports[q].queue.length) 0xFFFF) ∧
        (s.ports[q].queue ≠ [] → e.get (Reg.CP_EVENT q) Fl.CP_EVENT_TRQ_LATE = 1) ∧
        ∀ h, s.ports[q].hc = some h → h.sent = false → e.ports[q].hc = some { h with sent := true } ∧ e.ports[q].lastTx = hcRequest h)

/-- R325, R326, R340: head control. A request goes out with the next TAG, or is refused while one runs or the port is out of service; the valid
response with its TAG and OP ends it; it is repeated once, then times out; while TX0 resettles it waits. A HEAD_EVENT is kept.
The model's own choices behind it: log entry 116. -/
def Obligations.HeadsAreReached : Prop :=
  ∀ (s : State) (q : Fin 4), s.acts = true →
    (∀ p c w, (c, w) ∈ [(Instr.hcRead p q, false), (Instr.hcWrite p q, true)] → s.reaches p = true → s.isPark = false →
      ∃ e, exec c s = .next (s.ended e) ∧ s.onlyRegs e [Reg.CP_HC_CMD q, Reg.CP_HC_STATUS q] ∧
        (s.flag (Reg.CP_HC_STATUS q) Fl.CP_HC_STATUS_BUSY = true ∨ s.inService q = false →
          e.get (Reg.CP_HC_STATUS q) Fl.CP_HC_STATUS_RESULT = 6 ∧ e.ports = s.ports) ∧
        (s.flag (Reg.CP_HC_STATUS q) Fl.CP_HC_STATUS_BUSY = false → s.inService q = true →
          let tag := (s.get (Reg.CP_HC_STATUS q) Fl.CP_HC_STATUS_TAG + 1) % 16
          let h : HeadTxn := ⟨w, s.get (Reg.CP_HC_ADDR q) Fl.CP_HC_ADDR_ADDR, s.reg (Reg.CP_HC_WDATA q), tag, 0, !s.resettling q⟩
          e.get (Reg.CP_HC_STATUS q) Fl.CP_HC_STATUS_BUSY = 1 ∧ e.get (Reg.CP_HC_STATUS q) Fl.CP_HC_STATUS_TAG = tag ∧
          e.ports[q].hc = some h ∧ (s.resettling q = false → e.ports[q].lastTx = hcRequest h))) ∧
    (∀ l h, s.ports[q].hc = some h → ∃ e, exec (.hcRespMessage q l) s = .next (s.ended e) ∧
      (wd l 4 ≠ hcrc (l.take 4) ∨ wd l 0 % 16 ≠ h.tag ∨ h.sent = false → e = s) ∧
      (wd l 4 = hcrc (l.take 4) → wd l 0 % 16 = h.tag → h.sent = true → l.length = 5 → wd l 0 / 2 ^ 12 % 16 = 2 →
        wd l 0 / 16 % 4 = (if h.write then 2 else 1) → wd l 1 / 256 % 256 < 4 →
        e.get (Reg.CP_HC_STATUS q) Fl.CP_HC_STATUS_BUSY = 0 ∧ e.get (Reg.CP_HC_STATUS q) Fl.CP_HC_STATUS_RESULT = wd l 1 / 256 % 256 + 1 ∧
        e.get (Reg.CP_EVENT q) Fl.CP_EVENT_HC_DONE = 1 ∧ e.ports[q].hc = none ∧
        e.reg (Reg.CP_HC_RDATA q) = (if h.write then s.reg (Reg.CP_HC_RDATA q) else BitVec.ofNat 32 (wd l 2 * 2 ^ 16 + wd l 3)))) ∧
    (∀ t h, s.ports[q].hc = some h → ∃ e, exec (.hcTimeout q t) s = .next (s.ended e) ∧
      (h.sent = false → s.resettling q = true → e = s.atTime t) ∧
      (h.sent = true ∨ s.resettling q = false →
        (h.attempt = 0 → e.ports[q].hc = some { h with attempt := 1, sent := !s.resettling q } ∧
          (s.resettling q = false → e.ports[q].lastTx = hcRequest h) ∧ (s.atTime t).onlyRegs e []) ∧
        (h.attempt ≠ 0 → e.get (Reg.CP_HC_STATUS q) Fl.CP_HC_STATUS_BUSY = 0 ∧ e.get (Reg.CP_HC_STATUS q) Fl.CP_HC_STATUS_RESULT = 5 ∧
          e.get (Reg.CP_EVENT q) Fl.CP_EVENT_HC_DONE = 1 ∧ e.ports[q].hc = none))) ∧
    (∀ l, ∃ e, exec (.headEventMessage q l) s = .next (s.ended e) ∧ e.unregistered = s.unregistered ∧
      (wd l 4 ≠ hcrc (l.take 4) → e = s) ∧
      (l.length = 5 → wd l 0 / 2 ^ 12 % 16 = 3 → wd l 4 = hcrc (l.take 4) →
        e.get (Reg.CP_HEAD_EVENT q) Fl.CP_HEAD_EVENT_CODE = wd l 1 % 2 ^ 16 ∧
        e.get (Reg.CP_HEAD_EVENT q) Fl.CP_HEAD_EVENT_COUNT = portCounted s q (Reg.CP_HEAD_EVENT q) Fl.CP_HEAD_EVENT_COUNT ∧
        e.reg (Reg.CP_HEAD_DETAIL q) = BitVec.ofNat 32 (wd l 2 * 2 ^ 16 + wd l 3) ∧
        e.get (Reg.CP_EVENT q) Fl.CP_EVENT_HEAD_EVENT = 1 ∧
        s.onlyRegs e [Reg.CP_HEAD_EVENT q, Reg.CP_HEAD_DETAIL q, Reg.CP_EVENT q]))

/-! ## The cascade (chapter 17) -/

/-- Link-up of a chain has started in `y` (Table 17-2, step 1). -/
def chainStarted (z y : State) : Prop :=
  y.casState = 1 ∧ y.get Reg.CAS_STATUS Fl.CAS_STATUS_CAUSE = 0 ∧ y.casAligned = false ∧ y.cas.attempt = true ∧ y.cas.start = z.clk.ts ∧
    y.cas.lane.tx = 6 ∧ y.cas.lane.rx = (if z.cas.lane.calFail then 0 else 2) ∧ y.cas.corrValid = false ∧ y.cas.dueSamples = [] ∧
    y.cas.dueMsgs = []

/-- A loss on the cascade is declared in `y` (R499, R500, R502): the count and fault source 18. -/
def chainLost (s y : State) (st : Nat) (ev : Fld) : Prop :=
  y.casState = st ∧ y.get Reg.CAS_EVENT ev = 1 ∧ y.fcuLatched 18 = true ∧
    y.get Reg.CAS_CNT Fl.CAS_CNT_LOSS = min (s.get Reg.CAS_CNT Fl.CAS_CNT_LOSS + 1) 255

/-- R490, R492: link-up starts on RELINK while every function is STOPPED (its write is refused otherwise) and, with AUTO, 100 ms after a failure
or loss; an attempt over 50 ms old fails. The transmitter's lock and a block that names the upstream position lead to MEASURE, and a block that
names another ends the attempt.
The model's own choices behind it: log entries 95, 96 and 100. -/
def Obligations.ChainsLinkUp : Prop :=
  ∀ (s : State) (t : Nat), s.acts = true →
    let z := s.atTime t
    (∀ p val, s.reaches p = true → s.isPark = false → s.allStopped = true → getF val Fl.CAS_CTRL_RELINK = 1 → 2 ≤ s.casLen →
      ∃ e, exec (.casRelink p val) s = .next (s.ended e) ∧ chainStarted s e ∧ s.onlyRegs e [Reg.CAS_CTRL, Reg.CAS_STATUS]) ∧
    (∀ p val, s.reaches p = true → s.isPark = false → s.allStopped = false →
      ∃ e, exec (.casRelink p val) s = .next (s.ended e) ∧ e.get Reg.CAS_CTRL Fl.CAS_CTRL_AUTO = getF val Fl.CAS_CTRL_AUTO ∧
        e.casState = s.casState ∧ e.cas = s.cas) ∧
    (∀ p val, s.reaches p = true → s.isPark = false → s.allStopped = true → s.casLen ≤ 1 →
      ∃ e, exec (.casRelink p val) s = .next (s.ended e) ∧ e.unregistered = s.unregistered ∧ s.onlyRegs e [Reg.CAS_CTRL]) ∧
    (s.casState = 4 → s.flag Reg.CAS_CTRL Fl.CAS_CTRL_AUTO = true → s.cas.failed + 50000000 ≤ z.clk.ts → 2 ≤ s.casLen →
      ∃ e, exec (.casRelinkTimer t) s = .next (s.ended e) ∧ chainStarted z e ∧ z.onlyRegs e [Reg.CAS_STATUS]) ∧
    (s.casState ≠ 4 ∨ s.flag Reg.CAS_CTRL Fl.CAS_CTRL_AUTO = false ∨ z.clk.ts < s.cas.failed + 50000000 →
      exec (.casRelinkTimer t) s = .next (s.ended z)) ∧
    (s.cas.attempt = true → s.cas.start + 25000000 ≤ z.clk.ts → ∃ e, exec (.casLinkupTimeout t) s = .next (s.ended e) ∧ e.casState = 4 ∧
      e.get Reg.CAS_STATUS Fl.CAS_STATUS_CAUSE = 6 ∧ e.get Reg.CAS_EVENT Fl.CAS_EVENT_LINK_FAIL = 1 ∧ e.cas.attempt = false ∧
      e.cas.failed = z.clk.ts ∧ z.onlyRegs e [Reg.CAS_STATUS, Reg.CAS_EVENT]) ∧
    (s.cas.lane.tx = 6 → ∃ e, exec (.lnSynLock (Fin.last 16) t) s = .next (s.ended e) ∧ e.cas.lane.tx = 3 ∧
      e.casState = (if s.casState = 1 ∧ s.cas.lane.rx = 3 ∧ s.cas.lane.comma = true then 2 else s.casState)) ∧
    (∀ r st prec laneId skew, s.cas.lane.rx = 3 → ∃ e, exec (.trainingBlock (Fin.last 4) r st prec laneId skew true) s = .next (s.ended e) ∧
      (laneId = (s.casPos + s.casLen - 1) % s.casLen → e.cas.lane.comma = true ∧
        e.casState = (if s.casState = 1 ∧ s.cas.lane.tx = 3 then 2 else s.casState)) ∧
      (laneId ≠ (s.casPos + s.casLen - 1) % s.casLen → s.cas.attempt = true → e.casState = 4 ∧
        e.get Reg.CAS_STATUS Fl.CAS_STATUS_CAUSE = 3 ∧ e.get Reg.CAS_EVENT Fl.CAS_EVENT_LINK_FAIL = 1))

/-- R488, R489, R491, R493, R497, R499: a follower. A good frame ends the run of bad ones, aligns a follower that is not, and schedules its
samples and messages; the eighth bad one in a row in UP is an input loss; it forwards both with its own status word. A due sample becomes the
replica of its channel and may raise the high-water mark; a due message is applied once, and a gap in the numbers degrades.
The model's own choices behind it: log entries 94, 98, 99 and 101. -/
def Obligations.FollowersTakeFrames : Prop :=
  ∀ (s : State) (t : Nat), s.acts = true →
    let z := s.atTime t
    (∀ l rp, s.casPos ≠ 0 → 2 ≤ s.casLen → s.casState = 2 ∨ s.casState = 3 →
      let f := if s.cas.lane.comma && s.cas.lane.rx == 3 then l else []
      let corrValid := (frameWord f 0).testBit 11
      ∃ e, exec (.casFrameReceived l rp t) s = .next (s.ended e) ∧
        (f ≠ [] → e.get Reg.CAS_RP Fl.CAS_RP_RP = rp % 2 ^ 13) ∧
        (casGood f = true → e.cas.badRun = 0 ∧ e.cas.lastOut = e.casForward f true corrValid ∧
          (∀ c, c < 4 → (e.get Reg.CAS_STATUS Fl.CAS_STATUS_VALID).testBit c = (State.casSamples f).any fun x => x.1 == c) ∧
          (corrValid = false ∨ s.casAligned = true → e.casState = s.casState ∧ e.casAligned = s.casAligned ∧ e.clk = z.clk ∧
            e.cas.replica = s.cas.replica) ∧
          (corrValid = true → s.casAligned = false →
            let corr := frameWord f (39 + s.casPos)
            let want := ((frameNat f 1 4 : Int) + (corr * 125 + 2 * signed 32 (s.reg Reg.CAS_TRIM).toNat + 2000).fdiv 4000).toNat
            e.casState = 3 ∧ e.casAligned = true ∧ e.get Reg.CAS_EVENT Fl.CAS_EVENT_LINK_UP = 1 ∧
            e.get Reg.CAS_CORR Fl.CAS_CORR_CORR = corr % 2 ^ 16 ∧
            (z.clk.ts ≤ want → e.clk.ts = want ∧ e.get Reg.CAS_TS_AHEAD Fl.CAS_TS_AHEAD_CYCLES = 0) ∧
            (want < z.clk.ts → e.clk.ts = z.clk.ts ∧ e.get Reg.CAS_TS_AHEAD Fl.CAS_TS_AHEAD_CYCLES = (z.clk.ts - want) % 2 ^ 16 ∧
              e.get Reg.CAS_EVENT Fl.CAS_EVENT_TS_AHEAD = 1) ∧
            ∀ (c : Fin 4) v, (c.val, v) ∈ State.casSamples f → e.cas.replica[c] = v ∧ e.cas.hwm[c] = v) ∧
          (e.casState = 3 →
            let base := 600 + e.get Reg.CAS_TS_AHEAD Fl.CAS_TS_AHEAD_CYCLES
            e.cas.dueSamples = s.cas.dueSamples ++
              ((State.casSamples f).map fun x => (frameNat f 1 4 - 20 * ((4 - x.1) % 4) + base, x.1, x.2)) ∧
            e.cas.dueMsgs = s.cas.dueMsgs ++ ((State.casMessages f).map fun m => (frameNat f 1 4 + base, m)))) ∧
        (casGood f = false → e.get Reg.CAS_CNT Fl.CAS_CNT_BAD = min (s.get Reg.CAS_CNT Fl.CAS_CNT_BAD + 1) 0xFFFF ∧
          (s.casState = 3 → 7 ≤ s.cas.badRun → chainLost s e 4 Fl.CAS_EVENT_INPUT_LOSS ∧ e.casAligned = false ∧ e.cas.dueSamples = [] ∧
            e.cas.dueMsgs = [] ∧ e.cas.failed = z.clk.ts) ∧
          (s.casState = 2 ∨ s.cas.badRun < 7 → e.casState = s.casState ∧ e.cas.badRun = s.cas.badRun + 1 ∧
            e.cas.lastOut = e.casForward f false corrValid))) ∧
    (∀ (c : Fin 4) x, s.casState = 3 → s.cas.dueSamples.find? (fun x => x.2.1 == c.val) = some x → x.1 ≤ z.clk.ts →
      exec (.casSampleApply c t) s = .next (s.ended (State.positionChecks { z with
        cas :=
          { z.cas with
            dueSamples := z.cas.dueSamples.erase x
            replica := z.cas.replica.set c x.2.2
            hwm := if 0 < sdiff 40 x.2.2 z.cas.hwm[c] then z.cas.hwm.set c x.2.2 else z.cas.hwm } }))) ∧
    (∀ (c : Fin 4) x, s.cas.dueSamples.find? (fun x => x.2.1 == c.val) = some x → s.casState ≠ 3 ∨ z.clk.ts < x.1 →
      exec (.casSampleApply c t) s = .next (s.ended z)) ∧
    (∀ d m rest, s.casState = 3 → s.cas.dueMsgs = (d, m) :: rest → d ≤ z.clk.ts →
      (m.mseq ∈ s.cas.applied → exec (.casMessageApply t) s = .next (s.ended { z with cas := { z.cas with dueMsgs := rest } })) ∧
      (m.mseq ∉ s.cas.applied → ∃ y : State,
        exec (.casMessageApply t) s = .next (s.ended (if m.kind = 1 then y.casOpen m else y.casTep m)) ∧ y.cas.dueMsgs = rest ∧
        y.cas.applied = (m.mseq :: s.cas.applied).take 2 ∧
        (∀ a r, s.cas.applied = a :: r → m.mseq ≠ (a + 1) % 256 → y.get Reg.CAS_EVENT Fl.CAS_EVENT_MSG_LOSS = 1 ∧
          y.get Reg.CAS_CNT Fl.CAS_CNT_MSG_LOSS = min (s.get Reg.CAS_CNT Fl.CAS_CNT_MSG_LOSS + 1) 255 ∧
          ∀ tr ∈ s.transits, ∀ tr', y.transit? tr.fn tr.tid = some tr' → tr'.degraded = true) ∧
        ((∀ a r, s.cas.applied = a :: r → m.mseq = (a + 1) % 256) → y.regs = z.regs ∧ y.transits = s.transits) ∧
        (m.kind = 1 → s.fnDefined m.fn = true → s.fnTrigger m.fn ≠ m.chan →
          (y.casOpen m).get Reg.CAS_EVENT Fl.CAS_EVENT_FN_MISMATCH = 1 ∧ (y.casOpen m).transits = y.transits)))

/-- R490, R492, R495, R500: the lead. A good frame that returns shows RP, the ring latency and the followers' words. While it measures, 64 of
them in a row give CORR, and the chain is UP once every follower is ALIGNED; in UP a drift is flagged, and eight frames bad, or lacking a word,
in a row are a return loss.
The model's own choices behind it: log entry 97. -/
def Obligations.LeadTakesReturns : Prop :=
  ∀ (s : State) (t : Nat) (l : List Nat) (ring rp0 : Nat), s.acts = true → s.casPos = 0 → 2 ≤ s.casLen →
    let f := if s.cas.lane.comma && s.cas.lane.rx == 3 then l else []
    let ws := s.casWords f
    let first := !(frameWord f 0).testBit 11
    (s.casState = 2 ∨ s.casState = 3 → casGood f = true → ∃ e, exec (.casFrameReturned l ring rp0 t) s = .next (s.ended e) ∧
      e.get Reg.CAS_RP Fl.CAS_RP_RP = rp0 % 2 ^ 13 ∧ e.get Reg.CAS_RING Fl.CAS_RING_NOW = ring % 2 ^ 16 ∧
      (∀ k, k + 1 < s.casLen →
        ((frameWord f (37 + k)).testBit 15 = true → e.reg (Reg.CAS_F_STATUS k) = BitVec.ofNat 32 (2 ^ 31 + frameWord f (37 + k))) ∧
        ((frameWord f (37 + k)).testBit 15 = false → e.get (Reg.CAS_F_STATUS k) Fl.CAS_F_STATUS_PRESENT = 0)) ∧
      (s.casState = 3 → (512 < ((64 * ring : Nat) - (s.cas.ringSum : Int)).natAbs → e.get Reg.CAS_EVENT Fl.CAS_EVENT_DRIFT = 1) ∧
        (ws.all (·.testBit 15) = true → e.casState = 3 ∧ e.cas.missRun = 0) ∧
        (ws.all (·.testBit 15) = false → s.cas.missRun < 7 → e.casState = 3 ∧ e.cas.missRun = s.cas.missRun + 1) ∧
        (ws.all (·.testBit 15) = false → 7 ≤ s.cas.missRun → chainLost s e 2 Fl.CAS_EVENT_RETURN_LOSS)) ∧
      (s.casState = 2 → first = true → ws.any (fun w => w.testBit 15 && w / 2 ^ 13 % 4 + 1 != s.casLen) = true → s.cas.attempt = true →
        e.casState = 4 ∧ e.get Reg.CAS_STATUS Fl.CAS_STATUS_CAUSE = 4 ∧ e.get Reg.CAS_EVENT Fl.CAS_EVENT_LINK_FAIL = 1) ∧
      (s.casState = 2 → first = false ∨ ws.any (fun w => w.testBit 15 && w / 2 ^ 13 % 4 + 1 != s.casLen) = false →
        (s.cas.goodRun < 64 → ws.all (·.testBit 15) = false → e.casState = 2 ∧ e.cas.goodRun = 0 ∧ e.cas.ringSum = 0) ∧
        (s.cas.goodRun < 63 → ws.all (·.testBit 15) = true → e.casState = 2 ∧ e.cas.goodRun = s.cas.goodRun + 1 ∧
          e.cas.ringSum = s.cas.ringSum + ring) ∧
        (s.cas.goodRun = 63 → ws.all (·.testBit 15) = true → e.cas.ringSum = s.cas.ringSum + ring ∧
          let corr := casCorr s.casLen e.cas.ringSum rp0 e.cas.rps.toList
          (corr (s.casLen - 1) + 2560 ≤ 14400 → e.casState = 2 ∧ e.cas.corrValid = true ∧ e.cas.goodRun = 64 ∧
            ∀ k, k + 1 < s.casLen → e.get (Reg.CAS_F_CORR k) Fl.CAS_F_CORR_CORR = corr (k + 1) % 2 ^ 16) ∧
          (14400 < corr (s.casLen - 1) + 2560 → s.cas.attempt = true → e.casState = 4 ∧
            e.get Reg.CAS_STATUS Fl.CAS_STATUS_CAUSE = 5 ∧ e.get Reg.CAS_EVENT Fl.CAS_EVENT_LINK_FAIL = 1)) ∧
        (64 ≤ s.cas.goodRun → first = false → ws.all (fun w => w.testBit 15) = true → ws.all (fun w => w.testBit 14) = true →
          e.casState = 3 ∧ e.get Reg.CAS_EVENT Fl.CAS_EVENT_LINK_UP = 1 ∧ e.cas.attempt = false))) ∧
    (s.casState = 2 ∨ s.casState = 3 → casGood f = false → ∃ e, exec (.casFrameReturned l ring rp0 t) s = .next (s.ended e) ∧
      e.get Reg.CAS_CNT Fl.CAS_CNT_BAD = min (s.get Reg.CAS_CNT Fl.CAS_CNT_BAD + 1) 0xFFFF ∧
      (s.casState = 3 → 7 ≤ s.cas.badRun → chainLost s e 2 Fl.CAS_EVENT_RETURN_LOSS) ∧
      (s.casState = 3 → s.cas.badRun < 7 → e.casState = 3 ∧ e.cas.badRun = s.cas.badRun + 1) ∧
      (s.casState = 2 → s.cas.goodRun < 64 → e.casState = 2 ∧ e.cas.goodRun = 0 ∧ e.cas.ringSum = 0))

/-! ## Delivery (chapter 14) -/

/-- Where an object of `need` window bytes finds space in a ring (R418). -/
def spaceIn (s : State) (r need : Nat) : Option Nat :=
  if (s.alloc r + 2 ^ 32 - s.cons r) % 2 ^ 32 < s.descSize r then
    windowRoom (s.windowSize r) (s.get (Reg.DLV_WIN_WP r) Fl.DLV_WIN_WP_OFFSET) need ((s.ring r).placed.head?.map (·.off))
  else none

/-- An object has been dropped in `y` (R425): it leaves the queue, its ring counts it and remembers it, and nothing is written for it. -/
def objectDropped (z y : State) (o : DlvObj) (evs : List Fld) : Prop :=
  y.dlv.queue = z.dlv.queue.erase o ∧ y.dlv.held = none ∧ y.hostMem = z.hostMem ∧ (y.ring o.ring).drops = true ∧
    y.get (Reg.DLV_CNT_DROP o.ring) Fl.DLV_CNT_DROP_COUNT = min (z.get (Reg.DLV_CNT_DROP o.ring) Fl.DLV_CNT_DROP_COUNT + 1) (2 ^ 32 - 1) ∧
    (∀ f ∈ evs, y.get (Reg.DLV_EVENT o.ring) f = 1) ∧
    z.onlyRegs y [Reg.DLV_CNT_DROP o.ring, Reg.DLV_EVENT o.ring, Reg.DLV_STATUS o.ring]

/-- R125, R417 to R419, R423, R425 to R427: the object at delivery's input. It is discarded while the host is lost or its ring is disabled;
dropped when too big, when its hold entry is missing, or without space in DROP mode; it holds the input without space in BACKPRESSURE mode;
else it is written, and published with its tag and descriptor unless it, or one before it, is held. A ring held for BP_LIMIT_US drops it.
The model's own choices behind it: log entries 67, 68 and 103. -/
def Obligations.ObjectsAreDelivered : Prop :=
  ∀ (s : State) (t r : Nat) (o : DlvObj), s.acts = true → r < 128 → o.ring = r →
    s.dlv.queue.find? (fun o => o.ring == r) = some o →
    let z := s.atTime t
    let len := 64 + o.payload.length
    let need := windowBytes len
    let gated := s.ringGated r && o.image && match s.transit? o.fn o.tid with | some x => !x.decided | none => false
    let full := gated && (decide (2048 ≤ s.get Reg.DLV_POOL Fl.DLV_POOL_USED) ||
      decide (s.get (Reg.DLV_HOLD r) Fl.DLV_HOLD_MAX ≤ s.heldCount r))
    (s.parked = false → s.nextRing = some r → ∃ e, exec (.dlvObjectDeliver t []) s = .next (s.ended e) ∧
      (s.flag Reg.PCX_HOSTLOSS Fl.PCX_HOSTLOSS_ACTIVE = true → e.dlv.queue = s.dlv.queue.erase o ∧ e.hostMem = s.hostMem ∧
        e.get Reg.PCX_HOSTLOSS Fl.PCX_HOSTLOSS_DISCARDED =
          min (s.get Reg.PCX_HOSTLOSS Fl.PCX_HOSTLOSS_DISCARDED + 1) (2 ^ Fl.PCX_HOSTLOSS_DISCARDED.width - 1) ∧
        z.onlyRegs e [Reg.PCX_HOSTLOSS]) ∧
      (s.flag Reg.PCX_HOSTLOSS Fl.PCX_HOSTLOSS_ACTIVE = false →
        (s.ringEnabled r = false → e.dlv.queue = s.dlv.queue.erase o ∧ e.hostMem = s.hostMem ∧ z.onlyRegs e []) ∧
        (s.ringEnabled r = true → s.windowSize r < need → objectDropped z e o [Fl.DLV_EVENT_TOO_BIG]) ∧
        (s.ringEnabled r = true → need ≤ s.windowSize r → full = true → objectDropped z e o [Fl.DLV_EVENT_HOLD_FULL]) ∧
        (s.ringEnabled r = true → need ≤ s.windowSize r → full = false → spaceIn s r need = none →
          (s.flag (Reg.DLV_CTRL r) Fl.DLV_CTRL_MODE = true → s.flag (Reg.DLV_STATUS r) Fl.DLV_STATUS_BP_SUSPENDED = false →
            e = { z with dlv := { z.dlv with lastRing := r, held := some (r, match s.dlv.held with | some h => h.2 | none => z.clk.ts) } }) ∧
          (s.flag (Reg.DLV_CTRL r) Fl.DLV_CTRL_MODE = false ∨ s.flag (Reg.DLV_STATUS r) Fl.DLV_STATUS_BP_SUSPENDED = true →
            objectDropped z e o [Fl.DLV_EVENT_DROP])) ∧
        (∀ off, s.ringEnabled r = true → need ≤ s.windowSize r → full = false → spaceIn s r need = some off →
          e.dlv.queue = s.dlv.queue.erase o ∧ e.alloc r = (s.alloc r + 1) % 2 ^ 32 ∧
          e.get (Reg.DLV_WIN_WP r) Fl.DLV_WIN_WP_OFFSET = (off + need) % 2 ^ 30 ∧
          e.pair (Reg.DLV_BYTES_LO r) (Reg.DLV_BYTES_HI r) = (s.pair (Reg.DLV_BYTES_LO r) (Reg.DLV_BYTES_HI r) + need) % 2 ^ 64 ∧
          e.flag (Reg.DLV_STATUS r) Fl.DLV_STATUS_BP_SUSPENDED = false ∧
          -- held, or held back behind a held object
          ((gated = true ∧ ∀ x, (s.ring r).placed.find? (fun x => x.obj.isSome) = some x → x.held = true) ∨
              (∃ x, (s.ring r).placed.find? (fun x => x.obj.isSome) = some x ∧ x.held = true) →
            e.prod r = s.prod r ∧ (e.ring r).placed = (s.ring r).placed ++ [⟨0, off, len, off + need, some o, gated, false⟩] ∧
            ∀ i, i < o.payload.length → cellsGet? e.hostMem (s.winBase r + off + 64 + i) = o.payload[i]?) ∧
          -- published at once
          (gated = false → (s.ring r).placed.find? (fun x => x.obj.isSome) = none →
            let d := s.descBase r + 32 * (s.prod r % s.descSize r)
            e.prod r = (s.prod r + 1) % 2 ^ 32 ∧
            e.get (Reg.DLV_CNT_OBJ r) Fl.DLV_CNT_OBJ_COUNT = (s.get (Reg.DLV_CNT_OBJ r) Fl.DLV_CNT_OBJ_COUNT + 1) % 2 ^ 32 ∧
            (e.ring r).drops = false ∧
            (∀ i, i < 32 → cellsGet? e.hostMem (d + i) =
              (descriptorBytes off len o.tid ((if o.image then 1 else 2) + 4 * ofBool (s.ring r).drops) (off + need) z.ts64 (s.prod r)
                (s.descSize r))[i]?) ∧
            (d + 32 ≤ s.winBase r + off ∨ s.winBase r + off + len ≤ d →
              (∀ i, i < o.payload.length → cellsGet? e.hostMem (s.winBase r + off + 64 + i) = o.payload[i]?) ∧
              ∀ tr pos, s.anyTransit? o.fn o.tid = some tr → o.image = true → o.pos = some pos → ∀ i, i < 64 →
                cellsGet? e.hostMem (s.winBase r + off + i) =
                  (s.tagBytes tr o ((s.ring r).dropTids.contains (transitKey o)) (State.countFor (s.ring r).objCount (transitKey o)) pos)[i]?))))) ∧
    (∀ (r' : Fin 128) since, r'.val = r → s.dlv.held = some (r, since) →
      since + 500 * s.get (Reg.DLV_BP_LIMIT r) Fl.DLV_BP_LIMIT_US ≤ z.clk.ts → ∃ e, exec (.dlvBpTimeout r' t) s = .next (s.ended e) ∧
      objectDropped z e o [Fl.DLV_EVENT_DROP, Fl.DLV_EVENT_BP_TIMEOUT] ∧ e.flag (Reg.DLV_STATUS r) Fl.DLV_STATUS_BP_SUSPENDED = true) ∧
    (∀ r' : Fin 128, r'.val = r → (∀ since, s.dlv.held = some (r, since) → z.clk.ts < since + 500 * s.get (Reg.DLV_BP_LIMIT r) Fl.DLV_BP_LIMIT_US) →
      exec (.dlvBpTimeout r' t) s = .next (s.ended z))

/-- R418, R429, R431: a ring's indexes and its enable. CONS moves up to PROD and gives space back, and no further; ENABLE resets the indexes if
the window size is valid, and its clearing discards what is held; the moderation timer fires the completion vector.
The model's own choices behind it: log entry 37. -/
def Obligations.RingsAreDriven : Prop :=
  ∀ (s : State) (p : Path) (r : Fin 128) (val : Word) (t : Nat), s.acts = true →
    let since := fun a => (a + 2 ^ 32 - s.cons r) % 2 ^ 32
    (s.reaches p = true → s.isPark = false →
      ∃ e, exec (.dlvConsWrite p r val) s = .next (s.ended e) ∧ s.onlyRegs e [Reg.DLV_CONS r, Reg.DLV_EVENT r] ∧
        (since val.toNat ≤ since (s.prod r) → e.reg (Reg.DLV_CONS r) = val ∧ e.reg (Reg.DLV_EVENT r) = s.reg (Reg.DLV_EVENT r) ∧
          (e.ring r).placed = (s.ring r).placed.filter fun y => y.obj.isSome || decide (since val.toNat ≤ since y.index)) ∧
        (since (s.prod r) < since val.toNat → e.reg (Reg.DLV_CONS r) = s.reg (Reg.DLV_CONS r) ∧
          e.get (Reg.DLV_EVENT r) Fl.DLV_EVENT_CONS_ERR = 1 ∧ e.dlv = s.dlv)) ∧
    (s.reaches p = true → s.isPark = false → s.refuses (s.busOwners (Reg.DLV_CTRL r)) .rws = false →
      s.get (Reg.DLV_CTRL r) Fl.DLV_CTRL_ENABLE = 0 → getF val Fl.DLV_CTRL_ENABLE = 1 →
      ∃ e, exec (.dlvEnable p r val) s = .next (s.ended e) ∧
        (State.windowValid (s.get (Reg.DLV_WIN_SIZE r) Fl.DLV_WIN_SIZE_KIB) = true → e.ringEnabled r = true ∧
          e.get (Reg.DLV_CTRL r) Fl.DLV_CTRL_ENABLE = 1 ∧ e.alloc r = 0 ∧ e.prod r = 0 ∧ e.cons r = 0 ∧
          e.reg (Reg.DLV_WIN_WP r) = 0 ∧ e.flag (Reg.DLV_STATUS r) Fl.DLV_STATUS_BP_SUSPENDED = false ∧ e.ring r = ringReset ∧
          e.get (Reg.DLV_HOLD r) Fl.DLV_HOLD_HELD = 0 ∧ ∀ k : Fin 128, k ≠ r → e.ring k = s.ring k) ∧
        (State.windowValid (s.get (Reg.DLV_WIN_SIZE r) Fl.DLV_WIN_SIZE_KIB) = false → e.get (Reg.DLV_EVENT r) Fl.DLV_EVENT_CONFIG = 1 ∧
          e.dlv = s.dlv ∧ s.onlyRegs e [Reg.DLV_EVENT r])) ∧
    (s.reaches p = true → s.isPark = false → s.refuses (s.busOwners (Reg.DLV_CTRL r)) .rws = false →
      s.get (Reg.DLV_CTRL r) Fl.DLV_CTRL_ENABLE = 1 → getF val Fl.DLV_CTRL_ENABLE = 0 →
      ∃ e, exec (.dlvDisable p r val) s = .next (s.ended e) ∧ e.ringEnabled r = false ∧ e.get (Reg.DLV_CTRL r) Fl.DLV_CTRL_ENABLE = 0 ∧
        e.dlv.queue = s.dlv.queue.filter (fun o => o.ring != r.val) ∧ ∀ x ∈ (e.ring r).placed, x.held = false) ∧
    (let us := s.get (Reg.DLV_IRQ r) Fl.DLV_IRQ_TIME_US
     let z := s.atTime t
     ((s.ring r).u ≠ 0 → us ≠ 0 → (s.ring r).uSince + 500 * us ≤ z.clk.ts →
       exec (.dlvIrqTimer r t) s = .next (s.ended ((z.setRing r { s.ring r with u := 0 }).fireVector (8 + 2 * r.val)))) ∧
     ((s.ring r).u = 0 ∨ us = 0 ∨ z.clk.ts < (s.ring r).uSince + 500 * us → exec (.dlvIrqTimer r t) s = .next (s.ended z)))

/-! ## Events (chapter 14) -/

/-- The message of vector `v` (R435). -/
def vectorMessage (s : State) (v : Nat) : MsixMsg :=
  ⟨v, (s.msixWord (16 * v)).toNat + 2 ^ 32 * (s.msixWord (16 * v + 4)).toNat, s.msixWord (16 * v + 8)⟩

/-- R442 stands whole: source 96 is asserted while an assigned source is latched whose reaction is INT or BLOCK, and fires as it becomes
asserted; the latched sources are what a read of FCU_STATUS returns. With it R433 to R435: a source that becomes asserted fires the vector its
enabled map entry names; an entry enabled while its source is asserted fires; a vector is pending, held in the pending-bit array, or sent; and
clearing a mask sends what was pending, in ascending order.
The model's own choices behind it: log entries 31, 35 and 106. -/
def Obligations.EventsFireVectors : Prop :=
  ∀ (s : State),
    (s.srcAsserted 96 = true ↔ ∃ i ∈ State.fcuAssigned, s.fcuLatched i = true ∧ (s.reaction i = 0 ∨ s.reaction i = 2)) ∧
    ((s.shown Reg.FCU_STATUS_LO).toNat + 2 ^ 32 * (s.shown Reg.FCU_STATUS_HI).toNat = s.fcuStatus) ∧
    (∀ (e : State) n v, n < 256 → s.srcAsserted n = false → e.srcAsserted n = true → e.srcVector n = some v → v ∈ State.risen s e) ∧
    (∀ e : State, (∃ l : List Nat, (s.ended e).sent = (l.foldl State.fireVector e.settle).sent ∧
      (∀ v, v ∈ l ↔ v ∈ State.risen s e.settle) ∧ l.Nodup)) ∧
    (∀ p (src : Fin 256) val, s.reaches p = true → s.isPark = false →
      let v := if getF val Fl.EVT_MAP_VECTOR ≤ 263 then getF val Fl.EVT_MAP_VECTOR else 0
      ∃ y : State, y.unregistered = s.unregistered ∧ s.onlyRegs y [Reg.EVT_MAP src] ∧ y.get (Reg.EVT_MAP src) Fl.EVT_MAP_VECTOR = v ∧
        y.get (Reg.EVT_MAP src) Fl.EVT_MAP_ENABLE = getF val Fl.EVT_MAP_ENABLE ∧
        exec (.evtMapWrite p src val) s = .next (s.ended
          (if s.get (Reg.EVT_MAP src) Fl.EVT_MAP_ENABLE = 0 ∧ getF val Fl.EVT_MAP_ENABLE = 1 ∧ s.srcAsserted src = true ∧ v ≠ 0
            then y.fireVector v else y))) ∧
    (∀ p (k : Fin 9) val, s.reaches p = true → s.isPark = false →
      ∃ y : State, y.unregistered = s.unregistered ∧ s.onlyRegs y [Reg.EVT_VMASK k] ∧
        y.reg (Reg.EVT_VMASK k) = (if k.val = 0 then val &&& 0xFFFFFFFE else if k.val = 8 then val &&& 0xFF else val) ∧
        exec (.evtVmaskWrite p k val) s = .next (s.ended y.flushVectors)) ∧
    (∀ v, v ≤ 263 →
      let pends := fun (y : State) => y.bit (Reg.EVT_VPEND (v / 32)) Fl.EVT_VPEND_PEND (v % 32)
      let y := s.fireVector v
      (s.vmasked v = true ∨ s.vectorSendable v = false → pends y = true ∧ y.sent = s.sent ∧ y.pcie = s.pcie) ∧
      (s.vmasked v = false → s.vectorSendable v = true →
        (s.pcie.functionMask = true ∨ s.entryMasked v = true → v ∈ y.pcie.pba ∧ y.sent = s.sent ∧ y.regs = s.regs) ∧
        (s.pcie.functionMask = false → s.entryMasked v = false → y = { s with sent := s.sent ++ [vectorMessage s v] }))) ∧
    (let go := (List.range 264).filter fun v =>
      s.bit (Reg.EVT_VPEND (v / 32)) Fl.EVT_VPEND_PEND (v % 32) && !s.vmasked v && s.vectorSendable v
     s.pcie.functionMask = false → (∀ v ∈ go, s.entryMasked v = false) → s.flushVectors.sent = s.sent ++ go.map (vectorMessage s) ∧
       ∀ v ∈ go, s.flushVectors.bit (Reg.EVT_VPEND (v / 32)) Fl.EVT_VPEND_PEND (v % 32) = false)

/-! ## Fault collection (chapter 15) -/

/-- R440, R441, R443, R444, R449 to R452: the fault collector. A clear takes the written bits but those of level sources still asserted; an
injected source is latched, counted and first recorded, asserts the trap, or begins a chip reset; the collector's own faults and the keyed
command enter the safe state with their cause; debug halt holds the scheduler; a block reset ends after its time.
The model's own choices behind it: log entries 112 and 124. -/
def Obligations.FaultsAreCollected : Prop :=
  ∀ (s : State),
    (∀ p val, s.reaches p = true → s.answersAt Reg.FCU_STATUS_HI = true → ∃ e, exec (.fcuStatusClear p val) s = .next (s.ended e) ∧
      let mask := ((s.pathOf p).shadow.getD 0).toNat + 2 ^ 32 * val.toNat
      (∀ i, e.fcuLatched i = (s.fcuLatched i && (!mask.testBit i || s.fcuRaw i))) ∧ (e.pathOf p).shadow = none ∧
      (e.fcuStatus = 0 → e.get Reg.FCU_FIRST Fl.FCU_FIRST_VALID = 0) ∧ (e.fcuStatus ≠ 0 → e.reg Reg.FCU_FIRST = s.reg Reg.FCU_FIRST) ∧
      s.onlyRegs e (Reg.FCU_STATUS_LO :: Reg.FCU_STATUS_HI :: Reg.FCU_FIRST :: (List.range 9).map fun k => Reg.EVT_VPEND k)) ∧
    (∀ p val, s.reaches p = true → s.answersAt Reg.FCU_SAFE_CMD = true → ∃ e, exec (.fcuSafeCmd p val) s = .next (s.ended e) ∧
      (val = 0x5AFE2640 → e.isSafe = true ∧ (s.isSafe = false → e.pw.safeCause = 5) ∧ (s.isSafe = true → e.pw = s.pw)) ∧
      (val ≠ 0x5AFE2640 → e.isSafe = s.isSafe ∧ e.pw = s.pw ∧
        (p = .pcie → e.get Reg.PCX_AEL_COUNT Fl.PCX_AEL_COUNT_EVENT = 1) ∧ (p = .spi → e.get Reg.SSP_AEL_COUNT Fl.SSP_AEL_COUNT_EVENT = 1))) ∧
    (∀ p c v, (c, v) ∈ [(Instr.fcuDebugHalt p, 1), (Instr.fcuDebugResume p, 0)] → s.reaches p = true → s.answersAt Reg.FCU_DEBUG = true →
      ∃ e, exec c s = .next (s.ended e) ∧ e.get Reg.FCU_DEBUG Fl.FCU_DEBUG_HALT = v ∧ e.unregistered = s.unregistered ∧
        s.onlyRegs e [Reg.FCU_DEBUG]) ∧
    (∀ u t, s.get Reg.FCU_DEBUG Fl.FCU_DEBUG_HALT = 1 → exec (.jobDispatch u t) s = .next (s.ended (s.atTime t))) ∧
    (∀ p val, s.reaches p = true → s.calm = true → s.answersAt Reg.FCU_INJECT = true → getF val Fl.FCU_INJECT_GO = 1 →
      getF val Fl.FCU_INJECT_INTEGRITY = 0 →
      let src := getF val Fl.FCU_INJECT_SOURCE
      ∃ e, exec (.fcuInjectGo p val) s = .next (s.ended e) ∧
        (src ∉ State.fcuAssigned → e.unregistered = s.unregistered ∧
          s.onlyRegs e (Reg.FCU_INJECT :: [0, 4, 8, 12, 16].map fun d => State.aelBase p + d)) ∧
        (src ∈ State.fcuAssigned → e.fcuLatched src = true ∧ (∀ i, i ≠ src → e.fcuLatched i = s.fcuLatched i) ∧
          e.get (Reg.FCU_CNT src) Fl.FCU_CNT_COUNT = min (s.get (Reg.FCU_CNT src) Fl.FCU_CNT_COUNT + 1) 255 ∧
          (s.reaction src = 1 → e.trapAsserted = true) ∧ (s.flag (Reg.FCU_REACT src) Fl.FCU_REACT_ERR = true → e.errAsserted = true) ∧
          (s.fcuStatus = 0 → e.reg Reg.FCU_FIRST = BitVec.ofNat 32 (src + 2 ^ 31) ∧
            e.pair Reg.FCU_FIRST_TS_LO Reg.FCU_FIRST_TS_HI = s.ts64) ∧
          (s.fcuLatched src = true → e.react = []) ∧ (s.fcuLatched src = false → e.react = [src]) ∧
          (s.fcuLatched src = false → s.reaction src = 3 → (s.ended e).pw.held = true ∧ (s.ended e).pw.level1 = false ∧
            (s.ended e).get Reg.SYS_RESET_CAUSE Fl.SYS_RESET_CAUSE_CAUSE = 0x10 ∧
            (s.ended e).get Reg.SYS_RESET_CAUSE Fl.SYS_RESET_CAUSE_FCU_SRC = src))) ∧
    (∀ p val, s.reaches p = true → s.answersAt Reg.FCU_INJECT = true → s.refuses (s.busOwners Reg.FCU_INJECT) .rwg = false →
      getF val Fl.FCU_INJECT_GO = 0 → getF val Fl.FCU_INJECT_INTEGRITY = 1 → s.upsets = [] → s.isSafe = false →
      s.get Reg.FCU_INTEGRITY Fl.FCU_INTEGRITY_OK = 1 → ∃ e, exec (.fcuInjectIntegrity p val) s = .next (s.ended e) ∧ e.isSafe = true ∧
        e.pw.safeCause = 1 ∧ e.get Reg.FCU_INTEGRITY Fl.FCU_INTEGRITY_OK = 0 ∧ e.get Reg.FCU_INTEGRITY Fl.FCU_INTEGRITY_PARITY = 1 ∧
        e.get Reg.FCU_INTEGRITY Fl.FCU_INTEGRITY_BYTE = 0) ∧
    (∀ copy byte bits parity, s.clocked = true → s.upsets = [] → s.isSafe = false → s.get Reg.FCU_INTEGRITY Fl.FCU_INTEGRITY_OK = 1 →
      ∃ e, exec (.collectorIntegrityFault copy byte bits parity) s = .next (s.ended e) ∧
        (copy = 2 → byte < 8 → e.fcuStatus = s.fcuStatus ^^^ (bits.toNat * 2 ^ (8 * byte))) ∧
        (∀ bad b, State.integrityFault [⟨copy, byte, bits, parity⟩] = some (bad, b) → e.isSafe = true ∧ e.pw.safeCause = 1 ∧
          e.get Reg.FCU_INTEGRITY Fl.FCU_INTEGRITY_OK = 0 ∧ e.get Reg.FCU_INTEGRITY Fl.FCU_INTEGRITY_PARITY = ofBool bad ∧
          e.get Reg.FCU_INTEGRITY Fl.FCU_INTEGRITY_BYTE = b) ∧
        (State.integrityFault [⟨copy, byte, bits, parity⟩] = none → e.isSafe = false ∧
          e.reg Reg.FCU_INTEGRITY = s.reg Reg.FCU_INTEGRITY)) ∧
    (∀ src x, s.clocked = true → s.blockResets.find? (fun x => x.1 == src) = some x → ∃ e,
      exec (.blockResetEnd src) s = .next (s.ended e) ∧
      e = { s.atTime x.2 with blockResets := s.blockResets.filter (·.1 != src) })

/-! ## Self-test (chapter 16) -/

/-- BIST_RESULT of a slice in `y`, and the fence map that follows from it: a failed slice is fenced, no other fence changes (R471). -/
def sliceShown (s y : State) (k result us seg : Nat) : Prop :=
  y.get (Reg.BIST_RESULT k) Fl.BIST_RESULT_RESULT = result ∧ y.get (Reg.BIST_RESULT k) Fl.BIST_RESULT_TIME_US = min us 0xFFFF ∧
    y.get (Reg.BIST_RESULT k) Fl.BIST_RESULT_SEGMENT = seg ∧ (∀ j, j ≠ k → y.fenceMap.testBit j = s.fenceMap.testBit j)

/-- R467 to R471, R477: slices of a test. The head of a queue starts as the stagger, the bay and the power cap allow; a slice passes or fails,
and a failed one is fenced; one whose budget or limit expires is UNFINISHED. Stated while slices wait that the end of a test would follow.
The model's own choices behind it: log entries 90 and 93. -/
def Obligations.SlicesAreTested : Prop :=
  ∀ (s : State) (k : Fin 48) (t : Nat), s.acts = true →
    let z := s.atTime t
    let b := s.bist
    let started : SliceRun := ⟨k.val, z.clk.ts, none⟩
    let free := s.pw.wakeHeld = false ∧ ∀ x, b.lastStart = some x → x / 500 < z.clk.ts / 500
    (∀ rest, s.bistPhase = 1 → free → b.memQ = k.val :: rest → s.memoryRuns = false →
      ∃ e, exec (.bistSliceStart k t) s = .next (s.ended e) ∧ z.onlyRegs e [Reg.BIST_STATUS] ∧
        e.bist = { b with memQ := rest, running := b.running ++ [started], lastStart := some z.clk.ts }) ∧
    (∀ rest, s.bistPhase = 1 → free → b.logQ = k.val :: rest → b.memQ = [] ∨ s.memoryRuns = true → s.bistCharge + testPower k ≤ b.cap →
      ∃ e, exec (.bistSliceStart k t) s = .next (s.ended e) ∧ z.onlyRegs e [Reg.BIST_STATUS] ∧
        e.bist = { b with logQ := rest, running := b.running ++ [started], lastStart := some z.clk.ts }) ∧
    (∀ rest, s.bistPhase = 2 → b.memQ = k.val :: rest → b.running = [] →
      ∃ e, exec (.bistSliceStart k t) s = .next (s.ended e) ∧ z.onlyRegs e [] ∧
        e.bist = { b with memQ := rest, running := [started], lastStart := some z.clk.ts }) ∧
    (s.bistPhase = 1 → ¬ free → exec (.bistSliceStart k t) s = .next (s.ended z)) ∧
    (∀ r fail uncorr, s.runOf k = some r → r.stop = none → b.logQ ≠ [] → s.bistPhase = 1 → fullCycles k ≤ 500 * b.budget →
      (∀ g, fail = some g → k.val ≠ 45 ∧ g.1 < sliceSegments k) → (k.val = 45 → s.fenceMap.testBit 45 = false) →
      let x := s.atTime (State.endCycle r (boundaryCycles k) (fullCycles k / boundaryCycles k) fail)
      ∃ e, exec (.bistSliceDone k fail uncorr false t) s = .next (s.ended e) ∧ e.clk = x.clk ∧
        e.bist.running = b.running.filter (fun y => y.slice != k.val) ∧ e.bist.memQ = b.memQ ∧ e.bist.logQ = b.logQ ∧
        (fail = none → sliceShown s e k 1 ((x.clk.ts - r.start) / 500) 0 ∧ e.fenceMap.testBit k = s.fenceMap.testBit k ∧
          e.bist.failCount = b.failCount) ∧
        (∀ seg off, fail = some (seg, off) →
          sliceShown s e k 2 ((x.clk.ts - r.start) / 500) (if memorySlice k then seg else 0) ∧ e.fenceMap.testBit k = true ∧
          e.bist.failCount = b.failCount + 1 ∧ (s.fenceMap.testBit k = false → e.get Reg.BIST_EVENT Fl.BIST_EVENT_FAIL = 1 ∧
            e.get Reg.BIST_EVENT Fl.BIST_EVENT_FENCE_CHG = 1))) ∧
    (∀ r, s.runOf k = some r → b.logQ ≠ [] → s.bistPhase = 1 → 500 * b.budget < fullCycles k →
      let x := s.atTime (nextBoundary r (r.start + 500 * b.budget))
      ∃ e, exec (.bistBudgetExpiry k) s = .next (s.ended e) ∧ e.clk = x.clk ∧ e.fenceMap = s.fenceMap ∧
        e.get (Reg.BIST_RESULT k) Fl.BIST_RESULT_RESULT = 3 ∧
        e.get (Reg.BIST_RESULT k) Fl.BIST_RESULT_TIME_US = min ((x.clk.ts - r.start) / 500) 0xFFFF ∧
        e.bist.running = b.running.filter (fun y => y.slice != k.val)) ∧
    (∀ r, s.runOf k = some r → b.memQ ≠ [] → s.bistPhase = 2 →
      ∃ e, exec (.bistQuickSliceTimeout k) s = .next (s.ended e) ∧ e.clk = (s.atTime (r.start + 17000000)).clk ∧ e.fenceMap = s.fenceMap ∧
        e.get (Reg.BIST_RESULT k) Fl.BIST_RESULT_RESULT = 3 ∧ e.bist.running = b.running.filter (fun y => y.slice != k.val))

/-- R138, R140, R478 to R480: a record's write to flash marks its slot valid after its words, or fails; a retest is refused with its reason or
runs alone, and its result fences or unfences the slice and enters the retained record under a new CRC.
The model's own choices behind it: log entry 25. -/
def Obligations.RecordsAndRetests : Prop :=
  ∀ (s : State),
    (∀ t a seq erase bytes, s.acts = true → s.bsp.record = some (.slot a seq erase bytes) → s.bsp.op = none → s.pw.wakeHeld = false →
      a % 256 = 0 → bytes.length = 216 → ∃ e, exec (.bistRecordFlashDone true t) s = .next (s.ended e) ∧ e.bsp.record = none ∧
        e.get Reg.BSP_STATUS Fl.BSP_STATUS_RECORD_FAIL = 0 ∧ e.flashByte (a + 0x20) = 0x3C ∧
        (∀ i, i < 4 → e.flashByte (a + 0x24 + i) = seq / 2 ^ (8 * i) % 256) ∧
        (∀ i, i < 216 → e.flashByte (a + 0x28 + i) = bytes.getD i 0 % 256) ∧
        (∀ x, x ≠ a + 0x20 → x < a + 0x24 ∨ a + 0x100 ≤ x →
          e.flashByte x = (if erase = true ∧ x / 4096 = a / 4096 then 0xFF else s.flashByte x))) ∧
    (∀ t a v, s.acts = true → s.bsp.record = some (.quick a v) → s.bsp.op = none → s.pw.wakeHeld = false →
      ∃ e, exec (.bistRecordFlashDone true t) s = .next (s.ended e) ∧ e.bsp.record = none ∧
        e.get Reg.BSP_STATUS Fl.BSP_STATUS_RECORD_FAIL = 0 ∧ ∀ x, e.flashByte x = (if x = a then v % 256 else s.flashByte x)) ∧
    (∀ t, s.acts = true → s.bsp.record.isSome = true → s.bsp.op = none → s.pw.wakeHeld = false →
      ∃ e, exec (.bistRecordFlashDone false t) s = .next (s.ended e) ∧ e.bsp.record = none ∧
        e.get Reg.BSP_STATUS Fl.BSP_STATUS_RECORD_FAIL = 1 ∧ ∀ w, e.reg (Reg.BIST_REC w) = s.reg (Reg.BIST_REC w)) ∧
    (∀ p val, s.reaches p = true → s.answersAt Reg.BIST_RETEST = true → getF val Fl.BIST_RETEST_GO = 1 →
      let k := getF val Fl.BIST_RETEST_SLICE
      ∃ e, exec (.bistRetest p val) s = .next (s.ended e) ∧
        (∀ reason, s.retestRefused k = some reason → e.bist = s.bist ∧ e.get Reg.BIST_RETEST_STATUS Fl.BIST_RETEST_STATUS_RESULT = 3 ∧
          e.get Reg.BIST_RETEST_STATUS Fl.BIST_RETEST_STATUS_REASON = reason ∧ e.get Reg.BIST_EVENT Fl.BIST_EVENT_RETEST_DONE = 1 ∧
          s.onlyRegs e [Reg.BIST_RETEST, Reg.BIST_RETEST_STATUS, Reg.BIST_EVENT]) ∧
        (s.retestRefused k = none → e.bist = { s.bist with running := [⟨k, s.clk.ts, none⟩] } ∧ e.bistPhase = 3 ∧
          e.reg Reg.BIST_RETEST_STATUS = 1 ∧ e.retestSlice = some k ∧
          s.onlyRegs e [Reg.BIST_RETEST, Reg.BIST_RETEST_STATUS, Reg.BIST_STATUS])) ∧
    (∀ fail uncorr r rs, s.acts = true → s.bist.running = r :: rs → s.bistPhase = 3 → r.slice < 48 → s.heldPwr = 0 →
      (∀ g, fail = some g → g.1 < sliceSegments r.slice) →
      let k := r.slice
      let destructive := decide (k ≤ 16) && s.fenceMap.testBit k
      let x := s.atTime (State.endCycle r (State.retestCycles k destructive) (if memorySlice k then sliceSegments k else 1) fail)
      ∃ e, exec (.bistRetestDone fail uncorr false) s = .next (s.ended e) ∧ e.clk = x.clk ∧ e.bist.running = [] ∧ e.bistPhase = 0 ∧
        sliceShown s e k (if fail = none then 1 else 2) ((x.clk.ts - r.start) / 500)
          (match fail with | some g => if memorySlice k then g.1 else 0 | none => 0) ∧
        e.fenceMap.testBit k = fail.isSome ∧ e.reg Reg.BIST_RETEST_STATUS = (if fail = none then 2 else 4) ∧
        e.get Reg.BIST_EVENT Fl.BIST_EVENT_RETEST_DONE = 1 ∧ e.retained.getD (0x30 + k) 0 = (if fail = none then 1 else 2) ∧
        u32 e.retained 212 = crc32 (e.retained.take 212) ∧ (destructive = false → e.getMem = s.getMem))

/-! ## Line codes (chapters 3, 9 and 10) -/

/-- A word that a group may carry: 16 bits, and bits [9:6] of a frame word are 0b0110 (R311). -/
def codeWord (x : Bool × Nat) : Prop := x.2 < 2 ^ 16 ∧ (x.1 = true → x.2 / 2 ^ 6 % 16 = 6)

/-- R73, R283, R309 to R312, R314, R319: a precoded run decodes to itself, and from a wrong memory only its first symbol is wrong; a control
symbol gives back its F and T and never repeats the symbol before it; a run of groups determines its words, and no index stands in it more
than five times in a row; and the check codes give their published values. -/
def Obligations.LineCodesRoundTrip : Prop :=
  (∀ p l, (∀ g ∈ l, g < 4) → decodeRun p (precodeRun p l) = l) ∧
  (∀ p p' l, (∀ g ∈ l, g < 4) → (decodeRun p' (precodeRun p l)).tail = l.tail) ∧
  (∀ p f t, p < 4 → t < 2 → (f = true → t = 0) → controlDecode p (controlSymbol p f t) = some (f, t) ∧ controlSymbol p f t ≠ p) ∧
  (∀ p l, p < 4 → (∀ x ∈ l, codeWord x) → longestRun (codeGroups p l) ≤ 5) ∧
  (∀ p l l', p < 4 → (∀ x ∈ l, codeWord x) → (∀ x ∈ l', codeWord x) → codeGroups p l = codeGroups p l' → l = l') ∧
  (let digits := [0x31, 0x32, 0x33, 0x34, 0x35, 0x36, 0x37, 0x38, 0x39]
   crc32 digits = 0xCBF43926 ∧ crc16 digits = 0x29B1 ∧ crc8 0x07 0 digits = 0xF4)
end

