-- ==== Sys2Proof/Laws/Cells.lean ====
section
/-! SUPPORT. Laws of sparse data by key: what a write leaves at its own key and at every other, and that the canonical form is kept. -/
namespace Sys2Proof.Machine

variable {α : Type}

theorem cellsGet_put_same (d : Nat → α) (m : List (Nat × α)) (a : Nat) (v : α) : cellsGet d (cellsPut m a v) a = v := by
  induction m with
  | nil => simp [cellsPut, cellsGet]
  | cons c r ih =>
    simp only [cellsPut]
    split
    · simp [cellsGet]
    · split
      · simp [cellsGet]
      · next h => simp [cellsGet, h, ih]

theorem cellsGet_put_other (d : Nat → α) (m : List (Nat × α)) (a b : Nat) (v : α) (h : b ≠ a) :
    cellsGet d (cellsPut m a v) b = cellsGet d m b := by
  induction m with
  | nil => simp [cellsPut, cellsGet, Ne.symm h]
  | cons c r ih =>
    simp only [cellsPut]
    split
    · simp [cellsGet, Ne.symm h]
    · split
      · next h1 => subst h1; simp [cellsGet, Ne.symm h]
      · simp [cellsGet, ih]

theorem cellsGet_erase_same (d : Nat → α) (m : List (Nat × α)) (a : Nat) : cellsGet d (cellsErase m a) a = d a := by
  induction m with
  | nil => simp [cellsErase, cellsGet]
  | cons c r ih =>
    by_cases h : c.1 = a
    · simpa [cellsErase, h] using ih
    · simpa [cellsErase, h, cellsGet] using ih

theorem cellsGet_erase_other (d : Nat → α) (m : List (Nat × α)) (a b : Nat) (h : b ≠ a) :
    cellsGet d (cellsErase m a) b = cellsGet d m b := by
  induction m with
  | nil => simp [cellsErase]
  | cons c r ih =>
    by_cases h1 : c.1 = a
    · have : ¬ c.1 = b := fun e => h (e ▸ h1)
      simpa [cellsErase, h1, cellsGet, this, Ne.symm h] using ih
    · by_cases h2 : c.1 = b
      · simp [cellsErase, cellsGet, h2, h]
      · simpa [cellsErase, h1, cellsGet, h2] using ih

/-- A read after a write to the same key gives the value written. -/
@[simp] theorem cellsGet_set_same [DecidableEq α] (d : Nat → α) (m : List (Nat × α)) (a : Nat) (v : α) :
    cellsGet d (cellsSet d m a v) a = v := by
  unfold cellsSet
  split
  · assumption
  · split
    · next h => rw [cellsGet_erase_same, h]
    · exact cellsGet_put_same d m a v

/-- Writing what a key reads as changes nothing. -/
theorem cellsSet_get [DecidableEq α] (d : Nat → α) (m : List (Nat × α)) (a : Nat) : cellsSet d m a (cellsGet d m a) = m := by
  unfold cellsSet; rw [if_pos rfl]

/-- A write leaves every other key alone. -/
theorem cellsGet_set_other [DecidableEq α] (d : Nat → α) (m : List (Nat × α)) (a b : Nat) (v : α) (h : b ≠ a) :
    cellsGet d (cellsSet d m a v) b = cellsGet d m b := by
  unfold cellsSet
  split
  · rfl
  · split
    · exact cellsGet_erase_other d m a b h
    · exact cellsGet_put_other d m a b v h

theorem mem_cellsPut {m : List (Nat × α)} {a : Nat} {v : α} {e : Nat × α} (h : e ∈ cellsPut m a v) : e = (a, v) ∨ e ∈ m := by
  induction m with
  | nil => simpa [cellsPut] using h
  | cons c r ih =>
    simp only [cellsPut] at h
    split at h
    · simpa using h
    · split at h
      · rcases List.mem_cons.1 h with h | h
        · exact .inl h
        · exact .inr (List.mem_cons_of_mem _ h)
      · rcases List.mem_cons.1 h with h | h
        · exact .inr (h ▸ List.mem_cons_self)
        · rcases ih h with h | h
          · exact .inl h
          · exact .inr (List.mem_cons_of_mem _ h)

theorem cellsRising_cons {c : Nat × α} {r : List (Nat × α)} :
    cellsRising (c :: r) = true ↔ (∀ e ∈ r, c.1 < e.1) ∧ cellsRising r = true := by
  simp [cellsRising]

/-- A put keeps the keys strictly rising. -/
theorem cellsRising_put {m : List (Nat × α)} (a : Nat) (v : α) (h : cellsRising m = true) : cellsRising (cellsPut m a v) = true := by
  induction m with
  | nil => rfl
  | cons c r ih =>
    obtain ⟨h1, h2⟩ := cellsRising_cons.1 h
    simp only [cellsPut]
    split
    · next hlt =>
      refine cellsRising_cons.2 ⟨fun e he => ?_, h⟩
      rcases List.mem_cons.1 he with he | he
      · exact he ▸ hlt
      · exact Nat.lt_trans hlt (h1 e he)
    · split
      · next hlt heq => exact cellsRising_cons.2 ⟨fun e he => heq ▸ h1 e he, h2⟩
      · next hlt hne =>
        refine cellsRising_cons.2 ⟨fun e he => ?_, ih h2⟩
        rcases mem_cellsPut he with he | he
        · subst he; exact Nat.lt_of_le_of_ne (Nat.le_of_not_lt hlt) hne
        · exact h1 e he

theorem cellsRising_erase {m : List (Nat × α)} (a : Nat) (h : cellsRising m = true) : cellsRising (cellsErase m a) = true := by
  induction m with
  | nil => rfl
  | cons c r ih =>
    obtain ⟨h1, h2⟩ := cellsRising_cons.1 h
    by_cases hc : c.1 = a
    · simpa [cellsErase, hc] using ih h2
    · have : cellsErase (c :: r) a = c :: cellsErase r a := by simp [cellsErase, hc]
      rw [this]
      exact cellsRising_cons.2 ⟨fun e he => h1 e ((List.mem_filter.1 he).1), ih h2⟩

/-- A write keeps the canonical form. -/
theorem cellsWf_set [DecidableEq α] (d : Nat → α) (m : List (Nat × α)) (a : Nat) (v : α) (h : cellsWf d m = true) :
    cellsWf d (cellsSet d m a v) = true := by
  unfold cellsSet
  split
  · exact h
  simp only [cellsWf, Bool.and_eq_true, List.all_eq_true, decide_eq_true_eq] at h ⊢
  split
  · exact ⟨cellsRising_erase a h.1, fun e he => h.2 e ((List.mem_filter.1 he).1)⟩
  · next hv =>
    refine ⟨cellsRising_put a v h.1, fun e he => ?_⟩
    rcases mem_cellsPut he with he | he
    · subst he; exact hv
    · exact h.2 e he

end Sys2Proof.Machine
end

