-- ==== Sys2Proof/Laws/State.lean ====
section
/-! SUPPORT. One lemma per field per update of State: what an update of one field leaves alone. -/
namespace Sys2Proof.Machine.State

variable (s : State)


@[simp] theorem setReg_fregs (a : Nat) (v : Word) : (s.setReg a v).fregs = s.fregs := rfl
@[simp] theorem setReg_shadow (a : Nat) (v : Word) : (s.setReg a v).shadow = s.shadow := rfl
@[simp] theorem setReg_pciePath (a : Nat) (v : Word) : (s.setReg a v).pciePath = s.pciePath := rfl
@[simp] theorem setReg_spiPath (a : Nat) (v : Word) : (s.setReg a v).spiPath = s.spiPath := rfl
@[simp] theorem setReg_clk (a : Nat) (v : Word) : (s.setReg a v).clk = s.clk := rfl
@[simp] theorem setReg_pw (a : Nat) (v : Word) : (s.setReg a v).pw = s.pw := rfl
@[simp] theorem setReg_pcie (a : Nat) (v : Word) : (s.setReg a v).pcie = s.pcie := rfl
@[simp] theorem setReg_sent (a : Nat) (v : Word) : (s.setReg a v).sent = s.sent := rfl
@[simp] theorem setReg_chart (a : Nat) (v : Word) : (s.setReg a v).chart = s.chart := rfl
@[simp] theorem setReg_hz (a : Nat) (v : Word) : (s.setReg a v).hz = s.hz := rfl
@[simp] theorem setReg_jens (a : Nat) (v : Word) : (s.setReg a v).jens = s.jens := rfl
@[simp] theorem setReg_lanes (a : Nat) (v : Word) : (s.setReg a v).lanes = s.lanes := rfl
@[simp] theorem setReg_ports (a : Nat) (v : Word) : (s.setReg a v).ports = s.ports := rfl
@[simp] theorem setReg_commit (a : Nat) (v : Word) : (s.setReg a v).commit = s.commit := rfl
@[simp] theorem setReg_heldPwr (a : Nat) (v : Word) : (s.setReg a v).heldPwr = s.heldPwr := rfl
@[simp] theorem setReg_spi (a : Nat) (v : Word) : (s.setReg a v).spi = s.spi := rfl
@[simp] theorem setReg_bsp (a : Nat) (v : Word) : (s.setReg a v).bsp = s.bsp := rfl
@[simp] theorem setReg_bist (a : Nat) (v : Word) : (s.setReg a v).bist = s.bist := rfl
@[simp] theorem setReg_upsets (a : Nat) (v : Word) : (s.setReg a v).upsets = s.upsets := rfl
@[simp] theorem setReg_blockResets (a : Nat) (v : Word) : (s.setReg a v).blockResets = s.blockResets := rfl
@[simp] theorem setReg_react (a : Nat) (v : Word) : (s.setReg a v).react = s.react := rfl
@[simp] theorem setReg_wdtCount (a : Nat) (v : Word) : (s.setReg a v).wdtCount = s.wdtCount := rfl
@[simp] theorem setReg_wdtTimeout (a : Nat) (v : Word) : (s.setReg a v).wdtTimeout = s.wdtTimeout := rfl
@[simp] theorem setReg_wdtWarn (a : Nat) (v : Word) : (s.setReg a v).wdtWarn = s.wdtWarn := rfl
@[simp] theorem setReg_wdtWarned (a : Nat) (v : Word) : (s.setReg a v).wdtWarned = s.wdtWarned := rfl
@[simp] theorem setReg_fns (a : Nat) (v : Word) : (s.setReg a v).fns = s.fns := rfl
@[simp] theorem setReg_transits (a : Nat) (v : Word) : (s.setReg a v).transits = s.transits := rfl
@[simp] theorem setReg_gone (a : Nat) (v : Word) : (s.setReg a v).gone = s.gone := rfl
@[simp] theorem setReg_bands (a : Nat) (v : Word) : (s.setReg a v).bands = s.bands := rfl
@[simp] theorem setReg_running (a : Nat) (v : Word) : (s.setReg a v).running = s.running := rfl
@[simp] theorem setReg_dlv (a : Nat) (v : Word) : (s.setReg a v).dlv = s.dlv := rfl
@[simp] theorem setReg_cas (a : Nat) (v : Word) : (s.setReg a v).cas = s.cas := rfl
@[simp] theorem setReg_hostMem (a : Nat) (v : Word) : (s.setReg a v).hostMem = s.hostMem := rfl
@[simp] theorem setReg_sts (a : Nat) (v : Word) : (s.setReg a v).sts = s.sts := rfl
@[simp] theorem setReg_ws (a : Nat) (v : Word) : (s.setReg a v).ws = s.ws := rfl
@[simp] theorem setReg_cht (a : Nat) (v : Word) : (s.setReg a v).cht = s.cht := rfl
@[simp] theorem setReg_mceLb (a : Nat) (v : Word) : (s.setReg a v).mceLb = s.mceLb := rfl
@[simp] theorem setReg_eleLb (a : Nat) (v : Word) : (s.setReg a v).eleLb = s.eleLb := rfl
@[simp] theorem setReg_tdr (a : Nat) (v : Word) : (s.setReg a v).tdr = s.tdr := rfl
@[simp] theorem setReg_freeCtr (a : Nat) (v : Word) : (s.setReg a v).freeCtr = s.freeCtr := rfl
@[simp] theorem setReg_pending (a : Nat) (v : Word) : (s.setReg a v).pending = s.pending := rfl

@[simp] theorem put_fregs (a : Nat) (f : Fld) (v : Nat) : (s.put a f v).fregs = s.fregs := rfl
@[simp] theorem put_shadow (a : Nat) (f : Fld) (v : Nat) : (s.put a f v).shadow = s.shadow := rfl
@[simp] theorem put_pciePath (a : Nat) (f : Fld) (v : Nat) : (s.put a f v).pciePath = s.pciePath := rfl
@[simp] theorem put_spiPath (a : Nat) (f : Fld) (v : Nat) : (s.put a f v).spiPath = s.spiPath := rfl
@[simp] theorem put_clk (a : Nat) (f : Fld) (v : Nat) : (s.put a f v).clk = s.clk := rfl
@[simp] theorem put_pw (a : Nat) (f : Fld) (v : Nat) : (s.put a f v).pw = s.pw := rfl
@[simp] theorem put_pcie (a : Nat) (f : Fld) (v : Nat) : (s.put a f v).pcie = s.pcie := rfl
@[simp] theorem put_sent (a : Nat) (f : Fld) (v : Nat) : (s.put a f v).sent = s.sent := rfl
@[simp] theorem put_chart (a : Nat) (f : Fld) (v : Nat) : (s.put a f v).chart = s.chart := rfl
@[simp] theorem put_hz (a : Nat) (f : Fld) (v : Nat) : (s.put a f v).hz = s.hz := rfl
@[simp] theorem put_jens (a : Nat) (f : Fld) (v : Nat) : (s.put a f v).jens = s.jens := rfl
@[simp] theorem put_lanes (a : Nat) (f : Fld) (v : Nat) : (s.put a f v).lanes = s.lanes := rfl
@[simp] theorem put_ports (a : Nat) (f : Fld) (v : Nat) : (s.put a f v).ports = s.ports := rfl
@[simp] theorem put_commit (a : Nat) (f : Fld) (v : Nat) : (s.put a f v).commit = s.commit := rfl
@[simp] theorem put_heldPwr (a : Nat) (f : Fld) (v : Nat) : (s.put a f v).heldPwr = s.heldPwr := rfl
@[simp] theorem put_spi (a : Nat) (f : Fld) (v : Nat) : (s.put a f v).spi = s.spi := rfl
@[simp] theorem put_bsp (a : Nat) (f : Fld) (v : Nat) : (s.put a f v).bsp = s.bsp := rfl
@[simp] theorem put_bist (a : Nat) (f : Fld) (v : Nat) : (s.put a f v).bist = s.bist := rfl
@[simp] theorem put_upsets (a : Nat) (f : Fld) (v : Nat) : (s.put a f v).upsets = s.upsets := rfl
@[simp] theorem put_blockResets (a : Nat) (f : Fld) (v : Nat) : (s.put a f v).blockResets = s.blockResets := rfl
@[simp] theorem put_react (a : Nat) (f : Fld) (v : Nat) : (s.put a f v).react = s.react := rfl
@[simp] theorem put_wdtCount (a : Nat) (f : Fld) (v : Nat) : (s.put a f v).wdtCount = s.wdtCount := rfl
@[simp] theorem put_wdtTimeout (a : Nat) (f : Fld) (v : Nat) : (s.put a f v).wdtTimeout = s.wdtTimeout := rfl
@[simp] theorem put_wdtWarn (a : Nat) (f : Fld) (v : Nat) : (s.put a f v).wdtWarn = s.wdtWarn := rfl
@[simp] theorem put_wdtWarned (a : Nat) (f : Fld) (v : Nat) : (s.put a f v).wdtWarned = s.wdtWarned := rfl
@[simp] theorem put_fns (a : Nat) (f : Fld) (v : Nat) : (s.put a f v).fns = s.fns := rfl
@[simp] theorem put_transits (a : Nat) (f : Fld) (v : Nat) : (s.put a f v).transits = s.transits := rfl
@[simp] theorem put_gone (a : Nat) (f : Fld) (v : Nat) : (s.put a f v).gone = s.gone := rfl
@[simp] theorem put_bands (a : Nat) (f : Fld) (v : Nat) : (s.put a f v).bands = s.bands := rfl
@[simp] theorem put_running (a : Nat) (f : Fld) (v : Nat) : (s.put a f v).running = s.running := rfl
@[simp] theorem put_dlv (a : Nat) (f : Fld) (v : Nat) : (s.put a f v).dlv = s.dlv := rfl
@[simp] theorem put_cas (a : Nat) (f : Fld) (v : Nat) : (s.put a f v).cas = s.cas := rfl
@[simp] theorem put_hostMem (a : Nat) (f : Fld) (v : Nat) : (s.put a f v).hostMem = s.hostMem := rfl
@[simp] theorem put_sts (a : Nat) (f : Fld) (v : Nat) : (s.put a f v).sts = s.sts := rfl
@[simp] theorem put_ws (a : Nat) (f : Fld) (v : Nat) : (s.put a f v).ws = s.ws := rfl
@[simp] theorem put_cht (a : Nat) (f : Fld) (v : Nat) : (s.put a f v).cht = s.cht := rfl
@[simp] theorem put_mceLb (a : Nat) (f : Fld) (v : Nat) : (s.put a f v).mceLb = s.mceLb := rfl
@[simp] theorem put_eleLb (a : Nat) (f : Fld) (v : Nat) : (s.put a f v).eleLb = s.eleLb := rfl
@[simp] theorem put_tdr (a : Nat) (f : Fld) (v : Nat) : (s.put a f v).tdr = s.tdr := rfl
@[simp] theorem put_freeCtr (a : Nat) (f : Fld) (v : Nat) : (s.put a f v).freeCtr = s.freeCtr := rfl
@[simp] theorem put_pending (a : Nat) (f : Fld) (v : Nat) : (s.put a f v).pending = s.pending := rfl

@[simp] theorem putFlag_fregs (a : Nat) (f : Fld) (b : Bool) : (s.putFlag a f b).fregs = s.fregs := rfl
@[simp] theorem putFlag_shadow (a : Nat) (f : Fld) (b : Bool) : (s.putFlag a f b).shadow = s.shadow := rfl
@[simp] theorem putFlag_pciePath (a : Nat) (f : Fld) (b : Bool) : (s.putFlag a f b).pciePath = s.pciePath := rfl
@[simp] theorem putFlag_spiPath (a : Nat) (f : Fld) (b : Bool) : (s.putFlag a f b).spiPath = s.spiPath := rfl
@[simp] theorem putFlag_clk (a : Nat) (f : Fld) (b : Bool) : (s.putFlag a f b).clk = s.clk := rfl
@[simp] theorem putFlag_pw (a : Nat) (f : Fld) (b : Bool) : (s.putFlag a f b).pw = s.pw := rfl
@[simp] theorem putFlag_pcie (a : Nat) (f : Fld) (b : Bool) : (s.putFlag a f b).pcie = s.pcie := rfl
@[simp] theorem putFlag_sent (a : Nat) (f : Fld) (b : Bool) : (s.putFlag a f b).sent = s.sent := rfl
@[simp] theorem putFlag_chart (a : Nat) (f : Fld) (b : Bool) : (s.putFlag a f b).chart = s.chart := rfl
@[simp] theorem putFlag_hz (a : Nat) (f : Fld) (b : Bool) : (s.putFlag a f b).hz = s.hz := rfl
@[simp] theorem putFlag_jens (a : Nat) (f : Fld) (b : Bool) : (s.putFlag a f b).jens = s.jens := rfl
@[simp] theorem putFlag_lanes (a : Nat) (f : Fld) (b : Bool) : (s.putFlag a f b).lanes = s.lanes := rfl
@[simp] theorem putFlag_ports (a : Nat) (f : Fld) (b : Bool) : (s.putFlag a f b).ports = s.ports := rfl
@[simp] theorem putFlag_commit (a : Nat) (f : Fld) (b : Bool) : (s.putFlag a f b).commit = s.commit := rfl
@[simp] theorem putFlag_heldPwr (a : Nat) (f : Fld) (b : Bool) : (s.putFlag a f b).heldPwr = s.heldPwr := rfl
@[simp] theorem putFlag_spi (a : Nat) (f : Fld) (b : Bool) : (s.putFlag a f b).spi = s.spi := rfl
@[simp] theorem putFlag_bsp (a : Nat) (f : Fld) (b : Bool) : (s.putFlag a f b).bsp = s.bsp := rfl
@[simp] theorem putFlag_bist (a : Nat) (f : Fld) (b : Bool) : (s.putFlag a f b).bist = s.bist := rfl
@[simp] theorem putFlag_upsets (a : Nat) (f : Fld) (b : Bool) : (s.putFlag a f b).upsets = s.upsets := rfl
@[simp] theorem putFlag_blockResets (a : Nat) (f : Fld) (b : Bool) : (s.putFlag a f b).blockResets = s.blockResets := rfl
@[simp] theorem putFlag_react (a : Nat) (f : Fld) (b : Bool) : (s.putFlag a f b).react = s.react := rfl
@[simp] theorem putFlag_wdtCount (a : Nat) (f : Fld) (b : Bool) : (s.putFlag a f b).wdtCount = s.wdtCount := rfl
@[simp] theorem putFlag_wdtTimeout (a : Nat) (f : Fld) (b : Bool) : (s.putFlag a f b).wdtTimeout = s.wdtTimeout := rfl
@[simp] theorem putFlag_wdtWarn (a : Nat) (f : Fld) (b : Bool) : (s.putFlag a f b).wdtWarn = s.wdtWarn := rfl
@[simp] theorem putFlag_wdtWarned (a : Nat) (f : Fld) (b : Bool) : (s.putFlag a f b).wdtWarned = s.wdtWarned := rfl
@[simp] theorem putFlag_fns (a : Nat) (f : Fld) (b : Bool) : (s.putFlag a f b).fns = s.fns := rfl
@[simp] theorem putFlag_transits (a : Nat) (f : Fld) (b : Bool) : (s.putFlag a f b).transits = s.transits := rfl
@[simp] theorem putFlag_gone (a : Nat) (f : Fld) (b : Bool) : (s.putFlag a f b).gone = s.gone := rfl
@[simp] theorem putFlag_bands (a : Nat) (f : Fld) (b : Bool) : (s.putFlag a f b).bands = s.bands := rfl
@[simp] theorem putFlag_running (a : Nat) (f : Fld) (b : Bool) : (s.putFlag a f b).running = s.running := rfl
@[simp] theorem putFlag_dlv (a : Nat) (f : Fld) (b : Bool) : (s.putFlag a f b).dlv = s.dlv := rfl
@[simp] theorem putFlag_cas (a : Nat) (f : Fld) (b : Bool) : (s.putFlag a f b).cas = s.cas := rfl
@[simp] theorem putFlag_hostMem (a : Nat) (f : Fld) (b : Bool) : (s.putFlag a f b).hostMem = s.hostMem := rfl
@[simp] theorem putFlag_sts (a : Nat) (f : Fld) (b : Bool) : (s.putFlag a f b).sts = s.sts := rfl
@[simp] theorem putFlag_ws (a : Nat) (f : Fld) (b : Bool) : (s.putFlag a f b).ws = s.ws := rfl
@[simp] theorem putFlag_cht (a : Nat) (f : Fld) (b : Bool) : (s.putFlag a f b).cht = s.cht := rfl
@[simp] theorem putFlag_mceLb (a : Nat) (f : Fld) (b : Bool) : (s.putFlag a f b).mceLb = s.mceLb := rfl
@[simp] theorem putFlag_eleLb (a : Nat) (f : Fld) (b : Bool) : (s.putFlag a f b).eleLb = s.eleLb := rfl
@[simp] theorem putFlag_tdr (a : Nat) (f : Fld) (b : Bool) : (s.putFlag a f b).tdr = s.tdr := rfl
@[simp] theorem putFlag_freeCtr (a : Nat) (f : Fld) (b : Bool) : (s.putFlag a f b).freeCtr = s.freeCtr := rfl
@[simp] theorem putFlag_pending (a : Nat) (f : Fld) (b : Bool) : (s.putFlag a f b).pending = s.pending := rfl

@[simp] theorem bumpBy_fregs (a : Nat) (f : Fld) (n : Nat) : (s.bumpBy a f n).fregs = s.fregs := rfl
@[simp] theorem bumpBy_shadow (a : Nat) (f : Fld) (n : Nat) : (s.bumpBy a f n).shadow = s.shadow := rfl
@[simp] theorem bumpBy_pciePath (a : Nat) (f : Fld) (n : Nat) : (s.bumpBy a f n).pciePath = s.pciePath := rfl
@[simp] theorem bumpBy_spiPath (a : Nat) (f : Fld) (n : Nat) : (s.bumpBy a f n).spiPath = s.spiPath := rfl
@[simp] theorem bumpBy_clk (a : Nat) (f : Fld) (n : Nat) : (s.bumpBy a f n).clk = s.clk := rfl
@[simp] theorem bumpBy_pw (a : Nat) (f : Fld) (n : Nat) : (s.bumpBy a f n).pw = s.pw := rfl
@[simp] theorem bumpBy_pcie (a : Nat) (f : Fld) (n : Nat) : (s.bumpBy a f n).pcie = s.pcie := rfl
@[simp] theorem bumpBy_sent (a : Nat) (f : Fld) (n : Nat) : (s.bumpBy a f n).sent = s.sent := rfl
@[simp] theorem bumpBy_chart (a : Nat) (f : Fld) (n : Nat) : (s.bumpBy a f n).chart = s.chart := rfl
@[simp] theorem bumpBy_hz (a : Nat) (f : Fld) (n : Nat) : (s.bumpBy a f n).hz = s.hz := rfl
@[simp] theorem bumpBy_jens (a : Nat) (f : Fld) (n : Nat) : (s.bumpBy a f n).jens = s.jens := rfl
@[simp] theorem bumpBy_lanes (a : Nat) (f : Fld) (n : Nat) : (s.bumpBy a f n).lanes = s.lanes := rfl
@[simp] theorem bumpBy_ports (a : Nat) (f : Fld) (n : Nat) : (s.bumpBy a f n).ports = s.ports := rfl
@[simp] theorem bumpBy_commit (a : Nat) (f : Fld) (n : Nat) : (s.bumpBy a f n).commit = s.commit := rfl
@[simp] theorem bumpBy_heldPwr (a : Nat) (f : Fld) (n : Nat) : (s.bumpBy a f n).heldPwr = s.heldPwr := rfl
@[simp] theorem bumpBy_spi (a : Nat) (f : Fld) (n : Nat) : (s.bumpBy a f n).spi = s.spi := rfl
@[simp] theorem bumpBy_bsp (a : Nat) (f : Fld) (n : Nat) : (s.bumpBy a f n).bsp = s.bsp := rfl
@[simp] theorem bumpBy_bist (a : Nat) (f : Fld) (n : Nat) : (s.bumpBy a f n).bist = s.bist := rfl
@[simp] theorem bumpBy_upsets (a : Nat) (f : Fld) (n : Nat) : (s.bumpBy a f n).upsets = s.upsets := rfl
@[simp] theorem bumpBy_blockResets (a : Nat) (f : Fld) (n : Nat) : (s.bumpBy a f n).blockResets = s.blockResets := rfl
@[simp] theorem bumpBy_react (a : Nat) (f : Fld) (n : Nat) : (s.bumpBy a f n).react = s.react := rfl
@[simp] theorem bumpBy_wdtCount (a : Nat) (f : Fld) (n : Nat) : (s.bumpBy a f n).wdtCount = s.wdtCount := rfl
@[simp] theorem bumpBy_wdtTimeout (a : Nat) (f : Fld) (n : Nat) : (s.bumpBy a f n).wdtTimeout = s.wdtTimeout := rfl
@[simp] theorem bumpBy_wdtWarn (a : Nat) (f : Fld) (n : Nat) : (s.bumpBy a f n).wdtWarn = s.wdtWarn := rfl
@[simp] theorem bumpBy_wdtWarned (a : Nat) (f : Fld) (n : Nat) : (s.bumpBy a f n).wdtWarned = s.wdtWarned := rfl
@[simp] theorem bumpBy_fns (a : Nat) (f : Fld) (n : Nat) : (s.bumpBy a f n).fns = s.fns := rfl
@[simp] theorem bumpBy_transits (a : Nat) (f : Fld) (n : Nat) : (s.bumpBy a f n).transits = s.transits := rfl
@[simp] theorem bumpBy_gone (a : Nat) (f : Fld) (n : Nat) : (s.bumpBy a f n).gone = s.gone := rfl
@[simp] theorem bumpBy_bands (a : Nat) (f : Fld) (n : Nat) : (s.bumpBy a f n).bands = s.bands := rfl
@[simp] theorem bumpBy_running (a : Nat) (f : Fld) (n : Nat) : (s.bumpBy a f n).running = s.running := rfl
@[simp] theorem bumpBy_dlv (a : Nat) (f : Fld) (n : Nat) : (s.bumpBy a f n).dlv = s.dlv := rfl
@[simp] theorem bumpBy_cas (a : Nat) (f : Fld) (n : Nat) : (s.bumpBy a f n).cas = s.cas := rfl
@[simp] theorem bumpBy_hostMem (a : Nat) (f : Fld) (n : Nat) : (s.bumpBy a f n).hostMem = s.hostMem := rfl
@[simp] theorem bumpBy_sts (a : Nat) (f : Fld) (n : Nat) : (s.bumpBy a f n).sts = s.sts := rfl
@[simp] theorem bumpBy_ws (a : Nat) (f : Fld) (n : Nat) : (s.bumpBy a f n).ws = s.ws := rfl
@[simp] theorem bumpBy_cht (a : Nat) (f : Fld) (n : Nat) : (s.bumpBy a f n).cht = s.cht := rfl
@[simp] theorem bumpBy_mceLb (a : Nat) (f : Fld) (n : Nat) : (s.bumpBy a f n).mceLb = s.mceLb := rfl
@[simp] theorem bumpBy_eleLb (a : Nat) (f : Fld) (n : Nat) : (s.bumpBy a f n).eleLb = s.eleLb := rfl
@[simp] theorem bumpBy_tdr (a : Nat) (f : Fld) (n : Nat) : (s.bumpBy a f n).tdr = s.tdr := rfl
@[simp] theorem bumpBy_freeCtr (a : Nat) (f : Fld) (n : Nat) : (s.bumpBy a f n).freeCtr = s.freeCtr := rfl
@[simp] theorem bumpBy_pending (a : Nat) (f : Fld) (n : Nat) : (s.bumpBy a f n).pending = s.pending := rfl

@[simp] theorem bump_fregs (a : Nat) (f : Fld) : (s.bump a f).fregs = s.fregs := rfl
@[simp] theorem bump_shadow (a : Nat) (f : Fld) : (s.bump a f).shadow = s.shadow := rfl
@[simp] theorem bump_pciePath (a : Nat) (f : Fld) : (s.bump a f).pciePath = s.pciePath := rfl
@[simp] theorem bump_spiPath (a : Nat) (f : Fld) : (s.bump a f).spiPath = s.spiPath := rfl
@[simp] theorem bump_clk (a : Nat) (f : Fld) : (s.bump a f).clk = s.clk := rfl
@[simp] theorem bump_pw (a : Nat) (f : Fld) : (s.bump a f).pw = s.pw := rfl
@[simp] theorem bump_pcie (a : Nat) (f : Fld) : (s.bump a f).pcie = s.pcie := rfl
@[simp] theorem bump_sent (a : Nat) (f : Fld) : (s.bump a f).sent = s.sent := rfl
@[simp] theorem bump_chart (a : Nat) (f : Fld) : (s.bump a f).chart = s.chart := rfl
@[simp] theorem bump_hz (a : Nat) (f : Fld) : (s.bump a f).hz = s.hz := rfl
@[simp] theorem bump_jens (a : Nat) (f : Fld) : (s.bump a f).jens = s.jens := rfl
@[simp] theorem bump_lanes (a : Nat) (f : Fld) : (s.bump a f).lanes = s.lanes := rfl
@[simp] theorem bump_ports (a : Nat) (f : Fld) : (s.bump a f).ports = s.ports := rfl
@[simp] theorem bump_commit (a : Nat) (f : Fld) : (s.bump a f).commit = s.commit := rfl
@[simp] theorem bump_heldPwr (a : Nat) (f : Fld) : (s.bump a f).heldPwr = s.heldPwr := rfl
@[simp] theorem bump_spi (a : Nat) (f : Fld) : (s.bump a f).spi = s.spi := rfl
@[simp] theorem bump_bsp (a : Nat) (f : Fld) : (s.bump a f).bsp = s.bsp := rfl
@[simp] theorem bump_bist (a : Nat) (f : Fld) : (s.bump a f).bist = s.bist := rfl
@[simp] theorem bump_upsets (a : Nat) (f : Fld) : (s.bump a f).upsets = s.upsets := rfl
@[simp] theorem bump_blockResets (a : Nat) (f : Fld) : (s.bump a f).blockResets = s.blockResets := rfl
@[simp] theorem bump_react (a : Nat) (f : Fld) : (s.bump a f).react = s.react := rfl
@[simp] theorem bump_wdtCount (a : Nat) (f : Fld) : (s.bump a f).wdtCount = s.wdtCount := rfl
@[simp] theorem bump_wdtTimeout (a : Nat) (f : Fld) : (s.bump a f).wdtTimeout = s.wdtTimeout := rfl
@[simp] theorem bump_wdtWarn (a : Nat) (f : Fld) : (s.bump a f).wdtWarn = s.wdtWarn := rfl
@[simp] theorem bump_wdtWarned (a : Nat) (f : Fld) : (s.bump a f).wdtWarned = s.wdtWarned := rfl
@[simp] theorem bump_fns (a : Nat) (f : Fld) : (s.bump a f).fns = s.fns := rfl
@[simp] theorem bump_transits (a : Nat) (f : Fld) : (s.bump a f).transits = s.transits := rfl
@[simp] theorem bump_gone (a : Nat) (f : Fld) : (s.bump a f).gone = s.gone := rfl
@[simp] theorem bump_bands (a : Nat) (f : Fld) : (s.bump a f).bands = s.bands := rfl
@[simp] theorem bump_running (a : Nat) (f : Fld) : (s.bump a f).running = s.running := rfl
@[simp] theorem bump_dlv (a : Nat) (f : Fld) : (s.bump a f).dlv = s.dlv := rfl
@[simp] theorem bump_cas (a : Nat) (f : Fld) : (s.bump a f).cas = s.cas := rfl
@[simp] theorem bump_hostMem (a : Nat) (f : Fld) : (s.bump a f).hostMem = s.hostMem := rfl
@[simp] theorem bump_sts (a : Nat) (f : Fld) : (s.bump a f).sts = s.sts := rfl
@[simp] theorem bump_ws (a : Nat) (f : Fld) : (s.bump a f).ws = s.ws := rfl
@[simp] theorem bump_cht (a : Nat) (f : Fld) : (s.bump a f).cht = s.cht := rfl
@[simp] theorem bump_mceLb (a : Nat) (f : Fld) : (s.bump a f).mceLb = s.mceLb := rfl
@[simp] theorem bump_eleLb (a : Nat) (f : Fld) : (s.bump a f).eleLb = s.eleLb := rfl
@[simp] theorem bump_tdr (a : Nat) (f : Fld) : (s.bump a f).tdr = s.tdr := rfl
@[simp] theorem bump_freeCtr (a : Nat) (f : Fld) : (s.bump a f).freeCtr = s.freeCtr := rfl
@[simp] theorem bump_pending (a : Nat) (f : Fld) : (s.bump a f).pending = s.pending := rfl

@[simp] theorem wrapBy_fregs (a : Nat) (f : Fld) (n : Nat) : (s.wrapBy a f n).fregs = s.fregs := rfl
@[simp] theorem wrapBy_shadow (a : Nat) (f : Fld) (n : Nat) : (s.wrapBy a f n).shadow = s.shadow := rfl
@[simp] theorem wrapBy_pciePath (a : Nat) (f : Fld) (n : Nat) : (s.wrapBy a f n).pciePath = s.pciePath := rfl
@[simp] theorem wrapBy_spiPath (a : Nat) (f : Fld) (n : Nat) : (s.wrapBy a f n).spiPath = s.spiPath := rfl
@[simp] theorem wrapBy_clk (a : Nat) (f : Fld) (n : Nat) : (s.wrapBy a f n).clk = s.clk := rfl
@[simp] theorem wrapBy_pw (a : Nat) (f : Fld) (n : Nat) : (s.wrapBy a f n).pw = s.pw := rfl
@[simp] theorem wrapBy_pcie (a : Nat) (f : Fld) (n : Nat) : (s.wrapBy a f n).pcie = s.pcie := rfl
@[simp] theorem wrapBy_sent (a : Nat) (f : Fld) (n : Nat) : (s.wrapBy a f n).sent = s.sent := rfl
@[simp] theorem wrapBy_chart (a : Nat) (f : Fld) (n : Nat) : (s.wrapBy a f n).chart = s.chart := rfl
@[simp] theorem wrapBy_hz (a : Nat) (f : Fld) (n : Nat) : (s.wrapBy a f n).hz = s.hz := rfl
@[simp] theorem wrapBy_jens (a : Nat) (f : Fld) (n : Nat) : (s.wrapBy a f n).jens = s.jens := rfl
@[simp] theorem wrapBy_lanes (a : Nat) (f : Fld) (n : Nat) : (s.wrapBy a f n).lanes = s.lanes := rfl
@[simp] theorem wrapBy_ports (a : Nat) (f : Fld) (n : Nat) : (s.wrapBy a f n).ports = s.ports := rfl
@[simp] theorem wrapBy_commit (a : Nat) (f : Fld) (n : Nat) : (s.wrapBy a f n).commit = s.commit := rfl
@[simp] theorem wrapBy_heldPwr (a : Nat) (f : Fld) (n : Nat) : (s.wrapBy a f n).heldPwr = s.heldPwr := rfl
@[simp] theorem wrapBy_spi (a : Nat) (f : Fld) (n : Nat) : (s.wrapBy a f n).spi = s.spi := rfl
@[simp] theorem wrapBy_bsp (a : Nat) (f : Fld) (n : Nat) : (s.wrapBy a f n).bsp = s.bsp := rfl
@[simp] theorem wrapBy_bist (a : Nat) (f : Fld) (n : Nat) : (s.wrapBy a f n).bist = s.bist := rfl
@[simp] theorem wrapBy_upsets (a : Nat) (f : Fld) (n : Nat) : (s.wrapBy a f n).upsets = s.upsets := rfl
@[simp] theorem wrapBy_blockResets (a : Nat) (f : Fld) (n : Nat) : (s.wrapBy a f n).blockResets = s.blockResets := rfl
@[simp] theorem wrapBy_react (a : Nat) (f : Fld) (n : Nat) : (s.wrapBy a f n).react = s.react := rfl
@[simp] theorem wrapBy_wdtCount (a : Nat) (f : Fld) (n : Nat) : (s.wrapBy a f n).wdtCount = s.wdtCount := rfl
@[simp] theorem wrapBy_wdtTimeout (a : Nat) (f : Fld) (n : Nat) : (s.wrapBy a f n).wdtTimeout = s.wdtTimeout := rfl
@[simp] theorem wrapBy_wdtWarn (a : Nat) (f : Fld) (n : Nat) : (s.wrapBy a f n).wdtWarn = s.wdtWarn := rfl
@[simp] theorem wrapBy_wdtWarned (a : Nat) (f : Fld) (n : Nat) : (s.wrapBy a f n).wdtWarned = s.wdtWarned := rfl
@[simp] theorem wrapBy_fns (a : Nat) (f : Fld) (n : Nat) : (s.wrapBy a f n).fns = s.fns := rfl
@[simp] theorem wrapBy_transits (a : Nat) (f : Fld) (n : Nat) : (s.wrapBy a f n).transits = s.transits := rfl
@[simp] theorem wrapBy_gone (a : Nat) (f : Fld) (n : Nat) : (s.wrapBy a f n).gone = s.gone := rfl
@[simp] theorem wrapBy_bands (a : Nat) (f : Fld) (n : Nat) : (s.wrapBy a f n).bands = s.bands := rfl
@[simp] theorem wrapBy_running (a : Nat) (f : Fld) (n : Nat) : (s.wrapBy a f n).running = s.running := rfl
@[simp] theorem wrapBy_dlv (a : Nat) (f : Fld) (n : Nat) : (s.wrapBy a f n).dlv = s.dlv := rfl
@[simp] theorem wrapBy_cas (a : Nat) (f : Fld) (n : Nat) : (s.wrapBy a f n).cas = s.cas := rfl
@[simp] theorem wrapBy_hostMem (a : Nat) (f : Fld) (n : Nat) : (s.wrapBy a f n).hostMem = s.hostMem := rfl
@[simp] theorem wrapBy_sts (a : Nat) (f : Fld) (n : Nat) : (s.wrapBy a f n).sts = s.sts := rfl
@[simp] theorem wrapBy_ws (a : Nat) (f : Fld) (n : Nat) : (s.wrapBy a f n).ws = s.ws := rfl
@[simp] theorem wrapBy_cht (a : Nat) (f : Fld) (n : Nat) : (s.wrapBy a f n).cht = s.cht := rfl
@[simp] theorem wrapBy_mceLb (a : Nat) (f : Fld) (n : Nat) : (s.wrapBy a f n).mceLb = s.mceLb := rfl
@[simp] theorem wrapBy_eleLb (a : Nat) (f : Fld) (n : Nat) : (s.wrapBy a f n).eleLb = s.eleLb := rfl
@[simp] theorem wrapBy_tdr (a : Nat) (f : Fld) (n : Nat) : (s.wrapBy a f n).tdr = s.tdr := rfl
@[simp] theorem wrapBy_freeCtr (a : Nat) (f : Fld) (n : Nat) : (s.wrapBy a f n).freeCtr = s.freeCtr := rfl
@[simp] theorem wrapBy_pending (a : Nat) (f : Fld) (n : Nat) : (s.wrapBy a f n).pending = s.pending := rfl

@[simp] theorem setBit_fregs (a : Nat) (f : Fld) (i : Nat) : (s.setBit a f i).fregs = s.fregs := rfl
@[simp] theorem setBit_shadow (a : Nat) (f : Fld) (i : Nat) : (s.setBit a f i).shadow = s.shadow := rfl
@[simp] theorem setBit_pciePath (a : Nat) (f : Fld) (i : Nat) : (s.setBit a f i).pciePath = s.pciePath := rfl
@[simp] theorem setBit_spiPath (a : Nat) (f : Fld) (i : Nat) : (s.setBit a f i).spiPath = s.spiPath := rfl
@[simp] theorem setBit_clk (a : Nat) (f : Fld) (i : Nat) : (s.setBit a f i).clk = s.clk := rfl
@[simp] theorem setBit_pw (a : Nat) (f : Fld) (i : Nat) : (s.setBit a f i).pw = s.pw := rfl
@[simp] theorem setBit_pcie (a : Nat) (f : Fld) (i : Nat) : (s.setBit a f i).pcie = s.pcie := rfl
@[simp] theorem setBit_sent (a : Nat) (f : Fld) (i : Nat) : (s.setBit a f i).sent = s.sent := rfl
@[simp] theorem setBit_chart (a : Nat) (f : Fld) (i : Nat) : (s.setBit a f i).chart = s.chart := rfl
@[simp] theorem setBit_hz (a : Nat) (f : Fld) (i : Nat) : (s.setBit a f i).hz = s.hz := rfl
@[simp] theorem setBit_jens (a : Nat) (f : Fld) (i : Nat) : (s.setBit a f i).jens = s.jens := rfl
@[simp] theorem setBit_lanes (a : Nat) (f : Fld) (i : Nat) : (s.setBit a f i).lanes = s.lanes := rfl
@[simp] theorem setBit_ports (a : Nat) (f : Fld) (i : Nat) : (s.setBit a f i).ports = s.ports := rfl
@[simp] theorem setBit_commit (a : Nat) (f : Fld) (i : Nat) : (s.setBit a f i).commit = s.commit := rfl
@[simp] theorem setBit_heldPwr (a : Nat) (f : Fld) (i : Nat) : (s.setBit a f i).heldPwr = s.heldPwr := rfl
@[simp] theorem setBit_spi (a : Nat) (f : Fld) (i : Nat) : (s.setBit a f i).spi = s.spi := rfl
@[simp] theorem setBit_bsp (a : Nat) (f : Fld) (i : Nat) : (s.setBit a f i).bsp = s.bsp := rfl
@[simp] theorem setBit_bist (a : Nat) (f : Fld) (i : Nat) : (s.setBit a f i).bist = s.bist := rfl
@[simp] theorem setBit_upsets (a : Nat) (f : Fld) (i : Nat) : (s.setBit a f i).upsets = s.upsets := rfl
@[simp] theorem setBit_blockResets (a : Nat) (f : Fld) (i : Nat) : (s.setBit a f i).blockResets = s.blockResets := rfl
@[simp] theorem setBit_react (a : Nat) (f : Fld) (i : Nat) : (s.setBit a f i).react = s.react := rfl
@[simp] theorem setBit_wdtCount (a : Nat) (f : Fld) (i : Nat) : (s.setBit a f i).wdtCount = s.wdtCount := rfl
@[simp] theorem setBit_wdtTimeout (a : Nat) (f : Fld) (i : Nat) : (s.setBit a f i).wdtTimeout = s.wdtTimeout := rfl
@[simp] theorem setBit_wdtWarn (a : Nat) (f : Fld) (i : Nat) : (s.setBit a f i).wdtWarn = s.wdtWarn := rfl
@[simp] theorem setBit_wdtWarned (a : Nat) (f : Fld) (i : Nat) : (s.setBit a f i).wdtWarned = s.wdtWarned := rfl
@[simp] theorem setBit_fns (a : Nat) (f : Fld) (i : Nat) : (s.setBit a f i).fns = s.fns := rfl
@[simp] theorem setBit_transits (a : Nat) (f : Fld) (i : Nat) : (s.setBit a f i).transits = s.transits := rfl
@[simp] theorem setBit_gone (a : Nat) (f : Fld) (i : Nat) : (s.setBit a f i).gone = s.gone := rfl
@[simp] theorem setBit_bands (a : Nat) (f : Fld) (i : Nat) : (s.setBit a f i).bands = s.bands := rfl
@[simp] theorem setBit_running (a : Nat) (f : Fld) (i : Nat) : (s.setBit a f i).running = s.running := rfl
@[simp] theorem setBit_dlv (a : Nat) (f : Fld) (i : Nat) : (s.setBit a f i).dlv = s.dlv := rfl
@[simp] theorem setBit_cas (a : Nat) (f : Fld) (i : Nat) : (s.setBit a f i).cas = s.cas := rfl
@[simp] theorem setBit_hostMem (a : Nat) (f : Fld) (i : Nat) : (s.setBit a f i).hostMem = s.hostMem := rfl
@[simp] theorem setBit_sts (a : Nat) (f : Fld) (i : Nat) : (s.setBit a f i).sts = s.sts := rfl
@[simp] theorem setBit_ws (a : Nat) (f : Fld) (i : Nat) : (s.setBit a f i).ws = s.ws := rfl
@[simp] theorem setBit_cht (a : Nat) (f : Fld) (i : Nat) : (s.setBit a f i).cht = s.cht := rfl
@[simp] theorem setBit_mceLb (a : Nat) (f : Fld) (i : Nat) : (s.setBit a f i).mceLb = s.mceLb := rfl
@[simp] theorem setBit_eleLb (a : Nat) (f : Fld) (i : Nat) : (s.setBit a f i).eleLb = s.eleLb := rfl
@[simp] theorem setBit_tdr (a : Nat) (f : Fld) (i : Nat) : (s.setBit a f i).tdr = s.tdr := rfl
@[simp] theorem setBit_freeCtr (a : Nat) (f : Fld) (i : Nat) : (s.setBit a f i).freeCtr = s.freeCtr := rfl
@[simp] theorem setBit_pending (a : Nat) (f : Fld) (i : Nat) : (s.setBit a f i).pending = s.pending := rfl

@[simp] theorem clearBit_fregs (a : Nat) (f : Fld) (i : Nat) : (s.clearBit a f i).fregs = s.fregs := by unfold State.clearBit; split <;> rfl
@[simp] theorem clearBit_shadow (a : Nat) (f : Fld) (i : Nat) : (s.clearBit a f i).shadow = s.shadow := by unfold State.clearBit; split <;> rfl
@[simp] theorem clearBit_pciePath (a : Nat) (f : Fld) (i : Nat) : (s.clearBit a f i).pciePath = s.pciePath := by unfold State.clearBit; split <;> rfl
@[simp] theorem clearBit_spiPath (a : Nat) (f : Fld) (i : Nat) : (s.clearBit a f i).spiPath = s.spiPath := by unfold State.clearBit; split <;> rfl
@[simp] theorem clearBit_clk (a : Nat) (f : Fld) (i : Nat) : (s.clearBit a f i).clk = s.clk := by unfold State.clearBit; split <;> rfl
@[simp] theorem clearBit_pw (a : Nat) (f : Fld) (i : Nat) : (s.clearBit a f i).pw = s.pw := by unfold State.clearBit; split <;> rfl
@[simp] theorem clearBit_pcie (a : Nat) (f : Fld) (i : Nat) : (s.clearBit a f i).pcie = s.pcie := by unfold State.clearBit; split <;> rfl
@[simp] theorem clearBit_sent (a : Nat) (f : Fld) (i : Nat) : (s.clearBit a f i).sent = s.sent := by unfold State.clearBit; split <;> rfl
@[simp] theorem clearBit_chart (a : Nat) (f : Fld) (i : Nat) : (s.clearBit a f i).chart = s.chart := by unfold State.clearBit; split <;> rfl
@[simp] theorem clearBit_hz (a : Nat) (f : Fld) (i : Nat) : (s.clearBit a f i).hz = s.hz := by unfold State.clearBit; split <;> rfl
@[simp] theorem clearBit_jens (a : Nat) (f : Fld) (i : Nat) : (s.clearBit a f i).jens = s.jens := by unfold State.clearBit; split <;> rfl
@[simp] theorem clearBit_lanes (a : Nat) (f : Fld) (i : Nat) : (s.clearBit a f i).lanes = s.lanes := by unfold State.clearBit; split <;> rfl
@[simp] theorem clearBit_ports (a : Nat) (f : Fld) (i : Nat) : (s.clearBit a f i).ports = s.ports := by unfold State.clearBit; split <;> rfl
@[simp] theorem clearBit_commit (a : Nat) (f : Fld) (i : Nat) : (s.clearBit a f i).commit = s.commit := by unfold State.clearBit; split <;> rfl
@[simp] theorem clearBit_heldPwr (a : Nat) (f : Fld) (i : Nat) : (s.clearBit a f i).heldPwr = s.heldPwr := by unfold State.clearBit; split <;> rfl
@[simp] theorem clearBit_spi (a : Nat) (f : Fld) (i : Nat) : (s.clearBit a f i).spi = s.spi := by unfold State.clearBit; split <;> rfl
@[simp] theorem clearBit_bsp (a : Nat) (f : Fld) (i : Nat) : (s.clearBit a f i).bsp = s.bsp := by unfold State.clearBit; split <;> rfl
@[simp] theorem clearBit_bist (a : Nat) (f : Fld) (i : Nat) : (s.clearBit a f i).bist = s.bist := by unfold State.clearBit; split <;> rfl
@[simp] theorem clearBit_upsets (a : Nat) (f : Fld) (i : Nat) : (s.clearBit a f i).upsets = s.upsets := by unfold State.clearBit; split <;> rfl
@[simp] theorem clearBit_blockResets (a : Nat) (f : Fld) (i : Nat) : (s.clearBit a f i).blockResets = s.blockResets := by unfold State.clearBit; split <;> rfl
@[simp] theorem clearBit_react (a : Nat) (f : Fld) (i : Nat) : (s.clearBit a f i).react = s.react := by unfold State.clearBit; split <;> rfl
@[simp] theorem clearBit_wdtCount (a : Nat) (f : Fld) (i : Nat) : (s.clearBit a f i).wdtCount = s.wdtCount := by unfold State.clearBit; split <;> rfl
@[simp] theorem clearBit_wdtTimeout (a : Nat) (f : Fld) (i : Nat) : (s.clearBit a f i).wdtTimeout = s.wdtTimeout := by unfold State.clearBit; split <;> rfl
@[simp] theorem clearBit_wdtWarn (a : Nat) (f : Fld) (i : Nat) : (s.clearBit a f i).wdtWarn = s.wdtWarn := by unfold State.clearBit; split <;> rfl
@[simp] theorem clearBit_wdtWarned (a : Nat) (f : Fld) (i : Nat) : (s.clearBit a f i).wdtWarned = s.wdtWarned := by unfold State.clearBit; split <;> rfl
@[simp] theorem clearBit_fns (a : Nat) (f : Fld) (i : Nat) : (s.clearBit a f i).fns = s.fns := by unfold State.clearBit; split <;> rfl
@[simp] theorem clearBit_transits (a : Nat) (f : Fld) (i : Nat) : (s.clearBit a f i).transits = s.transits := by unfold State.clearBit; split <;> rfl
@[simp] theorem clearBit_gone (a : Nat) (f : Fld) (i : Nat) : (s.clearBit a f i).gone = s.gone := by unfold State.clearBit; split <;> rfl
@[simp] theorem clearBit_bands (a : Nat) (f : Fld) (i : Nat) : (s.clearBit a f i).bands = s.bands := by unfold State.clearBit; split <;> rfl
@[simp] theorem clearBit_running (a : Nat) (f : Fld) (i : Nat) : (s.clearBit a f i).running = s.running := by unfold State.clearBit; split <;> rfl
@[simp] theorem clearBit_dlv (a : Nat) (f : Fld) (i : Nat) : (s.clearBit a f i).dlv = s.dlv := by unfold State.clearBit; split <;> rfl
@[simp] theorem clearBit_cas (a : Nat) (f : Fld) (i : Nat) : (s.clearBit a f i).cas = s.cas := by unfold State.clearBit; split <;> rfl
@[simp] theorem clearBit_hostMem (a : Nat) (f : Fld) (i : Nat) : (s.clearBit a f i).hostMem = s.hostMem := by unfold State.clearBit; split <;> rfl
@[simp] theorem clearBit_sts (a : Nat) (f : Fld) (i : Nat) : (s.clearBit a f i).sts = s.sts := by unfold State.clearBit; split <;> rfl
@[simp] theorem clearBit_ws (a : Nat) (f : Fld) (i : Nat) : (s.clearBit a f i).ws = s.ws := by unfold State.clearBit; split <;> rfl
@[simp] theorem clearBit_cht (a : Nat) (f : Fld) (i : Nat) : (s.clearBit a f i).cht = s.cht := by unfold State.clearBit; split <;> rfl
@[simp] theorem clearBit_mceLb (a : Nat) (f : Fld) (i : Nat) : (s.clearBit a f i).mceLb = s.mceLb := by unfold State.clearBit; split <;> rfl
@[simp] theorem clearBit_eleLb (a : Nat) (f : Fld) (i : Nat) : (s.clearBit a f i).eleLb = s.eleLb := by unfold State.clearBit; split <;> rfl
@[simp] theorem clearBit_tdr (a : Nat) (f : Fld) (i : Nat) : (s.clearBit a f i).tdr = s.tdr := by unfold State.clearBit; split <;> rfl
@[simp] theorem clearBit_freeCtr (a : Nat) (f : Fld) (i : Nat) : (s.clearBit a f i).freeCtr = s.freeCtr := by unfold State.clearBit; split <;> rfl
@[simp] theorem clearBit_pending (a : Nat) (f : Fld) (i : Nat) : (s.clearBit a f i).pending = s.pending := by unfold State.clearBit; split <;> rfl

@[simp] theorem putBit_fregs (a : Nat) (f : Fld) (i : Nat) (b : Bool) : (s.putBit a f i b).fregs = s.fregs := by unfold State.putBit; split <;> simp
@[simp] theorem putBit_shadow (a : Nat) (f : Fld) (i : Nat) (b : Bool) : (s.putBit a f i b).shadow = s.shadow := by unfold State.putBit; split <;> simp
@[simp] theorem putBit_pciePath (a : Nat) (f : Fld) (i : Nat) (b : Bool) : (s.putBit a f i b).pciePath = s.pciePath := by unfold State.putBit; split <;> simp
@[simp] theorem putBit_spiPath (a : Nat) (f : Fld) (i : Nat) (b : Bool) : (s.putBit a f i b).spiPath = s.spiPath := by unfold State.putBit; split <;> simp
@[simp] theorem putBit_clk (a : Nat) (f : Fld) (i : Nat) (b : Bool) : (s.putBit a f i b).clk = s.clk := by unfold State.putBit; split <;> simp
@[simp] theorem putBit_pw (a : Nat) (f : Fld) (i : Nat) (b : Bool) : (s.putBit a f i b).pw = s.pw := by unfold State.putBit; split <;> simp
@[simp] theorem putBit_pcie (a : Nat) (f : Fld) (i : Nat) (b : Bool) : (s.putBit a f i b).pcie = s.pcie := by unfold State.putBit; split <;> simp
@[simp] theorem putBit_sent (a : Nat) (f : Fld) (i : Nat) (b : Bool) : (s.putBit a f i b).sent = s.sent := by unfold State.putBit; split <;> simp
@[simp] theorem putBit_chart (a : Nat) (f : Fld) (i : Nat) (b : Bool) : (s.putBit a f i b).chart = s.chart := by unfold State.putBit; split <;> simp
@[simp] theorem putBit_hz (a : Nat) (f : Fld) (i : Nat) (b : Bool) : (s.putBit a f i b).hz = s.hz := by unfold State.putBit; split <;> simp
@[simp] theorem putBit_jens (a : Nat) (f : Fld) (i : Nat) (b : Bool) : (s.putBit a f i b).jens = s.jens := by unfold State.putBit; split <;> simp
@[simp] theorem putBit_lanes (a : Nat) (f : Fld) (i : Nat) (b : Bool) : (s.putBit a f i b).lanes = s.lanes := by unfold State.putBit; split <;> simp
@[simp] theorem putBit_ports (a : Nat) (f : Fld) (i : Nat) (b : Bool) : (s.putBit a f i b).ports = s.ports := by unfold State.putBit; split <;> simp
@[simp] theorem putBit_commit (a : Nat) (f : Fld) (i : Nat) (b : Bool) : (s.putBit a f i b).commit = s.commit := by unfold State.putBit; split <;> simp
@[simp] theorem putBit_heldPwr (a : Nat) (f : Fld) (i : Nat) (b : Bool) : (s.putBit a f i b).heldPwr = s.heldPwr := by unfold State.putBit; split <;> simp
@[simp] theorem putBit_spi (a : Nat) (f : Fld) (i : Nat) (b : Bool) : (s.putBit a f i b).spi = s.spi := by unfold State.putBit; split <;> simp
@[simp] theorem putBit_bsp (a : Nat) (f : Fld) (i : Nat) (b : Bool) : (s.putBit a f i b).bsp = s.bsp := by unfold State.putBit; split <;> simp
@[simp] theorem putBit_bist (a : Nat) (f : Fld) (i : Nat) (b : Bool) : (s.putBit a f i b).bist = s.bist := by unfold State.putBit; split <;> simp
@[simp] theorem putBit_upsets (a : Nat) (f : Fld) (i : Nat) (b : Bool) : (s.putBit a f i b).upsets = s.upsets := by unfold State.putBit; split <;> simp
@[simp] theorem putBit_blockResets (a : Nat) (f : Fld) (i : Nat) (b : Bool) : (s.putBit a f i b).blockResets = s.blockResets := by unfold State.putBit; split <;> simp
@[simp] theorem putBit_react (a : Nat) (f : Fld) (i : Nat) (b : Bool) : (s.putBit a f i b).react = s.react := by unfold State.putBit; split <;> simp
@[simp] theorem putBit_wdtCount (a : Nat) (f : Fld) (i : Nat) (b : Bool) : (s.putBit a f i b).wdtCount = s.wdtCount := by unfold State.putBit; split <;> simp
@[simp] theorem putBit_wdtTimeout (a : Nat) (f : Fld) (i : Nat) (b : Bool) : (s.putBit a f i b).wdtTimeout = s.wdtTimeout := by unfold State.putBit; split <;> simp
@[simp] theorem putBit_wdtWarn (a : Nat) (f : Fld) (i : Nat) (b : Bool) : (s.putBit a f i b).wdtWarn = s.wdtWarn := by unfold State.putBit; split <;> simp
@[simp] theorem putBit_wdtWarned (a : Nat) (f : Fld) (i : Nat) (b : Bool) : (s.putBit a f i b).wdtWarned = s.wdtWarned := by unfold State.putBit; split <;> simp
@[simp] theorem putBit_fns (a : Nat) (f : Fld) (i : Nat) (b : Bool) : (s.putBit a f i b).fns = s.fns := by unfold State.putBit; split <;> simp
@[simp] theorem putBit_transits (a : Nat) (f : Fld) (i : Nat) (b : Bool) : (s.putBit a f i b).transits = s.transits := by unfold State.putBit; split <;> simp
@[simp] theorem putBit_gone (a : Nat) (f : Fld) (i : Nat) (b : Bool) : (s.putBit a f i b).gone = s.gone := by unfold State.putBit; split <;> simp
@[simp] theorem putBit_bands (a : Nat) (f : Fld) (i : Nat) (b : Bool) : (s.putBit a f i b).bands = s.bands := by unfold State.putBit; split <;> simp
@[simp] theorem putBit_running (a : Nat) (f : Fld) (i : Nat) (b : Bool) : (s.putBit a f i b).running = s.running := by unfold State.putBit; split <;> simp
@[simp] theorem putBit_dlv (a : Nat) (f : Fld) (i : Nat) (b : Bool) : (s.putBit a f i b).dlv = s.dlv := by unfold State.putBit; split <;> simp
@[simp] theorem putBit_cas (a : Nat) (f : Fld) (i : Nat) (b : Bool) : (s.putBit a f i b).cas = s.cas := by unfold State.putBit; split <;> simp
@[simp] theorem putBit_hostMem (a : Nat) (f : Fld) (i : Nat) (b : Bool) : (s.putBit a f i b).hostMem = s.hostMem := by unfold State.putBit; split <;> simp
@[simp] theorem putBit_sts (a : Nat) (f : Fld) (i : Nat) (b : Bool) : (s.putBit a f i b).sts = s.sts := by unfold State.putBit; split <;> simp
@[simp] theorem putBit_ws (a : Nat) (f : Fld) (i : Nat) (b : Bool) : (s.putBit a f i b).ws = s.ws := by unfold State.putBit; split <;> simp
@[simp] theorem putBit_cht (a : Nat) (f : Fld) (i : Nat) (b : Bool) : (s.putBit a f i b).cht = s.cht := by unfold State.putBit; split <;> simp
@[simp] theorem putBit_mceLb (a : Nat) (f : Fld) (i : Nat) (b : Bool) : (s.putBit a f i b).mceLb = s.mceLb := by unfold State.putBit; split <;> simp
@[simp] theorem putBit_eleLb (a : Nat) (f : Fld) (i : Nat) (b : Bool) : (s.putBit a f i b).eleLb = s.eleLb := by unfold State.putBit; split <;> simp
@[simp] theorem putBit_tdr (a : Nat) (f : Fld) (i : Nat) (b : Bool) : (s.putBit a f i b).tdr = s.tdr := by unfold State.putBit; split <;> simp
@[simp] theorem putBit_freeCtr (a : Nat) (f : Fld) (i : Nat) (b : Bool) : (s.putBit a f i b).freeCtr = s.freeCtr := by unfold State.putBit; split <;> simp
@[simp] theorem putBit_pending (a : Nat) (f : Fld) (i : Nat) (b : Bool) : (s.putBit a f i b).pending = s.pending := by unfold State.putBit; split <;> simp

@[simp] theorem setPair_fregs (lo hi v : Nat) : (s.setPair lo hi v).fregs = s.fregs := rfl
@[simp] theorem setPair_shadow (lo hi v : Nat) : (s.setPair lo hi v).shadow = s.shadow := rfl
@[simp] theorem setPair_pciePath (lo hi v : Nat) : (s.setPair lo hi v).pciePath = s.pciePath := rfl
@[simp] theorem setPair_spiPath (lo hi v : Nat) : (s.setPair lo hi v).spiPath = s.spiPath := rfl
@[simp] theorem setPair_clk (lo hi v : Nat) : (s.setPair lo hi v).clk = s.clk := rfl
@[simp] theorem setPair_pw (lo hi v : Nat) : (s.setPair lo hi v).pw = s.pw := rfl
@[simp] theorem setPair_pcie (lo hi v : Nat) : (s.setPair lo hi v).pcie = s.pcie := rfl
@[simp] theorem setPair_sent (lo hi v : Nat) : (s.setPair lo hi v).sent = s.sent := rfl
@[simp] theorem setPair_chart (lo hi v : Nat) : (s.setPair lo hi v).chart = s.chart := rfl
@[simp] theorem setPair_hz (lo hi v : Nat) : (s.setPair lo hi v).hz = s.hz := rfl
@[simp] theorem setPair_jens (lo hi v : Nat) : (s.setPair lo hi v).jens = s.jens := rfl
@[simp] theorem setPair_lanes (lo hi v : Nat) : (s.setPair lo hi v).lanes = s.lanes := rfl
@[simp] theorem setPair_ports (lo hi v : Nat) : (s.setPair lo hi v).ports = s.ports := rfl
@[simp] theorem setPair_commit (lo hi v : Nat) : (s.setPair lo hi v).commit = s.commit := rfl
@[simp] theorem setPair_heldPwr (lo hi v : Nat) : (s.setPair lo hi v).heldPwr = s.heldPwr := rfl
@[simp] theorem setPair_spi (lo hi v : Nat) : (s.setPair lo hi v).spi = s.spi := rfl
@[simp] theorem setPair_bsp (lo hi v : Nat) : (s.setPair lo hi v).bsp = s.bsp := rfl
@[simp] theorem setPair_bist (lo hi v : Nat) : (s.setPair lo hi v).bist = s.bist := rfl
@[simp] theorem setPair_upsets (lo hi v : Nat) : (s.setPair lo hi v).upsets = s.upsets := rfl
@[simp] theorem setPair_blockResets (lo hi v : Nat) : (s.setPair lo hi v).blockResets = s.blockResets := rfl
@[simp] theorem setPair_react (lo hi v : Nat) : (s.setPair lo hi v).react = s.react := rfl
@[simp] theorem setPair_wdtCount (lo hi v : Nat) : (s.setPair lo hi v).wdtCount = s.wdtCount := rfl
@[simp] theorem setPair_wdtTimeout (lo hi v : Nat) : (s.setPair lo hi v).wdtTimeout = s.wdtTimeout := rfl
@[simp] theorem setPair_wdtWarn (lo hi v : Nat) : (s.setPair lo hi v).wdtWarn = s.wdtWarn := rfl
@[simp] theorem setPair_wdtWarned (lo hi v : Nat) : (s.setPair lo hi v).wdtWarned = s.wdtWarned := rfl
@[simp] theorem setPair_fns (lo hi v : Nat) : (s.setPair lo hi v).fns = s.fns := rfl
@[simp] theorem setPair_transits (lo hi v : Nat) : (s.setPair lo hi v).transits = s.transits := rfl
@[simp] theorem setPair_gone (lo hi v : Nat) : (s.setPair lo hi v).gone = s.gone := rfl
@[simp] theorem setPair_bands (lo hi v : Nat) : (s.setPair lo hi v).bands = s.bands := rfl
@[simp] theorem setPair_running (lo hi v : Nat) : (s.setPair lo hi v).running = s.running := rfl
@[simp] theorem setPair_dlv (lo hi v : Nat) : (s.setPair lo hi v).dlv = s.dlv := rfl
@[simp] theorem setPair_cas (lo hi v : Nat) : (s.setPair lo hi v).cas = s.cas := rfl
@[simp] theorem setPair_hostMem (lo hi v : Nat) : (s.setPair lo hi v).hostMem = s.hostMem := rfl
@[simp] theorem setPair_sts (lo hi v : Nat) : (s.setPair lo hi v).sts = s.sts := rfl
@[simp] theorem setPair_ws (lo hi v : Nat) : (s.setPair lo hi v).ws = s.ws := rfl
@[simp] theorem setPair_cht (lo hi v : Nat) : (s.setPair lo hi v).cht = s.cht := rfl
@[simp] theorem setPair_mceLb (lo hi v : Nat) : (s.setPair lo hi v).mceLb = s.mceLb := rfl
@[simp] theorem setPair_eleLb (lo hi v : Nat) : (s.setPair lo hi v).eleLb = s.eleLb := rfl
@[simp] theorem setPair_tdr (lo hi v : Nat) : (s.setPair lo hi v).tdr = s.tdr := rfl
@[simp] theorem setPair_freeCtr (lo hi v : Nat) : (s.setPair lo hi v).freeCtr = s.freeCtr := rfl
@[simp] theorem setPair_pending (lo hi v : Nat) : (s.setPair lo hi v).pending = s.pending := rfl

@[simp] theorem setJreg_regs (a : Nat) (v : Word) : (s.setJreg a v).regs = s.regs := rfl
@[simp] theorem setJreg_shadow (a : Nat) (v : Word) : (s.setJreg a v).shadow = s.shadow := rfl
@[simp] theorem setJreg_pciePath (a : Nat) (v : Word) : (s.setJreg a v).pciePath = s.pciePath := rfl
@[simp] theorem setJreg_spiPath (a : Nat) (v : Word) : (s.setJreg a v).spiPath = s.spiPath := rfl
@[simp] theorem setJreg_clk (a : Nat) (v : Word) : (s.setJreg a v).clk = s.clk := rfl
@[simp] theorem setJreg_pw (a : Nat) (v : Word) : (s.setJreg a v).pw = s.pw := rfl
@[simp] theorem setJreg_pcie (a : Nat) (v : Word) : (s.setJreg a v).pcie = s.pcie := rfl
@[simp] theorem setJreg_sent (a : Nat) (v : Word) : (s.setJreg a v).sent = s.sent := rfl
@[simp] theorem setJreg_chart (a : Nat) (v : Word) : (s.setJreg a v).chart = s.chart := rfl
@[simp] theorem setJreg_hz (a : Nat) (v : Word) : (s.setJreg a v).hz = s.hz := rfl
@[simp] theorem setJreg_jens (a : Nat) (v : Word) : (s.setJreg a v).jens = s.jens := rfl
@[simp] theorem setJreg_lanes (a : Nat) (v : Word) : (s.setJreg a v).lanes = s.lanes := rfl
@[simp] theorem setJreg_ports (a : Nat) (v : Word) : (s.setJreg a v).ports = s.ports := rfl
@[simp] theorem setJreg_commit (a : Nat) (v : Word) : (s.setJreg a v).commit = s.commit := rfl
@[simp] theorem setJreg_heldPwr (a : Nat) (v : Word) : (s.setJreg a v).heldPwr = s.heldPwr := rfl
@[simp] theorem setJreg_spi (a : Nat) (v : Word) : (s.setJreg a v).spi = s.spi := rfl
@[simp] theorem setJreg_bsp (a : Nat) (v : Word) : (s.setJreg a v).bsp = s.bsp := rfl
@[simp] theorem setJreg_bist (a : Nat) (v : Word) : (s.setJreg a v).bist = s.bist := rfl
@[simp] theorem setJreg_upsets (a : Nat) (v : Word) : (s.setJreg a v).upsets = s.upsets := rfl
@[simp] theorem setJreg_blockResets (a : Nat) (v : Word) : (s.setJreg a v).blockResets = s.blockResets := rfl
@[simp] theorem setJreg_react (a : Nat) (v : Word) : (s.setJreg a v).react = s.react := rfl
@[simp] theorem setJreg_wdtCount (a : Nat) (v : Word) : (s.setJreg a v).wdtCount = s.wdtCount := rfl
@[simp] theorem setJreg_wdtTimeout (a : Nat) (v : Word) : (s.setJreg a v).wdtTimeout = s.wdtTimeout := rfl
@[simp] theorem setJreg_wdtWarn (a : Nat) (v : Word) : (s.setJreg a v).wdtWarn = s.wdtWarn := rfl
@[simp] theorem setJreg_wdtWarned (a : Nat) (v : Word) : (s.setJreg a v).wdtWarned = s.wdtWarned := rfl
@[simp] theorem setJreg_fns (a : Nat) (v : Word) : (s.setJreg a v).fns = s.fns := rfl
@[simp] theorem setJreg_transits (a : Nat) (v : Word) : (s.setJreg a v).transits = s.transits := rfl
@[simp] theorem setJreg_gone (a : Nat) (v : Word) : (s.setJreg a v).gone = s.gone := rfl
@[simp] theorem setJreg_bands (a : Nat) (v : Word) : (s.setJreg a v).bands = s.bands := rfl
@[simp] theorem setJreg_running (a : Nat) (v : Word) : (s.setJreg a v).running = s.running := rfl
@[simp] theorem setJreg_dlv (a : Nat) (v : Word) : (s.setJreg a v).dlv = s.dlv := rfl
@[simp] theorem setJreg_cas (a : Nat) (v : Word) : (s.setJreg a v).cas = s.cas := rfl
@[simp] theorem setJreg_hostMem (a : Nat) (v : Word) : (s.setJreg a v).hostMem = s.hostMem := rfl
@[simp] theorem setJreg_sts (a : Nat) (v : Word) : (s.setJreg a v).sts = s.sts := rfl
@[simp] theorem setJreg_ws (a : Nat) (v : Word) : (s.setJreg a v).ws = s.ws := rfl
@[simp] theorem setJreg_cht (a : Nat) (v : Word) : (s.setJreg a v).cht = s.cht := rfl
@[simp] theorem setJreg_mceLb (a : Nat) (v : Word) : (s.setJreg a v).mceLb = s.mceLb := rfl
@[simp] theorem setJreg_eleLb (a : Nat) (v : Word) : (s.setJreg a v).eleLb = s.eleLb := rfl
@[simp] theorem setJreg_tdr (a : Nat) (v : Word) : (s.setJreg a v).tdr = s.tdr := rfl
@[simp] theorem setJreg_freeCtr (a : Nat) (v : Word) : (s.setJreg a v).freeCtr = s.freeCtr := rfl
@[simp] theorem setJreg_pending (a : Nat) (v : Word) : (s.setJreg a v).pending = s.pending := rfl

@[simp] theorem jput_regs (a : Nat) (f : Fld) (v : Nat) : (s.jput a f v).regs = s.regs := rfl
@[simp] theorem jput_shadow (a : Nat) (f : Fld) (v : Nat) : (s.jput a f v).shadow = s.shadow := rfl
@[simp] theorem jput_pciePath (a : Nat) (f : Fld) (v : Nat) : (s.jput a f v).pciePath = s.pciePath := rfl
@[simp] theorem jput_spiPath (a : Nat) (f : Fld) (v : Nat) : (s.jput a f v).spiPath = s.spiPath := rfl
@[simp] theorem jput_clk (a : Nat) (f : Fld) (v : Nat) : (s.jput a f v).clk = s.clk := rfl
@[simp] theorem jput_pw (a : Nat) (f : Fld) (v : Nat) : (s.jput a f v).pw = s.pw := rfl
@[simp] theorem jput_pcie (a : Nat) (f : Fld) (v : Nat) : (s.jput a f v).pcie = s.pcie := rfl
@[simp] theorem jput_sent (a : Nat) (f : Fld) (v : Nat) : (s.jput a f v).sent = s.sent := rfl
@[simp] theorem jput_chart (a : Nat) (f : Fld) (v : Nat) : (s.jput a f v).chart = s.chart := rfl
@[simp] theorem jput_hz (a : Nat) (f : Fld) (v : Nat) : (s.jput a f v).hz = s.hz := rfl
@[simp] theorem jput_jens (a : Nat) (f : Fld) (v : Nat) : (s.jput a f v).jens = s.jens := rfl
@[simp] theorem jput_lanes (a : Nat) (f : Fld) (v : Nat) : (s.jput a f v).lanes = s.lanes := rfl
@[simp] theorem jput_ports (a : Nat) (f : Fld) (v : Nat) : (s.jput a f v).ports = s.ports := rfl
@[simp] theorem jput_commit (a : Nat) (f : Fld) (v : Nat) : (s.jput a f v).commit = s.commit := rfl
@[simp] theorem jput_heldPwr (a : Nat) (f : Fld) (v : Nat) : (s.jput a f v).heldPwr = s.heldPwr := rfl
@[simp] theorem jput_spi (a : Nat) (f : Fld) (v : Nat) : (s.jput a f v).spi = s.spi := rfl
@[simp] theorem jput_bsp (a : Nat) (f : Fld) (v : Nat) : (s.jput a f v).bsp = s.bsp := rfl
@[simp] theorem jput_bist (a : Nat) (f : Fld) (v : Nat) : (s.jput a f v).bist = s.bist := rfl
@[simp] theorem jput_upsets (a : Nat) (f : Fld) (v : Nat) : (s.jput a f v).upsets = s.upsets := rfl
@[simp] theorem jput_blockResets (a : Nat) (f : Fld) (v : Nat) : (s.jput a f v).blockResets = s.blockResets := rfl
@[simp] theorem jput_react (a : Nat) (f : Fld) (v : Nat) : (s.jput a f v).react = s.react := rfl
@[simp] theorem jput_wdtCount (a : Nat) (f : Fld) (v : Nat) : (s.jput a f v).wdtCount = s.wdtCount := rfl
@[simp] theorem jput_wdtTimeout (a : Nat) (f : Fld) (v : Nat) : (s.jput a f v).wdtTimeout = s.wdtTimeout := rfl
@[simp] theorem jput_wdtWarn (a : Nat) (f : Fld) (v : Nat) : (s.jput a f v).wdtWarn = s.wdtWarn := rfl
@[simp] theorem jput_wdtWarned (a : Nat) (f : Fld) (v : Nat) : (s.jput a f v).wdtWarned = s.wdtWarned := rfl
@[simp] theorem jput_fns (a : Nat) (f : Fld) (v : Nat) : (s.jput a f v).fns = s.fns := rfl
@[simp] theorem jput_transits (a : Nat) (f : Fld) (v : Nat) : (s.jput a f v).transits = s.transits := rfl
@[simp] theorem jput_gone (a : Nat) (f : Fld) (v : Nat) : (s.jput a f v).gone = s.gone := rfl
@[simp] theorem jput_bands (a : Nat) (f : Fld) (v : Nat) : (s.jput a f v).bands = s.bands := rfl
@[simp] theorem jput_running (a : Nat) (f : Fld) (v : Nat) : (s.jput a f v).running = s.running := rfl
@[simp] theorem jput_dlv (a : Nat) (f : Fld) (v : Nat) : (s.jput a f v).dlv = s.dlv := rfl
@[simp] theorem jput_cas (a : Nat) (f : Fld) (v : Nat) : (s.jput a f v).cas = s.cas := rfl
@[simp] theorem jput_hostMem (a : Nat) (f : Fld) (v : Nat) : (s.jput a f v).hostMem = s.hostMem := rfl
@[simp] theorem jput_sts (a : Nat) (f : Fld) (v : Nat) : (s.jput a f v).sts = s.sts := rfl
@[simp] theorem jput_ws (a : Nat) (f : Fld) (v : Nat) : (s.jput a f v).ws = s.ws := rfl
@[simp] theorem jput_cht (a : Nat) (f : Fld) (v : Nat) : (s.jput a f v).cht = s.cht := rfl
@[simp] theorem jput_mceLb (a : Nat) (f : Fld) (v : Nat) : (s.jput a f v).mceLb = s.mceLb := rfl
@[simp] theorem jput_eleLb (a : Nat) (f : Fld) (v : Nat) : (s.jput a f v).eleLb = s.eleLb := rfl
@[simp] theorem jput_tdr (a : Nat) (f : Fld) (v : Nat) : (s.jput a f v).tdr = s.tdr := rfl
@[simp] theorem jput_freeCtr (a : Nat) (f : Fld) (v : Nat) : (s.jput a f v).freeCtr = s.freeCtr := rfl
@[simp] theorem jput_pending (a : Nat) (f : Fld) (v : Nat) : (s.jput a f v).pending = s.pending := rfl

@[simp] theorem jputFlag_regs (a : Nat) (f : Fld) (b : Bool) : (s.jputFlag a f b).regs = s.regs := rfl
@[simp] theorem jputFlag_shadow (a : Nat) (f : Fld) (b : Bool) : (s.jputFlag a f b).shadow = s.shadow := rfl
@[simp] theorem jputFlag_pciePath (a : Nat) (f : Fld) (b : Bool) : (s.jputFlag a f b).pciePath = s.pciePath := rfl
@[simp] theorem jputFlag_spiPath (a : Nat) (f : Fld) (b : Bool) : (s.jputFlag a f b).spiPath = s.spiPath := rfl
@[simp] theorem jputFlag_clk (a : Nat) (f : Fld) (b : Bool) : (s.jputFlag a f b).clk = s.clk := rfl
@[simp] theorem jputFlag_pw (a : Nat) (f : Fld) (b : Bool) : (s.jputFlag a f b).pw = s.pw := rfl
@[simp] theorem jputFlag_pcie (a : Nat) (f : Fld) (b : Bool) : (s.jputFlag a f b).pcie = s.pcie := rfl
@[simp] theorem jputFlag_sent (a : Nat) (f : Fld) (b : Bool) : (s.jputFlag a f b).sent = s.sent := rfl
@[simp] theorem jputFlag_chart (a : Nat) (f : Fld) (b : Bool) : (s.jputFlag a f b).chart = s.chart := rfl
@[simp] theorem jputFlag_hz (a : Nat) (f : Fld) (b : Bool) : (s.jputFlag a f b).hz = s.hz := rfl
@[simp] theorem jputFlag_jens (a : Nat) (f : Fld) (b : Bool) : (s.jputFlag a f b).jens = s.jens := rfl
@[simp] theorem jputFlag_lanes (a : Nat) (f : Fld) (b : Bool) : (s.jputFlag a f b).lanes = s.lanes := rfl
@[simp] theorem jputFlag_ports (a : Nat) (f : Fld) (b : Bool) : (s.jputFlag a f b).ports = s.ports := rfl
@[simp] theorem jputFlag_commit (a : Nat) (f : Fld) (b : Bool) : (s.jputFlag a f b).commit = s.commit := rfl
@[simp] theorem jputFlag_heldPwr (a : Nat) (f : Fld) (b : Bool) : (s.jputFlag a f b).heldPwr = s.heldPwr := rfl
@[simp] theorem jputFlag_spi (a : Nat) (f : Fld) (b : Bool) : (s.jputFlag a f b).spi = s.spi := rfl
@[simp] theorem jputFlag_bsp (a : Nat) (f : Fld) (b : Bool) : (s.jputFlag a f b).bsp = s.bsp := rfl
@[simp] theorem jputFlag_bist (a : Nat) (f : Fld) (b : Bool) : (s.jputFlag a f b).bist = s.bist := rfl
@[simp] theorem jputFlag_upsets (a : Nat) (f : Fld) (b : Bool) : (s.jputFlag a f b).upsets = s.upsets := rfl
@[simp] theorem jputFlag_blockResets (a : Nat) (f : Fld) (b : Bool) : (s.jputFlag a f b).blockResets = s.blockResets := rfl
@[simp] theorem jputFlag_react (a : Nat) (f : Fld) (b : Bool) : (s.jputFlag a f b).react = s.react := rfl
@[simp] theorem jputFlag_wdtCount (a : Nat) (f : Fld) (b : Bool) : (s.jputFlag a f b).wdtCount = s.wdtCount := rfl
@[simp] theorem jputFlag_wdtTimeout (a : Nat) (f : Fld) (b : Bool) : (s.jputFlag a f b).wdtTimeout = s.wdtTimeout := rfl
@[simp] theorem jputFlag_wdtWarn (a : Nat) (f : Fld) (b : Bool) : (s.jputFlag a f b).wdtWarn = s.wdtWarn := rfl
@[simp] theorem jputFlag_wdtWarned (a : Nat) (f : Fld) (b : Bool) : (s.jputFlag a f b).wdtWarned = s.wdtWarned := rfl
@[simp] theorem jputFlag_fns (a : Nat) (f : Fld) (b : Bool) : (s.jputFlag a f b).fns = s.fns := rfl
@[simp] theorem jputFlag_transits (a : Nat) (f : Fld) (b : Bool) : (s.jputFlag a f b).transits = s.transits := rfl
@[simp] theorem jputFlag_gone (a : Nat) (f : Fld) (b : Bool) : (s.jputFlag a f b).gone = s.gone := rfl
@[simp] theorem jputFlag_bands (a : Nat) (f : Fld) (b : Bool) : (s.jputFlag a f b).bands = s.bands := rfl
@[simp] theorem jputFlag_running (a : Nat) (f : Fld) (b : Bool) : (s.jputFlag a f b).running = s.running := rfl
@[simp] theorem jputFlag_dlv (a : Nat) (f : Fld) (b : Bool) : (s.jputFlag a f b).dlv = s.dlv := rfl
@[simp] theorem jputFlag_cas (a : Nat) (f : Fld) (b : Bool) : (s.jputFlag a f b).cas = s.cas := rfl
@[simp] theorem jputFlag_hostMem (a : Nat) (f : Fld) (b : Bool) : (s.jputFlag a f b).hostMem = s.hostMem := rfl
@[simp] theorem jputFlag_sts (a : Nat) (f : Fld) (b : Bool) : (s.jputFlag a f b).sts = s.sts := rfl
@[simp] theorem jputFlag_ws (a : Nat) (f : Fld) (b : Bool) : (s.jputFlag a f b).ws = s.ws := rfl
@[simp] theorem jputFlag_cht (a : Nat) (f : Fld) (b : Bool) : (s.jputFlag a f b).cht = s.cht := rfl
@[simp] theorem jputFlag_mceLb (a : Nat) (f : Fld) (b : Bool) : (s.jputFlag a f b).mceLb = s.mceLb := rfl
@[simp] theorem jputFlag_eleLb (a : Nat) (f : Fld) (b : Bool) : (s.jputFlag a f b).eleLb = s.eleLb := rfl
@[simp] theorem jputFlag_tdr (a : Nat) (f : Fld) (b : Bool) : (s.jputFlag a f b).tdr = s.tdr := rfl
@[simp] theorem jputFlag_freeCtr (a : Nat) (f : Fld) (b : Bool) : (s.jputFlag a f b).freeCtr = s.freeCtr := rfl
@[simp] theorem jputFlag_pending (a : Nat) (f : Fld) (b : Bool) : (s.jputFlag a f b).pending = s.pending := rfl

@[simp] theorem jbump_regs (a : Nat) (f : Fld) : (s.jbump a f).regs = s.regs := rfl
@[simp] theorem jbump_shadow (a : Nat) (f : Fld) : (s.jbump a f).shadow = s.shadow := rfl
@[simp] theorem jbump_pciePath (a : Nat) (f : Fld) : (s.jbump a f).pciePath = s.pciePath := rfl
@[simp] theorem jbump_spiPath (a : Nat) (f : Fld) : (s.jbump a f).spiPath = s.spiPath := rfl
@[simp] theorem jbump_clk (a : Nat) (f : Fld) : (s.jbump a f).clk = s.clk := rfl
@[simp] theorem jbump_pw (a : Nat) (f : Fld) : (s.jbump a f).pw = s.pw := rfl
@[simp] theorem jbump_pcie (a : Nat) (f : Fld) : (s.jbump a f).pcie = s.pcie := rfl
@[simp] theorem jbump_sent (a : Nat) (f : Fld) : (s.jbump a f).sent = s.sent := rfl
@[simp] theorem jbump_chart (a : Nat) (f : Fld) : (s.jbump a f).chart = s.chart := rfl
@[simp] theorem jbump_hz (a : Nat) (f : Fld) : (s.jbump a f).hz = s.hz := rfl
@[simp] theorem jbump_jens (a : Nat) (f : Fld) : (s.jbump a f).jens = s.jens := rfl
@[simp] theorem jbump_lanes (a : Nat) (f : Fld) : (s.jbump a f).lanes = s.lanes := rfl
@[simp] theorem jbump_ports (a : Nat) (f : Fld) : (s.jbump a f).ports = s.ports := rfl
@[simp] theorem jbump_commit (a : Nat) (f : Fld) : (s.jbump a f).commit = s.commit := rfl
@[simp] theorem jbump_heldPwr (a : Nat) (f : Fld) : (s.jbump a f).heldPwr = s.heldPwr := rfl
@[simp] theorem jbump_spi (a : Nat) (f : Fld) : (s.jbump a f).spi = s.spi := rfl
@[simp] theorem jbump_bsp (a : Nat) (f : Fld) : (s.jbump a f).bsp = s.bsp := rfl
@[simp] theorem jbump_bist (a : Nat) (f : Fld) : (s.jbump a f).bist = s.bist := rfl
@[simp] theorem jbump_upsets (a : Nat) (f : Fld) : (s.jbump a f).upsets = s.upsets := rfl
@[simp] theorem jbump_blockResets (a : Nat) (f : Fld) : (s.jbump a f).blockResets = s.blockResets := rfl
@[simp] theorem jbump_react (a : Nat) (f : Fld) : (s.jbump a f).react = s.react := rfl
@[simp] theorem jbump_wdtCount (a : Nat) (f : Fld) : (s.jbump a f).wdtCount = s.wdtCount := rfl
@[simp] theorem jbump_wdtTimeout (a : Nat) (f : Fld) : (s.jbump a f).wdtTimeout = s.wdtTimeout := rfl
@[simp] theorem jbump_wdtWarn (a : Nat) (f : Fld) : (s.jbump a f).wdtWarn = s.wdtWarn := rfl
@[simp] theorem jbump_wdtWarned (a : Nat) (f : Fld) : (s.jbump a f).wdtWarned = s.wdtWarned := rfl
@[simp] theorem jbump_fns (a : Nat) (f : Fld) : (s.jbump a f).fns = s.fns := rfl
@[simp] theorem jbump_transits (a : Nat) (f : Fld) : (s.jbump a f).transits = s.transits := rfl
@[simp] theorem jbump_gone (a : Nat) (f : Fld) : (s.jbump a f).gone = s.gone := rfl
@[simp] theorem jbump_bands (a : Nat) (f : Fld) : (s.jbump a f).bands = s.bands := rfl
@[simp] theorem jbump_running (a : Nat) (f : Fld) : (s.jbump a f).running = s.running := rfl
@[simp] theorem jbump_dlv (a : Nat) (f : Fld) : (s.jbump a f).dlv = s.dlv := rfl
@[simp] theorem jbump_cas (a : Nat) (f : Fld) : (s.jbump a f).cas = s.cas := rfl
@[simp] theorem jbump_hostMem (a : Nat) (f : Fld) : (s.jbump a f).hostMem = s.hostMem := rfl
@[simp] theorem jbump_sts (a : Nat) (f : Fld) : (s.jbump a f).sts = s.sts := rfl
@[simp] theorem jbump_ws (a : Nat) (f : Fld) : (s.jbump a f).ws = s.ws := rfl
@[simp] theorem jbump_cht (a : Nat) (f : Fld) : (s.jbump a f).cht = s.cht := rfl
@[simp] theorem jbump_mceLb (a : Nat) (f : Fld) : (s.jbump a f).mceLb = s.mceLb := rfl
@[simp] theorem jbump_eleLb (a : Nat) (f : Fld) : (s.jbump a f).eleLb = s.eleLb := rfl
@[simp] theorem jbump_tdr (a : Nat) (f : Fld) : (s.jbump a f).tdr = s.tdr := rfl
@[simp] theorem jbump_freeCtr (a : Nat) (f : Fld) : (s.jbump a f).freeCtr = s.freeCtr := rfl
@[simp] theorem jbump_pending (a : Nat) (f : Fld) : (s.jbump a f).pending = s.pending := rfl

@[simp] theorem jwrap_regs (a : Nat) (f : Fld) (n : Nat) : (s.jwrap a f n).regs = s.regs := rfl
@[simp] theorem jwrap_shadow (a : Nat) (f : Fld) (n : Nat) : (s.jwrap a f n).shadow = s.shadow := rfl
@[simp] theorem jwrap_pciePath (a : Nat) (f : Fld) (n : Nat) : (s.jwrap a f n).pciePath = s.pciePath := rfl
@[simp] theorem jwrap_spiPath (a : Nat) (f : Fld) (n : Nat) : (s.jwrap a f n).spiPath = s.spiPath := rfl
@[simp] theorem jwrap_clk (a : Nat) (f : Fld) (n : Nat) : (s.jwrap a f n).clk = s.clk := rfl
@[simp] theorem jwrap_pw (a : Nat) (f : Fld) (n : Nat) : (s.jwrap a f n).pw = s.pw := rfl
@[simp] theorem jwrap_pcie (a : Nat) (f : Fld) (n : Nat) : (s.jwrap a f n).pcie = s.pcie := rfl
@[simp] theorem jwrap_sent (a : Nat) (f : Fld) (n : Nat) : (s.jwrap a f n).sent = s.sent := rfl
@[simp] theorem jwrap_chart (a : Nat) (f : Fld) (n : Nat) : (s.jwrap a f n).chart = s.chart := rfl
@[simp] theorem jwrap_hz (a : Nat) (f : Fld) (n : Nat) : (s.jwrap a f n).hz = s.hz := rfl
@[simp] theorem jwrap_jens (a : Nat) (f : Fld) (n : Nat) : (s.jwrap a f n).jens = s.jens := rfl
@[simp] theorem jwrap_lanes (a : Nat) (f : Fld) (n : Nat) : (s.jwrap a f n).lanes = s.lanes := rfl
@[simp] theorem jwrap_ports (a : Nat) (f : Fld) (n : Nat) : (s.jwrap a f n).ports = s.ports := rfl
@[simp] theorem jwrap_commit (a : Nat) (f : Fld) (n : Nat) : (s.jwrap a f n).commit = s.commit := rfl
@[simp] theorem jwrap_heldPwr (a : Nat) (f : Fld) (n : Nat) : (s.jwrap a f n).heldPwr = s.heldPwr := rfl
@[simp] theorem jwrap_spi (a : Nat) (f : Fld) (n : Nat) : (s.jwrap a f n).spi = s.spi := rfl
@[simp] theorem jwrap_bsp (a : Nat) (f : Fld) (n : Nat) : (s.jwrap a f n).bsp = s.bsp := rfl
@[simp] theorem jwrap_bist (a : Nat) (f : Fld) (n : Nat) : (s.jwrap a f n).bist = s.bist := rfl
@[simp] theorem jwrap_upsets (a : Nat) (f : Fld) (n : Nat) : (s.jwrap a f n).upsets = s.upsets := rfl
@[simp] theorem jwrap_blockResets (a : Nat) (f : Fld) (n : Nat) : (s.jwrap a f n).blockResets = s.blockResets := rfl
@[simp] theorem jwrap_react (a : Nat) (f : Fld) (n : Nat) : (s.jwrap a f n).react = s.react := rfl
@[simp] theorem jwrap_wdtCount (a : Nat) (f : Fld) (n : Nat) : (s.jwrap a f n).wdtCount = s.wdtCount := rfl
@[simp] theorem jwrap_wdtTimeout (a : Nat) (f : Fld) (n : Nat) : (s.jwrap a f n).wdtTimeout = s.wdtTimeout := rfl
@[simp] theorem jwrap_wdtWarn (a : Nat) (f : Fld) (n : Nat) : (s.jwrap a f n).wdtWarn = s.wdtWarn := rfl
@[simp] theorem jwrap_wdtWarned (a : Nat) (f : Fld) (n : Nat) : (s.jwrap a f n).wdtWarned = s.wdtWarned := rfl
@[simp] theorem jwrap_fns (a : Nat) (f : Fld) (n : Nat) : (s.jwrap a f n).fns = s.fns := rfl
@[simp] theorem jwrap_transits (a : Nat) (f : Fld) (n : Nat) : (s.jwrap a f n).transits = s.transits := rfl
@[simp] theorem jwrap_gone (a : Nat) (f : Fld) (n : Nat) : (s.jwrap a f n).gone = s.gone := rfl
@[simp] theorem jwrap_bands (a : Nat) (f : Fld) (n : Nat) : (s.jwrap a f n).bands = s.bands := rfl
@[simp] theorem jwrap_running (a : Nat) (f : Fld) (n : Nat) : (s.jwrap a f n).running = s.running := rfl
@[simp] theorem jwrap_dlv (a : Nat) (f : Fld) (n : Nat) : (s.jwrap a f n).dlv = s.dlv := rfl
@[simp] theorem jwrap_cas (a : Nat) (f : Fld) (n : Nat) : (s.jwrap a f n).cas = s.cas := rfl
@[simp] theorem jwrap_hostMem (a : Nat) (f : Fld) (n : Nat) : (s.jwrap a f n).hostMem = s.hostMem := rfl
@[simp] theorem jwrap_sts (a : Nat) (f : Fld) (n : Nat) : (s.jwrap a f n).sts = s.sts := rfl
@[simp] theorem jwrap_ws (a : Nat) (f : Fld) (n : Nat) : (s.jwrap a f n).ws = s.ws := rfl
@[simp] theorem jwrap_cht (a : Nat) (f : Fld) (n : Nat) : (s.jwrap a f n).cht = s.cht := rfl
@[simp] theorem jwrap_mceLb (a : Nat) (f : Fld) (n : Nat) : (s.jwrap a f n).mceLb = s.mceLb := rfl
@[simp] theorem jwrap_eleLb (a : Nat) (f : Fld) (n : Nat) : (s.jwrap a f n).eleLb = s.eleLb := rfl
@[simp] theorem jwrap_tdr (a : Nat) (f : Fld) (n : Nat) : (s.jwrap a f n).tdr = s.tdr := rfl
@[simp] theorem jwrap_freeCtr (a : Nat) (f : Fld) (n : Nat) : (s.jwrap a f n).freeCtr = s.freeCtr := rfl
@[simp] theorem jwrap_pending (a : Nat) (f : Fld) (n : Nat) : (s.jwrap a f n).pending = s.pending := rfl

@[simp] theorem jsetBit_regs (a : Nat) (f : Fld) (i : Nat) : (s.jsetBit a f i).regs = s.regs := rfl
@[simp] theorem jsetBit_shadow (a : Nat) (f : Fld) (i : Nat) : (s.jsetBit a f i).shadow = s.shadow := rfl
@[simp] theorem jsetBit_pciePath (a : Nat) (f : Fld) (i : Nat) : (s.jsetBit a f i).pciePath = s.pciePath := rfl
@[simp] theorem jsetBit_spiPath (a : Nat) (f : Fld) (i : Nat) : (s.jsetBit a f i).spiPath = s.spiPath := rfl
@[simp] theorem jsetBit_clk (a : Nat) (f : Fld) (i : Nat) : (s.jsetBit a f i).clk = s.clk := rfl
@[simp] theorem jsetBit_pw (a : Nat) (f : Fld) (i : Nat) : (s.jsetBit a f i).pw = s.pw := rfl
@[simp] theorem jsetBit_pcie (a : Nat) (f : Fld) (i : Nat) : (s.jsetBit a f i).pcie = s.pcie := rfl
@[simp] theorem jsetBit_sent (a : Nat) (f : Fld) (i : Nat) : (s.jsetBit a f i).sent = s.sent := rfl
@[simp] theorem jsetBit_chart (a : Nat) (f : Fld) (i : Nat) : (s.jsetBit a f i).chart = s.chart := rfl
@[simp] theorem jsetBit_hz (a : Nat) (f : Fld) (i : Nat) : (s.jsetBit a f i).hz = s.hz := rfl
@[simp] theorem jsetBit_jens (a : Nat) (f : Fld) (i : Nat) : (s.jsetBit a f i).jens = s.jens := rfl
@[simp] theorem jsetBit_lanes (a : Nat) (f : Fld) (i : Nat) : (s.jsetBit a f i).lanes = s.lanes := rfl
@[simp] theorem jsetBit_ports (a : Nat) (f : Fld) (i : Nat) : (s.jsetBit a f i).ports = s.ports := rfl
@[simp] theorem jsetBit_commit (a : Nat) (f : Fld) (i : Nat) : (s.jsetBit a f i).commit = s.commit := rfl
@[simp] theorem jsetBit_heldPwr (a : Nat) (f : Fld) (i : Nat) : (s.jsetBit a f i).heldPwr = s.heldPwr := rfl
@[simp] theorem jsetBit_spi (a : Nat) (f : Fld) (i : Nat) : (s.jsetBit a f i).spi = s.spi := rfl
@[simp] theorem jsetBit_bsp (a : Nat) (f : Fld) (i : Nat) : (s.jsetBit a f i).bsp = s.bsp := rfl
@[simp] theorem jsetBit_bist (a : Nat) (f : Fld) (i : Nat) : (s.jsetBit a f i).bist = s.bist := rfl
@[simp] theorem jsetBit_upsets (a : Nat) (f : Fld) (i : Nat) : (s.jsetBit a f i).upsets = s.upsets := rfl
@[simp] theorem jsetBit_blockResets (a : Nat) (f : Fld) (i : Nat) : (s.jsetBit a f i).blockResets = s.blockResets := rfl
@[simp] theorem jsetBit_react (a : Nat) (f : Fld) (i : Nat) : (s.jsetBit a f i).react = s.react := rfl
@[simp] theorem jsetBit_wdtCount (a : Nat) (f : Fld) (i : Nat) : (s.jsetBit a f i).wdtCount = s.wdtCount := rfl
@[simp] theorem jsetBit_wdtTimeout (a : Nat) (f : Fld) (i : Nat) : (s.jsetBit a f i).wdtTimeout = s.wdtTimeout := rfl
@[simp] theorem jsetBit_wdtWarn (a : Nat) (f : Fld) (i : Nat) : (s.jsetBit a f i).wdtWarn = s.wdtWarn := rfl
@[simp] theorem jsetBit_wdtWarned (a : Nat) (f : Fld) (i : Nat) : (s.jsetBit a f i).wdtWarned = s.wdtWarned := rfl
@[simp] theorem jsetBit_fns (a : Nat) (f : Fld) (i : Nat) : (s.jsetBit a f i).fns = s.fns := rfl
@[simp] theorem jsetBit_transits (a : Nat) (f : Fld) (i : Nat) : (s.jsetBit a f i).transits = s.transits := rfl
@[simp] theorem jsetBit_gone (a : Nat) (f : Fld) (i : Nat) : (s.jsetBit a f i).gone = s.gone := rfl
@[simp] theorem jsetBit_bands (a : Nat) (f : Fld) (i : Nat) : (s.jsetBit a f i).bands = s.bands := rfl
@[simp] theorem jsetBit_running (a : Nat) (f : Fld) (i : Nat) : (s.jsetBit a f i).running = s.running := rfl
@[simp] theorem jsetBit_dlv (a : Nat) (f : Fld) (i : Nat) : (s.jsetBit a f i).dlv = s.dlv := rfl
@[simp] theorem jsetBit_cas (a : Nat) (f : Fld) (i : Nat) : (s.jsetBit a f i).cas = s.cas := rfl
@[simp] theorem jsetBit_hostMem (a : Nat) (f : Fld) (i : Nat) : (s.jsetBit a f i).hostMem = s.hostMem := rfl
@[simp] theorem jsetBit_sts (a : Nat) (f : Fld) (i : Nat) : (s.jsetBit a f i).sts = s.sts := rfl
@[simp] theorem jsetBit_ws (a : Nat) (f : Fld) (i : Nat) : (s.jsetBit a f i).ws = s.ws := rfl
@[simp] theorem jsetBit_cht (a : Nat) (f : Fld) (i : Nat) : (s.jsetBit a f i).cht = s.cht := rfl
@[simp] theorem jsetBit_mceLb (a : Nat) (f : Fld) (i : Nat) : (s.jsetBit a f i).mceLb = s.mceLb := rfl
@[simp] theorem jsetBit_eleLb (a : Nat) (f : Fld) (i : Nat) : (s.jsetBit a f i).eleLb = s.eleLb := rfl
@[simp] theorem jsetBit_tdr (a : Nat) (f : Fld) (i : Nat) : (s.jsetBit a f i).tdr = s.tdr := rfl
@[simp] theorem jsetBit_freeCtr (a : Nat) (f : Fld) (i : Nat) : (s.jsetBit a f i).freeCtr = s.freeCtr := rfl
@[simp] theorem jsetBit_pending (a : Nat) (f : Fld) (i : Nat) : (s.jsetBit a f i).pending = s.pending := rfl

@[simp] theorem jclearBit_regs (a : Nat) (f : Fld) (i : Nat) : (s.jclearBit a f i).regs = s.regs := by unfold State.jclearBit; split <;> rfl
@[simp] theorem jclearBit_shadow (a : Nat) (f : Fld) (i : Nat) : (s.jclearBit a f i).shadow = s.shadow := by unfold State.jclearBit; split <;> rfl
@[simp] theorem jclearBit_pciePath (a : Nat) (f : Fld) (i : Nat) : (s.jclearBit a f i).pciePath = s.pciePath := by unfold State.jclearBit; split <;> rfl
@[simp] theorem jclearBit_spiPath (a : Nat) (f : Fld) (i : Nat) : (s.jclearBit a f i).spiPath = s.spiPath := by unfold State.jclearBit; split <;> rfl
@[simp] theorem jclearBit_clk (a : Nat) (f : Fld) (i : Nat) : (s.jclearBit a f i).clk = s.clk := by unfold State.jclearBit; split <;> rfl
@[simp] theorem jclearBit_pw (a : Nat) (f : Fld) (i : Nat) : (s.jclearBit a f i).pw = s.pw := by unfold State.jclearBit; split <;> rfl
@[simp] theorem jclearBit_pcie (a : Nat) (f : Fld) (i : Nat) : (s.jclearBit a f i).pcie = s.pcie := by unfold State.jclearBit; split <;> rfl
@[simp] theorem jclearBit_sent (a : Nat) (f : Fld) (i : Nat) : (s.jclearBit a f i).sent = s.sent := by unfold State.jclearBit; split <;> rfl
@[simp] theorem jclearBit_chart (a : Nat) (f : Fld) (i : Nat) : (s.jclearBit a f i).chart = s.chart := by unfold State.jclearBit; split <;> rfl
@[simp] theorem jclearBit_hz (a : Nat) (f : Fld) (i : Nat) : (s.jclearBit a f i).hz = s.hz := by unfold State.jclearBit; split <;> rfl
@[simp] theorem jclearBit_jens (a : Nat) (f : Fld) (i : Nat) : (s.jclearBit a f i).jens = s.jens := by unfold State.jclearBit; split <;> rfl
@[simp] theorem jclearBit_lanes (a : Nat) (f : Fld) (i : Nat) : (s.jclearBit a f i).lanes = s.lanes := by unfold State.jclearBit; split <;> rfl
@[simp] theorem jclearBit_ports (a : Nat) (f : Fld) (i : Nat) : (s.jclearBit a f i).ports = s.ports := by unfold State.jclearBit; split <;> rfl
@[simp] theorem jclearBit_commit (a : Nat) (f : Fld) (i : Nat) : (s.jclearBit a f i).commit = s.commit := by unfold State.jclearBit; split <;> rfl
@[simp] theorem jclearBit_heldPwr (a : Nat) (f : Fld) (i : Nat) : (s.jclearBit a f i).heldPwr = s.heldPwr := by unfold State.jclearBit; split <;> rfl
@[simp] theorem jclearBit_spi (a : Nat) (f : Fld) (i : Nat) : (s.jclearBit a f i).spi = s.spi := by unfold State.jclearBit; split <;> rfl
@[simp] theorem jclearBit_bsp (a : Nat) (f : Fld) (i : Nat) : (s.jclearBit a f i).bsp = s.bsp := by unfold State.jclearBit; split <;> rfl
@[simp] theorem jclearBit_bist (a : Nat) (f : Fld) (i : Nat) : (s.jclearBit a f i).bist = s.bist := by unfold State.jclearBit; split <;> rfl
@[simp] theorem jclearBit_upsets (a : Nat) (f : Fld) (i : Nat) : (s.jclearBit a f i).upsets = s.upsets := by unfold State.jclearBit; split <;> rfl
@[simp] theorem jclearBit_blockResets (a : Nat) (f : Fld) (i : Nat) : (s.jclearBit a f i).blockResets = s.blockResets := by unfold State.jclearBit; split <;> rfl
@[simp] theorem jclearBit_react (a : Nat) (f : Fld) (i : Nat) : (s.jclearBit a f i).react = s.react := by unfold State.jclearBit; split <;> rfl
@[simp] theorem jclearBit_wdtCount (a : Nat) (f : Fld) (i : Nat) : (s.jclearBit a f i).wdtCount = s.wdtCount := by unfold State.jclearBit; split <;> rfl
@[simp] theorem jclearBit_wdtTimeout (a : Nat) (f : Fld) (i : Nat) : (s.jclearBit a f i).wdtTimeout = s.wdtTimeout := by unfold State.jclearBit; split <;> rfl
@[simp] theorem jclearBit_wdtWarn (a : Nat) (f : Fld) (i : Nat) : (s.jclearBit a f i).wdtWarn = s.wdtWarn := by unfold State.jclearBit; split <;> rfl
@[simp] theorem jclearBit_wdtWarned (a : Nat) (f : Fld) (i : Nat) : (s.jclearBit a f i).wdtWarned = s.wdtWarned := by unfold State.jclearBit; split <;> rfl
@[simp] theorem jclearBit_fns (a : Nat) (f : Fld) (i : Nat) : (s.jclearBit a f i).fns = s.fns := by unfold State.jclearBit; split <;> rfl
@[simp] theorem jclearBit_transits (a : Nat) (f : Fld) (i : Nat) : (s.jclearBit a f i).transits = s.transits := by unfold State.jclearBit; split <;> rfl
@[simp] theorem jclearBit_gone (a : Nat) (f : Fld) (i : Nat) : (s.jclearBit a f i).gone = s.gone := by unfold State.jclearBit; split <;> rfl
@[simp] theorem jclearBit_bands (a : Nat) (f : Fld) (i : Nat) : (s.jclearBit a f i).bands = s.bands := by unfold State.jclearBit; split <;> rfl
@[simp] theorem jclearBit_running (a : Nat) (f : Fld) (i : Nat) : (s.jclearBit a f i).running = s.running := by unfold State.jclearBit; split <;> rfl
@[simp] theorem jclearBit_dlv (a : Nat) (f : Fld) (i : Nat) : (s.jclearBit a f i).dlv = s.dlv := by unfold State.jclearBit; split <;> rfl
@[simp] theorem jclearBit_cas (a : Nat) (f : Fld) (i : Nat) : (s.jclearBit a f i).cas = s.cas := by unfold State.jclearBit; split <;> rfl
@[simp] theorem jclearBit_hostMem (a : Nat) (f : Fld) (i : Nat) : (s.jclearBit a f i).hostMem = s.hostMem := by unfold State.jclearBit; split <;> rfl
@[simp] theorem jclearBit_sts (a : Nat) (f : Fld) (i : Nat) : (s.jclearBit a f i).sts = s.sts := by unfold State.jclearBit; split <;> rfl
@[simp] theorem jclearBit_ws (a : Nat) (f : Fld) (i : Nat) : (s.jclearBit a f i).ws = s.ws := by unfold State.jclearBit; split <;> rfl
@[simp] theorem jclearBit_cht (a : Nat) (f : Fld) (i : Nat) : (s.jclearBit a f i).cht = s.cht := by unfold State.jclearBit; split <;> rfl
@[simp] theorem jclearBit_mceLb (a : Nat) (f : Fld) (i : Nat) : (s.jclearBit a f i).mceLb = s.mceLb := by unfold State.jclearBit; split <;> rfl
@[simp] theorem jclearBit_eleLb (a : Nat) (f : Fld) (i : Nat) : (s.jclearBit a f i).eleLb = s.eleLb := by unfold State.jclearBit; split <;> rfl
@[simp] theorem jclearBit_tdr (a : Nat) (f : Fld) (i : Nat) : (s.jclearBit a f i).tdr = s.tdr := by unfold State.jclearBit; split <;> rfl
@[simp] theorem jclearBit_freeCtr (a : Nat) (f : Fld) (i : Nat) : (s.jclearBit a f i).freeCtr = s.freeCtr := by unfold State.jclearBit; split <;> rfl
@[simp] theorem jclearBit_pending (a : Nat) (f : Fld) (i : Nat) : (s.jclearBit a f i).pending = s.pending := by unfold State.jclearBit; split <;> rfl

@[simp] theorem setShadow_regs (a : Nat) (v : Word) : (s.setShadow a v).regs = s.regs := rfl
@[simp] theorem setShadow_fregs (a : Nat) (v : Word) : (s.setShadow a v).fregs = s.fregs := rfl
@[simp] theorem setShadow_pciePath (a : Nat) (v : Word) : (s.setShadow a v).pciePath = s.pciePath := rfl
@[simp] theorem setShadow_spiPath (a : Nat) (v : Word) : (s.setShadow a v).spiPath = s.spiPath := rfl
@[simp] theorem setShadow_clk (a : Nat) (v : Word) : (s.setShadow a v).clk = s.clk := rfl
@[simp] theorem setShadow_pw (a : Nat) (v : Word) : (s.setShadow a v).pw = s.pw := rfl
@[simp] theorem setShadow_pcie (a : Nat) (v : Word) : (s.setShadow a v).pcie = s.pcie := rfl
@[simp] theorem setShadow_sent (a : Nat) (v : Word) : (s.setShadow a v).sent = s.sent := rfl
@[simp] theorem setShadow_chart (a : Nat) (v : Word) : (s.setShadow a v).chart = s.chart := rfl
@[simp] theorem setShadow_hz (a : Nat) (v : Word) : (s.setShadow a v).hz = s.hz := rfl
@[simp] theorem setShadow_jens (a : Nat) (v : Word) : (s.setShadow a v).jens = s.jens := rfl
@[simp] theorem setShadow_lanes (a : Nat) (v : Word) : (s.setShadow a v).lanes = s.lanes := rfl
@[simp] theorem setShadow_ports (a : Nat) (v : Word) : (s.setShadow a v).ports = s.ports := rfl
@[simp] theorem setShadow_commit (a : Nat) (v : Word) : (s.setShadow a v).commit = s.commit := rfl
@[simp] theorem setShadow_heldPwr (a : Nat) (v : Word) : (s.setShadow a v).heldPwr = s.heldPwr := rfl
@[simp] theorem setShadow_spi (a : Nat) (v : Word) : (s.setShadow a v).spi = s.spi := rfl
@[simp] theorem setShadow_bsp (a : Nat) (v : Word) : (s.setShadow a v).bsp = s.bsp := rfl
@[simp] theorem setShadow_bist (a : Nat) (v : Word) : (s.setShadow a v).bist = s.bist := rfl
@[simp] theorem setShadow_upsets (a : Nat) (v : Word) : (s.setShadow a v).upsets = s.upsets := rfl
@[simp] theorem setShadow_blockResets (a : Nat) (v : Word) : (s.setShadow a v).blockResets = s.blockResets := rfl
@[simp] theorem setShadow_react (a : Nat) (v : Word) : (s.setShadow a v).react = s.react := rfl
@[simp] theorem setShadow_wdtCount (a : Nat) (v : Word) : (s.setShadow a v).wdtCount = s.wdtCount := rfl
@[simp] theorem setShadow_wdtTimeout (a : Nat) (v : Word) : (s.setShadow a v).wdtTimeout = s.wdtTimeout := rfl
@[simp] theorem setShadow_wdtWarn (a : Nat) (v : Word) : (s.setShadow a v).wdtWarn = s.wdtWarn := rfl
@[simp] theorem setShadow_wdtWarned (a : Nat) (v : Word) : (s.setShadow a v).wdtWarned = s.wdtWarned := rfl
@[simp] theorem setShadow_fns (a : Nat) (v : Word) : (s.setShadow a v).fns = s.fns := rfl
@[simp] theorem setShadow_transits (a : Nat) (v : Word) : (s.setShadow a v).transits = s.transits := rfl
@[simp] theorem setShadow_gone (a : Nat) (v : Word) : (s.setShadow a v).gone = s.gone := rfl
@[simp] theorem setShadow_bands (a : Nat) (v : Word) : (s.setShadow a v).bands = s.bands := rfl
@[simp] theorem setShadow_running (a : Nat) (v : Word) : (s.setShadow a v).running = s.running := rfl
@[simp] theorem setShadow_dlv (a : Nat) (v : Word) : (s.setShadow a v).dlv = s.dlv := rfl
@[simp] theorem setShadow_cas (a : Nat) (v : Word) : (s.setShadow a v).cas = s.cas := rfl
@[simp] theorem setShadow_hostMem (a : Nat) (v : Word) : (s.setShadow a v).hostMem = s.hostMem := rfl
@[simp] theorem setShadow_sts (a : Nat) (v : Word) : (s.setShadow a v).sts = s.sts := rfl
@[simp] theorem setShadow_ws (a : Nat) (v : Word) : (s.setShadow a v).ws = s.ws := rfl
@[simp] theorem setShadow_cht (a : Nat) (v : Word) : (s.setShadow a v).cht = s.cht := rfl
@[simp] theorem setShadow_mceLb (a : Nat) (v : Word) : (s.setShadow a v).mceLb = s.mceLb := rfl
@[simp] theorem setShadow_eleLb (a : Nat) (v : Word) : (s.setShadow a v).eleLb = s.eleLb := rfl
@[simp] theorem setShadow_tdr (a : Nat) (v : Word) : (s.setShadow a v).tdr = s.tdr := rfl
@[simp] theorem setShadow_freeCtr (a : Nat) (v : Word) : (s.setShadow a v).freeCtr = s.freeCtr := rfl
@[simp] theorem setShadow_pending (a : Nat) (v : Word) : (s.setShadow a v).pending = s.pending := rfl

@[simp] theorem setPath_regs (p : Path) (x : PathState) : (s.setPath p x).regs = s.regs := by cases p <;> rfl
@[simp] theorem setPath_fregs (p : Path) (x : PathState) : (s.setPath p x).fregs = s.fregs := by cases p <;> rfl
@[simp] theorem setPath_shadow (p : Path) (x : PathState) : (s.setPath p x).shadow = s.shadow := by cases p <;> rfl
@[simp] theorem setPath_clk (p : Path) (x : PathState) : (s.setPath p x).clk = s.clk := by cases p <;> rfl
@[simp] theorem setPath_pw (p : Path) (x : PathState) : (s.setPath p x).pw = s.pw := by cases p <;> rfl
@[simp] theorem setPath_pcie (p : Path) (x : PathState) : (s.setPath p x).pcie = s.pcie := by cases p <;> rfl
@[simp] theorem setPath_sent (p : Path) (x : PathState) : (s.setPath p x).sent = s.sent := by cases p <;> rfl
@[simp] theorem setPath_chart (p : Path) (x : PathState) : (s.setPath p x).chart = s.chart := by cases p <;> rfl
@[simp] theorem setPath_hz (p : Path) (x : PathState) : (s.setPath p x).hz = s.hz := by cases p <;> rfl
@[simp] theorem setPath_jens (p : Path) (x : PathState) : (s.setPath p x).jens = s.jens := by cases p <;> rfl
@[simp] theorem setPath_lanes (p : Path) (x : PathState) : (s.setPath p x).lanes = s.lanes := by cases p <;> rfl
@[simp] theorem setPath_ports (p : Path) (x : PathState) : (s.setPath p x).ports = s.ports := by cases p <;> rfl
@[simp] theorem setPath_commit (p : Path) (x : PathState) : (s.setPath p x).commit = s.commit := by cases p <;> rfl
@[simp] theorem setPath_heldPwr (p : Path) (x : PathState) : (s.setPath p x).heldPwr = s.heldPwr := by cases p <;> rfl
@[simp] theorem setPath_spi (p : Path) (x : PathState) : (s.setPath p x).spi = s.spi := by cases p <;> rfl
@[simp] theorem setPath_bsp (p : Path) (x : PathState) : (s.setPath p x).bsp = s.bsp := by cases p <;> rfl
@[simp] theorem setPath_bist (p : Path) (x : PathState) : (s.setPath p x).bist = s.bist := by cases p <;> rfl
@[simp] theorem setPath_upsets (p : Path) (x : PathState) : (s.setPath p x).upsets = s.upsets := by cases p <;> rfl
@[simp] theorem setPath_blockResets (p : Path) (x : PathState) : (s.setPath p x).blockResets = s.blockResets := by cases p <;> rfl
@[simp] theorem setPath_react (p : Path) (x : PathState) : (s.setPath p x).react = s.react := by cases p <;> rfl
@[simp] theorem setPath_wdtCount (p : Path) (x : PathState) : (s.setPath p x).wdtCount = s.wdtCount := by cases p <;> rfl
@[simp] theorem setPath_wdtTimeout (p : Path) (x : PathState) : (s.setPath p x).wdtTimeout = s.wdtTimeout := by cases p <;> rfl
@[simp] theorem setPath_wdtWarn (p : Path) (x : PathState) : (s.setPath p x).wdtWarn = s.wdtWarn := by cases p <;> rfl
@[simp] theorem setPath_wdtWarned (p : Path) (x : PathState) : (s.setPath p x).wdtWarned = s.wdtWarned := by cases p <;> rfl
@[simp] theorem setPath_fns (p : Path) (x : PathState) : (s.setPath p x).fns = s.fns := by cases p <;> rfl
@[simp] theorem setPath_transits (p : Path) (x : PathState) : (s.setPath p x).transits = s.transits := by cases p <;> rfl
@[simp] theorem setPath_gone (p : Path) (x : PathState) : (s.setPath p x).gone = s.gone := by cases p <;> rfl
@[simp] theorem setPath_bands (p : Path) (x : PathState) : (s.setPath p x).bands = s.bands := by cases p <;> rfl
@[simp] theorem setPath_running (p : Path) (x : PathState) : (s.setPath p x).running = s.running := by cases p <;> rfl
@[simp] theorem setPath_dlv (p : Path) (x : PathState) : (s.setPath p x).dlv = s.dlv := by cases p <;> rfl
@[simp] theorem setPath_cas (p : Path) (x : PathState) : (s.setPath p x).cas = s.cas := by cases p <;> rfl
@[simp] theorem setPath_hostMem (p : Path) (x : PathState) : (s.setPath p x).hostMem = s.hostMem := by cases p <;> rfl
@[simp] theorem setPath_sts (p : Path) (x : PathState) : (s.setPath p x).sts = s.sts := by cases p <;> rfl
@[simp] theorem setPath_ws (p : Path) (x : PathState) : (s.setPath p x).ws = s.ws := by cases p <;> rfl
@[simp] theorem setPath_cht (p : Path) (x : PathState) : (s.setPath p x).cht = s.cht := by cases p <;> rfl
@[simp] theorem setPath_mceLb (p : Path) (x : PathState) : (s.setPath p x).mceLb = s.mceLb := by cases p <;> rfl
@[simp] theorem setPath_eleLb (p : Path) (x : PathState) : (s.setPath p x).eleLb = s.eleLb := by cases p <;> rfl
@[simp] theorem setPath_tdr (p : Path) (x : PathState) : (s.setPath p x).tdr = s.tdr := by cases p <;> rfl
@[simp] theorem setPath_freeCtr (p : Path) (x : PathState) : (s.setPath p x).freeCtr = s.freeCtr := by cases p <;> rfl
@[simp] theorem setPath_pending (p : Path) (x : PathState) : (s.setPath p x).pending = s.pending := by cases p <;> rfl

@[simp] theorem modHz_regs (g : HzNahar → HzNahar) : (s.modHz g).regs = s.regs := rfl
@[simp] theorem modHz_fregs (g : HzNahar → HzNahar) : (s.modHz g).fregs = s.fregs := rfl
@[simp] theorem modHz_shadow (g : HzNahar → HzNahar) : (s.modHz g).shadow = s.shadow := rfl
@[simp] theorem modHz_pciePath (g : HzNahar → HzNahar) : (s.modHz g).pciePath = s.pciePath := rfl
@[simp] theorem modHz_spiPath (g : HzNahar → HzNahar) : (s.modHz g).spiPath = s.spiPath := rfl
@[simp] theorem modHz_clk (g : HzNahar → HzNahar) : (s.modHz g).clk = s.clk := rfl
@[simp] theorem modHz_pw (g : HzNahar → HzNahar) : (s.modHz g).pw = s.pw := rfl
@[simp] theorem modHz_pcie (g : HzNahar → HzNahar) : (s.modHz g).pcie = s.pcie := rfl
@[simp] theorem modHz_sent (g : HzNahar → HzNahar) : (s.modHz g).sent = s.sent := rfl
@[simp] theorem modHz_chart (g : HzNahar → HzNahar) : (s.modHz g).chart = s.chart := rfl
@[simp] theorem modHz_jens (g : HzNahar → HzNahar) : (s.modHz g).jens = s.jens := rfl
@[simp] theorem modHz_lanes (g : HzNahar → HzNahar) : (s.modHz g).lanes = s.lanes := rfl
@[simp] theorem modHz_ports (g : HzNahar → HzNahar) : (s.modHz g).ports = s.ports := rfl
@[simp] theorem modHz_commit (g : HzNahar → HzNahar) : (s.modHz g).commit = s.commit := rfl
@[simp] theorem modHz_heldPwr (g : HzNahar → HzNahar) : (s.modHz g).heldPwr = s.heldPwr := rfl
@[simp] theorem modHz_spi (g : HzNahar → HzNahar) : (s.modHz g).spi = s.spi := rfl
@[simp] theorem modHz_bsp (g : HzNahar → HzNahar) : (s.modHz g).bsp = s.bsp := rfl
@[simp] theorem modHz_bist (g : HzNahar → HzNahar) : (s.modHz g).bist = s.bist := rfl
@[simp] theorem modHz_upsets (g : HzNahar → HzNahar) : (s.modHz g).upsets = s.upsets := rfl
@[simp] theorem modHz_blockResets (g : HzNahar → HzNahar) : (s.modHz g).blockResets = s.blockResets := rfl
@[simp] theorem modHz_react (g : HzNahar → HzNahar) : (s.modHz g).react = s.react := rfl
@[simp] theorem modHz_wdtCount (g : HzNahar → HzNahar) : (s.modHz g).wdtCount = s.wdtCount := rfl
@[simp] theorem modHz_wdtTimeout (g : HzNahar → HzNahar) : (s.modHz g).wdtTimeout = s.wdtTimeout := rfl
@[simp] theorem modHz_wdtWarn (g : HzNahar → HzNahar) : (s.modHz g).wdtWarn = s.wdtWarn := rfl
@[simp] theorem modHz_wdtWarned (g : HzNahar → HzNahar) : (s.modHz g).wdtWarned = s.wdtWarned := rfl
@[simp] theorem modHz_fns (g : HzNahar → HzNahar) : (s.modHz g).fns = s.fns := rfl
@[simp] theorem modHz_transits (g : HzNahar → HzNahar) : (s.modHz g).transits = s.transits := rfl
@[simp] theorem modHz_gone (g : HzNahar → HzNahar) : (s.modHz g).gone = s.gone := rfl
@[simp] theorem modHz_bands (g : HzNahar → HzNahar) : (s.modHz g).bands = s.bands := rfl
@[simp] theorem modHz_running (g : HzNahar → HzNahar) : (s.modHz g).running = s.running := rfl
@[simp] theorem modHz_dlv (g : HzNahar → HzNahar) : (s.modHz g).dlv = s.dlv := rfl
@[simp] theorem modHz_cas (g : HzNahar → HzNahar) : (s.modHz g).cas = s.cas := rfl
@[simp] theorem modHz_hostMem (g : HzNahar → HzNahar) : (s.modHz g).hostMem = s.hostMem := rfl
@[simp] theorem modHz_sts (g : HzNahar → HzNahar) : (s.modHz g).sts = s.sts := rfl
@[simp] theorem modHz_ws (g : HzNahar → HzNahar) : (s.modHz g).ws = s.ws := rfl
@[simp] theorem modHz_cht (g : HzNahar → HzNahar) : (s.modHz g).cht = s.cht := rfl
@[simp] theorem modHz_mceLb (g : HzNahar → HzNahar) : (s.modHz g).mceLb = s.mceLb := rfl
@[simp] theorem modHz_eleLb (g : HzNahar → HzNahar) : (s.modHz g).eleLb = s.eleLb := rfl
@[simp] theorem modHz_tdr (g : HzNahar → HzNahar) : (s.modHz g).tdr = s.tdr := rfl
@[simp] theorem modHz_freeCtr (g : HzNahar → HzNahar) : (s.modHz g).freeCtr = s.freeCtr := rfl
@[simp] theorem modHz_pending (g : HzNahar → HzNahar) : (s.modHz g).pending = s.pending := rfl

@[simp] theorem modJens_regs (g : Jens → Jens) : (s.modJens g).regs = s.regs := rfl
@[simp] theorem modJens_fregs (g : Jens → Jens) : (s.modJens g).fregs = s.fregs := rfl
@[simp] theorem modJens_shadow (g : Jens → Jens) : (s.modJens g).shadow = s.shadow := rfl
@[simp] theorem modJens_pciePath (g : Jens → Jens) : (s.modJens g).pciePath = s.pciePath := rfl
@[simp] theorem modJens_spiPath (g : Jens → Jens) : (s.modJens g).spiPath = s.spiPath := rfl
@[simp] theorem modJens_clk (g : Jens → Jens) : (s.modJens g).clk = s.clk := rfl
@[simp] theorem modJens_pw (g : Jens → Jens) : (s.modJens g).pw = s.pw := rfl
@[simp] theorem modJens_pcie (g : Jens → Jens) : (s.modJens g).pcie = s.pcie := rfl
@[simp] theorem modJens_sent (g : Jens → Jens) : (s.modJens g).sent = s.sent := rfl
@[simp] theorem modJens_chart (g : Jens → Jens) : (s.modJens g).chart = s.chart := rfl
@[simp] theorem modJens_hz (g : Jens → Jens) : (s.modJens g).hz = s.hz := rfl
@[simp] theorem modJens_lanes (g : Jens → Jens) : (s.modJens g).lanes = s.lanes := rfl
@[simp] theorem modJens_ports (g : Jens → Jens) : (s.modJens g).ports = s.ports := rfl
@[simp] theorem modJens_commit (g : Jens → Jens) : (s.modJens g).commit = s.commit := rfl
@[simp] theorem modJens_heldPwr (g : Jens → Jens) : (s.modJens g).heldPwr = s.heldPwr := rfl
@[simp] theorem modJens_spi (g : Jens → Jens) : (s.modJens g).spi = s.spi := rfl
@[simp] theorem modJens_bsp (g : Jens → Jens) : (s.modJens g).bsp = s.bsp := rfl
@[simp] theorem modJens_bist (g : Jens → Jens) : (s.modJens g).bist = s.bist := rfl
@[simp] theorem modJens_upsets (g : Jens → Jens) : (s.modJens g).upsets = s.upsets := rfl
@[simp] theorem modJens_blockResets (g : Jens → Jens) : (s.modJens g).blockResets = s.blockResets := rfl
@[simp] theorem modJens_react (g : Jens → Jens) : (s.modJens g).react = s.react := rfl
@[simp] theorem modJens_wdtCount (g : Jens → Jens) : (s.modJens g).wdtCount = s.wdtCount := rfl
@[simp] theorem modJens_wdtTimeout (g : Jens → Jens) : (s.modJens g).wdtTimeout = s.wdtTimeout := rfl
@[simp] theorem modJens_wdtWarn (g : Jens → Jens) : (s.modJens g).wdtWarn = s.wdtWarn := rfl
@[simp] theorem modJens_wdtWarned (g : Jens → Jens) : (s.modJens g).wdtWarned = s.wdtWarned := rfl
@[simp] theorem modJens_fns (g : Jens → Jens) : (s.modJens g).fns = s.fns := rfl
@[simp] theorem modJens_transits (g : Jens → Jens) : (s.modJens g).transits = s.transits := rfl
@[simp] theorem modJens_gone (g : Jens → Jens) : (s.modJens g).gone = s.gone := rfl
@[simp] theorem modJens_bands (g : Jens → Jens) : (s.modJens g).bands = s.bands := rfl
@[simp] theorem modJens_running (g : Jens → Jens) : (s.modJens g).running = s.running := rfl
@[simp] theorem modJens_dlv (g : Jens → Jens) : (s.modJens g).dlv = s.dlv := rfl
@[simp] theorem modJens_cas (g : Jens → Jens) : (s.modJens g).cas = s.cas := rfl
@[simp] theorem modJens_hostMem (g : Jens → Jens) : (s.modJens g).hostMem = s.hostMem := rfl
@[simp] theorem modJens_sts (g : Jens → Jens) : (s.modJens g).sts = s.sts := rfl
@[simp] theorem modJens_ws (g : Jens → Jens) : (s.modJens g).ws = s.ws := rfl
@[simp] theorem modJens_cht (g : Jens → Jens) : (s.modJens g).cht = s.cht := rfl
@[simp] theorem modJens_mceLb (g : Jens → Jens) : (s.modJens g).mceLb = s.mceLb := rfl
@[simp] theorem modJens_eleLb (g : Jens → Jens) : (s.modJens g).eleLb = s.eleLb := rfl
@[simp] theorem modJens_tdr (g : Jens → Jens) : (s.modJens g).tdr = s.tdr := rfl
@[simp] theorem modJens_freeCtr (g : Jens → Jens) : (s.modJens g).freeCtr = s.freeCtr := rfl
@[simp] theorem modJens_pending (g : Jens → Jens) : (s.modJens g).pending = s.pending := rfl

@[simp] theorem modPw_regs (g : Power → Power) : (s.modPw g).regs = s.regs := rfl
@[simp] theorem modPw_fregs (g : Power → Power) : (s.modPw g).fregs = s.fregs := rfl
@[simp] theorem modPw_shadow (g : Power → Power) : (s.modPw g).shadow = s.shadow := rfl
@[simp] theorem modPw_pciePath (g : Power → Power) : (s.modPw g).pciePath = s.pciePath := rfl
@[simp] theorem modPw_spiPath (g : Power → Power) : (s.modPw g).spiPath = s.spiPath := rfl
@[simp] theorem modPw_clk (g : Power → Power) : (s.modPw g).clk = s.clk := rfl
@[simp] theorem modPw_pcie (g : Power → Power) : (s.modPw g).pcie = s.pcie := rfl
@[simp] theorem modPw_sent (g : Power → Power) : (s.modPw g).sent = s.sent := rfl
@[simp] theorem modPw_chart (g : Power → Power) : (s.modPw g).chart = s.chart := rfl
@[simp] theorem modPw_hz (g : Power → Power) : (s.modPw g).hz = s.hz := rfl
@[simp] theorem modPw_jens (g : Power → Power) : (s.modPw g).jens = s.jens := rfl
@[simp] theorem modPw_lanes (g : Power → Power) : (s.modPw g).lanes = s.lanes := rfl
@[simp] theorem modPw_ports (g : Power → Power) : (s.modPw g).ports = s.ports := rfl
@[simp] theorem modPw_commit (g : Power → Power) : (s.modPw g).commit = s.commit := rfl
@[simp] theorem modPw_heldPwr (g : Power → Power) : (s.modPw g).heldPwr = s.heldPwr := rfl
@[simp] theorem modPw_spi (g : Power → Power) : (s.modPw g).spi = s.spi := rfl
@[simp] theorem modPw_bsp (g : Power → Power) : (s.modPw g).bsp = s.bsp := rfl
@[simp] theorem modPw_bist (g : Power → Power) : (s.modPw g).bist = s.bist := rfl
@[simp] theorem modPw_upsets (g : Power → Power) : (s.modPw g).upsets = s.upsets := rfl
@[simp] theorem modPw_blockResets (g : Power → Power) : (s.modPw g).blockResets = s.blockResets := rfl
@[simp] theorem modPw_react (g : Power → Power) : (s.modPw g).react = s.react := rfl
@[simp] theorem modPw_wdtCount (g : Power → Power) : (s.modPw g).wdtCount = s.wdtCount := rfl
@[simp] theorem modPw_wdtTimeout (g : Power → Power) : (s.modPw g).wdtTimeout = s.wdtTimeout := rfl
@[simp] theorem modPw_wdtWarn (g : Power → Power) : (s.modPw g).wdtWarn = s.wdtWarn := rfl
@[simp] theorem modPw_wdtWarned (g : Power → Power) : (s.modPw g).wdtWarned = s.wdtWarned := rfl
@[simp] theorem modPw_fns (g : Power → Power) : (s.modPw g).fns = s.fns := rfl
@[simp] theorem modPw_transits (g : Power → Power) : (s.modPw g).transits = s.transits := rfl
@[simp] theorem modPw_gone (g : Power → Power) : (s.modPw g).gone = s.gone := rfl
@[simp] theorem modPw_bands (g : Power → Power) : (s.modPw g).bands = s.bands := rfl
@[simp] theorem modPw_running (g : Power → Power) : (s.modPw g).running = s.running := rfl
@[simp] theorem modPw_dlv (g : Power → Power) : (s.modPw g).dlv = s.dlv := rfl
@[simp] theorem modPw_cas (g : Power → Power) : (s.modPw g).cas = s.cas := rfl
@[simp] theorem modPw_hostMem (g : Power → Power) : (s.modPw g).hostMem = s.hostMem := rfl
@[simp] theorem modPw_sts (g : Power → Power) : (s.modPw g).sts = s.sts := rfl
@[simp] theorem modPw_ws (g : Power → Power) : (s.modPw g).ws = s.ws := rfl
@[simp] theorem modPw_cht (g : Power → Power) : (s.modPw g).cht = s.cht := rfl
@[simp] theorem modPw_mceLb (g : Power → Power) : (s.modPw g).mceLb = s.mceLb := rfl
@[simp] theorem modPw_eleLb (g : Power → Power) : (s.modPw g).eleLb = s.eleLb := rfl
@[simp] theorem modPw_tdr (g : Power → Power) : (s.modPw g).tdr = s.tdr := rfl
@[simp] theorem modPw_freeCtr (g : Power → Power) : (s.modPw g).freeCtr = s.freeCtr := rfl
@[simp] theorem modPw_pending (g : Power → Power) : (s.modPw g).pending = s.pending := rfl

@[simp] theorem modBist_regs (g : Bist → Bist) : (s.modBist g).regs = s.regs := rfl
@[simp] theorem modBist_fregs (g : Bist → Bist) : (s.modBist g).fregs = s.fregs := rfl
@[simp] theorem modBist_shadow (g : Bist → Bist) : (s.modBist g).shadow = s.shadow := rfl
@[simp] theorem modBist_pciePath (g : Bist → Bist) : (s.modBist g).pciePath = s.pciePath := rfl
@[simp] theorem modBist_spiPath (g : Bist → Bist) : (s.modBist g).spiPath = s.spiPath := rfl
@[simp] theorem modBist_clk (g : Bist → Bist) : (s.modBist g).clk = s.clk := rfl
@[simp] theorem modBist_pw (g : Bist → Bist) : (s.modBist g).pw = s.pw := rfl
@[simp] theorem modBist_pcie (g : Bist → Bist) : (s.modBist g).pcie = s.pcie := rfl
@[simp] theorem modBist_sent (g : Bist → Bist) : (s.modBist g).sent = s.sent := rfl
@[simp] theorem modBist_chart (g : Bist → Bist) : (s.modBist g).chart = s.chart := rfl
@[simp] theorem modBist_hz (g : Bist → Bist) : (s.modBist g).hz = s.hz := rfl
@[simp] theorem modBist_jens (g : Bist → Bist) : (s.modBist g).jens = s.jens := rfl
@[simp] theorem modBist_lanes (g : Bist → Bist) : (s.modBist g).lanes = s.lanes := rfl
@[simp] theorem modBist_ports (g : Bist → Bist) : (s.modBist g).ports = s.ports := rfl
@[simp] theorem modBist_commit (g : Bist → Bist) : (s.modBist g).commit = s.commit := rfl
@[simp] theorem modBist_heldPwr (g : Bist → Bist) : (s.modBist g).heldPwr = s.heldPwr := rfl
@[simp] theorem modBist_spi (g : Bist → Bist) : (s.modBist g).spi = s.spi := rfl
@[simp] theorem modBist_bsp (g : Bist → Bist) : (s.modBist g).bsp = s.bsp := rfl
@[simp] theorem modBist_upsets (g : Bist → Bist) : (s.modBist g).upsets = s.upsets := rfl
@[simp] theorem modBist_blockResets (g : Bist → Bist) : (s.modBist g).blockResets = s.blockResets := rfl
@[simp] theorem modBist_react (g : Bist → Bist) : (s.modBist g).react = s.react := rfl
@[simp] theorem modBist_wdtCount (g : Bist → Bist) : (s.modBist g).wdtCount = s.wdtCount := rfl
@[simp] theorem modBist_wdtTimeout (g : Bist → Bist) : (s.modBist g).wdtTimeout = s.wdtTimeout := rfl
@[simp] theorem modBist_wdtWarn (g : Bist → Bist) : (s.modBist g).wdtWarn = s.wdtWarn := rfl
@[simp] theorem modBist_wdtWarned (g : Bist → Bist) : (s.modBist g).wdtWarned = s.wdtWarned := rfl
@[simp] theorem modBist_fns (g : Bist → Bist) : (s.modBist g).fns = s.fns := rfl
@[simp] theorem modBist_transits (g : Bist → Bist) : (s.modBist g).transits = s.transits := rfl
@[simp] theorem modBist_gone (g : Bist → Bist) : (s.modBist g).gone = s.gone := rfl
@[simp] theorem modBist_bands (g : Bist → Bist) : (s.modBist g).bands = s.bands := rfl
@[simp] theorem modBist_running (g : Bist → Bist) : (s.modBist g).running = s.running := rfl
@[simp] theorem modBist_dlv (g : Bist → Bist) : (s.modBist g).dlv = s.dlv := rfl
@[simp] theorem modBist_cas (g : Bist → Bist) : (s.modBist g).cas = s.cas := rfl
@[simp] theorem modBist_hostMem (g : Bist → Bist) : (s.modBist g).hostMem = s.hostMem := rfl
@[simp] theorem modBist_sts (g : Bist → Bist) : (s.modBist g).sts = s.sts := rfl
@[simp] theorem modBist_ws (g : Bist → Bist) : (s.modBist g).ws = s.ws := rfl
@[simp] theorem modBist_cht (g : Bist → Bist) : (s.modBist g).cht = s.cht := rfl
@[simp] theorem modBist_mceLb (g : Bist → Bist) : (s.modBist g).mceLb = s.mceLb := rfl
@[simp] theorem modBist_eleLb (g : Bist → Bist) : (s.modBist g).eleLb = s.eleLb := rfl
@[simp] theorem modBist_tdr (g : Bist → Bist) : (s.modBist g).tdr = s.tdr := rfl
@[simp] theorem modBist_freeCtr (g : Bist → Bist) : (s.modBist g).freeCtr = s.freeCtr := rfl
@[simp] theorem modBist_pending (g : Bist → Bist) : (s.modBist g).pending = s.pending := rfl

@[simp] theorem modCas_regs (g : Cascade → Cascade) : (s.modCas g).regs = s.regs := rfl
@[simp] theorem modCas_fregs (g : Cascade → Cascade) : (s.modCas g).fregs = s.fregs := rfl
@[simp] theorem modCas_shadow (g : Cascade → Cascade) : (s.modCas g).shadow = s.shadow := rfl
@[simp] theorem modCas_pciePath (g : Cascade → Cascade) : (s.modCas g).pciePath = s.pciePath := rfl
@[simp] theorem modCas_spiPath (g : Cascade → Cascade) : (s.modCas g).spiPath = s.spiPath := rfl
@[simp] theorem modCas_clk (g : Cascade → Cascade) : (s.modCas g).clk = s.clk := rfl
@[simp] theorem modCas_pw (g : Cascade → Cascade) : (s.modCas g).pw = s.pw := rfl
@[simp] theorem modCas_pcie (g : Cascade → Cascade) : (s.modCas g).pcie = s.pcie := rfl
@[simp] theorem modCas_sent (g : Cascade → Cascade) : (s.modCas g).sent = s.sent := rfl
@[simp] theorem modCas_chart (g : Cascade → Cascade) : (s.modCas g).chart = s.chart := rfl
@[simp] theorem modCas_hz (g : Cascade → Cascade) : (s.modCas g).hz = s.hz := rfl
@[simp] theorem modCas_jens (g : Cascade → Cascade) : (s.modCas g).jens = s.jens := rfl
@[simp] theorem modCas_lanes (g : Cascade → Cascade) : (s.modCas g).lanes = s.lanes := rfl
@[simp] theorem modCas_ports (g : Cascade → Cascade) : (s.modCas g).ports = s.ports := rfl
@[simp] theorem modCas_commit (g : Cascade → Cascade) : (s.modCas g).commit = s.commit := rfl
@[simp] theorem modCas_heldPwr (g : Cascade → Cascade) : (s.modCas g).heldPwr = s.heldPwr := rfl
@[simp] theorem modCas_spi (g : Cascade → Cascade) : (s.modCas g).spi = s.spi := rfl
@[simp] theorem modCas_bsp (g : Cascade → Cascade) : (s.modCas g).bsp = s.bsp := rfl
@[simp] theorem modCas_bist (g : Cascade → Cascade) : (s.modCas g).bist = s.bist := rfl
@[simp] theorem modCas_upsets (g : Cascade → Cascade) : (s.modCas g).upsets = s.upsets := rfl
@[simp] theorem modCas_blockResets (g : Cascade → Cascade) : (s.modCas g).blockResets = s.blockResets := rfl
@[simp] theorem modCas_react (g : Cascade → Cascade) : (s.modCas g).react = s.react := rfl
@[simp] theorem modCas_wdtCount (g : Cascade → Cascade) : (s.modCas g).wdtCount = s.wdtCount := rfl
@[simp] theorem modCas_wdtTimeout (g : Cascade → Cascade) : (s.modCas g).wdtTimeout = s.wdtTimeout := rfl
@[simp] theorem modCas_wdtWarn (g : Cascade → Cascade) : (s.modCas g).wdtWarn = s.wdtWarn := rfl
@[simp] theorem modCas_wdtWarned (g : Cascade → Cascade) : (s.modCas g).wdtWarned = s.wdtWarned := rfl
@[simp] theorem modCas_fns (g : Cascade → Cascade) : (s.modCas g).fns = s.fns := rfl
@[simp] theorem modCas_transits (g : Cascade → Cascade) : (s.modCas g).transits = s.transits := rfl
@[simp] theorem modCas_gone (g : Cascade → Cascade) : (s.modCas g).gone = s.gone := rfl
@[simp] theorem modCas_bands (g : Cascade → Cascade) : (s.modCas g).bands = s.bands := rfl
@[simp] theorem modCas_running (g : Cascade → Cascade) : (s.modCas g).running = s.running := rfl
@[simp] theorem modCas_dlv (g : Cascade → Cascade) : (s.modCas g).dlv = s.dlv := rfl
@[simp] theorem modCas_hostMem (g : Cascade → Cascade) : (s.modCas g).hostMem = s.hostMem := rfl
@[simp] theorem modCas_sts (g : Cascade → Cascade) : (s.modCas g).sts = s.sts := rfl
@[simp] theorem modCas_ws (g : Cascade → Cascade) : (s.modCas g).ws = s.ws := rfl
@[simp] theorem modCas_cht (g : Cascade → Cascade) : (s.modCas g).cht = s.cht := rfl
@[simp] theorem modCas_mceLb (g : Cascade → Cascade) : (s.modCas g).mceLb = s.mceLb := rfl
@[simp] theorem modCas_eleLb (g : Cascade → Cascade) : (s.modCas g).eleLb = s.eleLb := rfl
@[simp] theorem modCas_tdr (g : Cascade → Cascade) : (s.modCas g).tdr = s.tdr := rfl
@[simp] theorem modCas_freeCtr (g : Cascade → Cascade) : (s.modCas g).freeCtr = s.freeCtr := rfl
@[simp] theorem modCas_pending (g : Cascade → Cascade) : (s.modCas g).pending = s.pending := rfl

@[simp] theorem modCasLane_regs (g : CasLane → CasLane) : (s.modCasLane g).regs = s.regs := rfl
@[simp] theorem modCasLane_fregs (g : CasLane → CasLane) : (s.modCasLane g).fregs = s.fregs := rfl
@[simp] theorem modCasLane_shadow (g : CasLane → CasLane) : (s.modCasLane g).shadow = s.shadow := rfl
@[simp] theorem modCasLane_pciePath (g : CasLane → CasLane) : (s.modCasLane g).pciePath = s.pciePath := rfl
@[simp] theorem modCasLane_spiPath (g : CasLane → CasLane) : (s.modCasLane g).spiPath = s.spiPath := rfl
@[simp] theorem modCasLane_clk (g : CasLane → CasLane) : (s.modCasLane g).clk = s.clk := rfl
@[simp] theorem modCasLane_pw (g : CasLane → CasLane) : (s.modCasLane g).pw = s.pw := rfl
@[simp] theorem modCasLane_pcie (g : CasLane → CasLane) : (s.modCasLane g).pcie = s.pcie := rfl
@[simp] theorem modCasLane_sent (g : CasLane → CasLane) : (s.modCasLane g).sent = s.sent := rfl
@[simp] theorem modCasLane_chart (g : CasLane → CasLane) : (s.modCasLane g).chart = s.chart := rfl
@[simp] theorem modCasLane_hz (g : CasLane → CasLane) : (s.modCasLane g).hz = s.hz := rfl
@[simp] theorem modCasLane_jens (g : CasLane → CasLane) : (s.modCasLane g).jens = s.jens := rfl
@[simp] theorem modCasLane_lanes (g : CasLane → CasLane) : (s.modCasLane g).lanes = s.lanes := rfl
@[simp] theorem modCasLane_ports (g : CasLane → CasLane) : (s.modCasLane g).ports = s.ports := rfl
@[simp] theorem modCasLane_commit (g : CasLane → CasLane) : (s.modCasLane g).commit = s.commit := rfl
@[simp] theorem modCasLane_heldPwr (g : CasLane → CasLane) : (s.modCasLane g).heldPwr = s.heldPwr := rfl
@[simp] theorem modCasLane_spi (g : CasLane → CasLane) : (s.modCasLane g).spi = s.spi := rfl
@[simp] theorem modCasLane_bsp (g : CasLane → CasLane) : (s.modCasLane g).bsp = s.bsp := rfl
@[simp] theorem modCasLane_bist (g : CasLane → CasLane) : (s.modCasLane g).bist = s.bist := rfl
@[simp] theorem modCasLane_upsets (g : CasLane → CasLane) : (s.modCasLane g).upsets = s.upsets := rfl
@[simp] theorem modCasLane_blockResets (g : CasLane → CasLane) : (s.modCasLane g).blockResets = s.blockResets := rfl
@[simp] theorem modCasLane_react (g : CasLane → CasLane) : (s.modCasLane g).react = s.react := rfl
@[simp] theorem modCasLane_wdtCount (g : CasLane → CasLane) : (s.modCasLane g).wdtCount = s.wdtCount := rfl
@[simp] theorem modCasLane_wdtTimeout (g : CasLane → CasLane) : (s.modCasLane g).wdtTimeout = s.wdtTimeout := rfl
@[simp] theorem modCasLane_wdtWarn (g : CasLane → CasLane) : (s.modCasLane g).wdtWarn = s.wdtWarn := rfl
@[simp] theorem modCasLane_wdtWarned (g : CasLane → CasLane) : (s.modCasLane g).wdtWarned = s.wdtWarned := rfl
@[simp] theorem modCasLane_fns (g : CasLane → CasLane) : (s.modCasLane g).fns = s.fns := rfl
@[simp] theorem modCasLane_transits (g : CasLane → CasLane) : (s.modCasLane g).transits = s.transits := rfl
@[simp] theorem modCasLane_gone (g : CasLane → CasLane) : (s.modCasLane g).gone = s.gone := rfl
@[simp] theorem modCasLane_bands (g : CasLane → CasLane) : (s.modCasLane g).bands = s.bands := rfl
@[simp] theorem modCasLane_running (g : CasLane → CasLane) : (s.modCasLane g).running = s.running := rfl
@[simp] theorem modCasLane_dlv (g : CasLane → CasLane) : (s.modCasLane g).dlv = s.dlv := rfl
@[simp] theorem modCasLane_hostMem (g : CasLane → CasLane) : (s.modCasLane g).hostMem = s.hostMem := rfl
@[simp] theorem modCasLane_sts (g : CasLane → CasLane) : (s.modCasLane g).sts = s.sts := rfl
@[simp] theorem modCasLane_ws (g : CasLane → CasLane) : (s.modCasLane g).ws = s.ws := rfl
@[simp] theorem modCasLane_cht (g : CasLane → CasLane) : (s.modCasLane g).cht = s.cht := rfl
@[simp] theorem modCasLane_mceLb (g : CasLane → CasLane) : (s.modCasLane g).mceLb = s.mceLb := rfl
@[simp] theorem modCasLane_eleLb (g : CasLane → CasLane) : (s.modCasLane g).eleLb = s.eleLb := rfl
@[simp] theorem modCasLane_tdr (g : CasLane → CasLane) : (s.modCasLane g).tdr = s.tdr := rfl
@[simp] theorem modCasLane_freeCtr (g : CasLane → CasLane) : (s.modCasLane g).freeCtr = s.freeCtr := rfl
@[simp] theorem modCasLane_pending (g : CasLane → CasLane) : (s.modCasLane g).pending = s.pending := rfl

@[simp] theorem modSpi_regs (g : Spi → Spi) : (s.modSpi g).regs = s.regs := rfl
@[simp] theorem modSpi_fregs (g : Spi → Spi) : (s.modSpi g).fregs = s.fregs := rfl
@[simp] theorem modSpi_shadow (g : Spi → Spi) : (s.modSpi g).shadow = s.shadow := rfl
@[simp] theorem modSpi_pciePath (g : Spi → Spi) : (s.modSpi g).pciePath = s.pciePath := rfl
@[simp] theorem modSpi_spiPath (g : Spi → Spi) : (s.modSpi g).spiPath = s.spiPath := rfl
@[simp] theorem modSpi_clk (g : Spi → Spi) : (s.modSpi g).clk = s.clk := rfl
@[simp] theorem modSpi_pw (g : Spi → Spi) : (s.modSpi g).pw = s.pw := rfl
@[simp] theorem modSpi_pcie (g : Spi → Spi) : (s.modSpi g).pcie = s.pcie := rfl
@[simp] theorem modSpi_sent (g : Spi → Spi) : (s.modSpi g).sent = s.sent := rfl
@[simp] theorem modSpi_chart (g : Spi → Spi) : (s.modSpi g).chart = s.chart := rfl
@[simp] theorem modSpi_hz (g : Spi → Spi) : (s.modSpi g).hz = s.hz := rfl
@[simp] theorem modSpi_jens (g : Spi → Spi) : (s.modSpi g).jens = s.jens := rfl
@[simp] theorem modSpi_lanes (g : Spi → Spi) : (s.modSpi g).lanes = s.lanes := rfl
@[simp] theorem modSpi_ports (g : Spi → Spi) : (s.modSpi g).ports = s.ports := rfl
@[simp] theorem modSpi_commit (g : Spi → Spi) : (s.modSpi g).commit = s.commit := rfl
@[simp] theorem modSpi_heldPwr (g : Spi → Spi) : (s.modSpi g).heldPwr = s.heldPwr := rfl
@[simp] theorem modSpi_bsp (g : Spi → Spi) : (s.modSpi g).bsp = s.bsp := rfl
@[simp] theorem modSpi_bist (g : Spi → Spi) : (s.modSpi g).bist = s.bist := rfl
@[simp] theorem modSpi_upsets (g : Spi → Spi) : (s.modSpi g).upsets = s.upsets := rfl
@[simp] theorem modSpi_blockResets (g : Spi → Spi) : (s.modSpi g).blockResets = s.blockResets := rfl
@[simp] theorem modSpi_react (g : Spi → Spi) : (s.modSpi g).react = s.react := rfl
@[simp] theorem modSpi_wdtCount (g : Spi → Spi) : (s.modSpi g).wdtCount = s.wdtCount := rfl
@[simp] theorem modSpi_wdtTimeout (g : Spi → Spi) : (s.modSpi g).wdtTimeout = s.wdtTimeout := rfl
@[simp] theorem modSpi_wdtWarn (g : Spi → Spi) : (s.modSpi g).wdtWarn = s.wdtWarn := rfl
@[simp] theorem modSpi_wdtWarned (g : Spi → Spi) : (s.modSpi g).wdtWarned = s.wdtWarned := rfl
@[simp] theorem modSpi_fns (g : Spi → Spi) : (s.modSpi g).fns = s.fns := rfl
@[simp] theorem modSpi_transits (g : Spi → Spi) : (s.modSpi g).transits = s.transits := rfl
@[simp] theorem modSpi_gone (g : Spi → Spi) : (s.modSpi g).gone = s.gone := rfl
@[simp] theorem modSpi_bands (g : Spi → Spi) : (s.modSpi g).bands = s.bands := rfl
@[simp] theorem modSpi_running (g : Spi → Spi) : (s.modSpi g).running = s.running := rfl
@[simp] theorem modSpi_dlv (g : Spi → Spi) : (s.modSpi g).dlv = s.dlv := rfl
@[simp] theorem modSpi_cas (g : Spi → Spi) : (s.modSpi g).cas = s.cas := rfl
@[simp] theorem modSpi_hostMem (g : Spi → Spi) : (s.modSpi g).hostMem = s.hostMem := rfl
@[simp] theorem modSpi_sts (g : Spi → Spi) : (s.modSpi g).sts = s.sts := rfl
@[simp] theorem modSpi_ws (g : Spi → Spi) : (s.modSpi g).ws = s.ws := rfl
@[simp] theorem modSpi_cht (g : Spi → Spi) : (s.modSpi g).cht = s.cht := rfl
@[simp] theorem modSpi_mceLb (g : Spi → Spi) : (s.modSpi g).mceLb = s.mceLb := rfl
@[simp] theorem modSpi_eleLb (g : Spi → Spi) : (s.modSpi g).eleLb = s.eleLb := rfl
@[simp] theorem modSpi_tdr (g : Spi → Spi) : (s.modSpi g).tdr = s.tdr := rfl
@[simp] theorem modSpi_freeCtr (g : Spi → Spi) : (s.modSpi g).freeCtr = s.freeCtr := rfl
@[simp] theorem modSpi_pending (g : Spi → Spi) : (s.modSpi g).pending = s.pending := rfl

@[simp] theorem modPort_regs (q : Fin 4) (g : Port → Port) : (s.modPort q g).regs = s.regs := rfl
@[simp] theorem modPort_fregs (q : Fin 4) (g : Port → Port) : (s.modPort q g).fregs = s.fregs := rfl
@[simp] theorem modPort_shadow (q : Fin 4) (g : Port → Port) : (s.modPort q g).shadow = s.shadow := rfl
@[simp] theorem modPort_pciePath (q : Fin 4) (g : Port → Port) : (s.modPort q g).pciePath = s.pciePath := rfl
@[simp] theorem modPort_spiPath (q : Fin 4) (g : Port → Port) : (s.modPort q g).spiPath = s.spiPath := rfl
@[simp] theorem modPort_clk (q : Fin 4) (g : Port → Port) : (s.modPort q g).clk = s.clk := rfl
@[simp] theorem modPort_pw (q : Fin 4) (g : Port → Port) : (s.modPort q g).pw = s.pw := rfl
@[simp] theorem modPort_pcie (q : Fin 4) (g : Port → Port) : (s.modPort q g).pcie = s.pcie := rfl
@[simp] theorem modPort_sent (q : Fin 4) (g : Port → Port) : (s.modPort q g).sent = s.sent := rfl
@[simp] theorem modPort_chart (q : Fin 4) (g : Port → Port) : (s.modPort q g).chart = s.chart := rfl
@[simp] theorem modPort_hz (q : Fin 4) (g : Port → Port) : (s.modPort q g).hz = s.hz := rfl
@[simp] theorem modPort_jens (q : Fin 4) (g : Port → Port) : (s.modPort q g).jens = s.jens := rfl
@[simp] theorem modPort_lanes (q : Fin 4) (g : Port → Port) : (s.modPort q g).lanes = s.lanes := rfl
@[simp] theorem modPort_commit (q : Fin 4) (g : Port → Port) : (s.modPort q g).commit = s.commit := rfl
@[simp] theorem modPort_heldPwr (q : Fin 4) (g : Port → Port) : (s.modPort q g).heldPwr = s.heldPwr := rfl
@[simp] theorem modPort_spi (q : Fin 4) (g : Port → Port) : (s.modPort q g).spi = s.spi := rfl
@[simp] theorem modPort_bsp (q : Fin 4) (g : Port → Port) : (s.modPort q g).bsp = s.bsp := rfl
@[simp] theorem modPort_bist (q : Fin 4) (g : Port → Port) : (s.modPort q g).bist = s.bist := rfl
@[simp] theorem modPort_upsets (q : Fin 4) (g : Port → Port) : (s.modPort q g).upsets = s.upsets := rfl
@[simp] theorem modPort_blockResets (q : Fin 4) (g : Port → Port) : (s.modPort q g).blockResets = s.blockResets := rfl
@[simp] theorem modPort_react (q : Fin 4) (g : Port → Port) : (s.modPort q g).react = s.react := rfl
@[simp] theorem modPort_wdtCount (q : Fin 4) (g : Port → Port) : (s.modPort q g).wdtCount = s.wdtCount := rfl
@[simp] theorem modPort_wdtTimeout (q : Fin 4) (g : Port → Port) : (s.modPort q g).wdtTimeout = s.wdtTimeout := rfl
@[simp] theorem modPort_wdtWarn (q : Fin 4) (g : Port → Port) : (s.modPort q g).wdtWarn = s.wdtWarn := rfl
@[simp] theorem modPort_wdtWarned (q : Fin 4) (g : Port → Port) : (s.modPort q g).wdtWarned = s.wdtWarned := rfl
@[simp] theorem modPort_fns (q : Fin 4) (g : Port → Port) : (s.modPort q g).fns = s.fns := rfl
@[simp] theorem modPort_transits (q : Fin 4) (g : Port → Port) : (s.modPort q g).transits = s.transits := rfl
@[simp] theorem modPort_gone (q : Fin 4) (g : Port → Port) : (s.modPort q g).gone = s.gone := rfl
@[simp] theorem modPort_bands (q : Fin 4) (g : Port → Port) : (s.modPort q g).bands = s.bands := rfl
@[simp] theorem modPort_running (q : Fin 4) (g : Port → Port) : (s.modPort q g).running = s.running := rfl
@[simp] theorem modPort_dlv (q : Fin 4) (g : Port → Port) : (s.modPort q g).dlv = s.dlv := rfl
@[simp] theorem modPort_cas (q : Fin 4) (g : Port → Port) : (s.modPort q g).cas = s.cas := rfl
@[simp] theorem modPort_hostMem (q : Fin 4) (g : Port → Port) : (s.modPort q g).hostMem = s.hostMem := rfl
@[simp] theorem modPort_sts (q : Fin 4) (g : Port → Port) : (s.modPort q g).sts = s.sts := rfl
@[simp] theorem modPort_ws (q : Fin 4) (g : Port → Port) : (s.modPort q g).ws = s.ws := rfl
@[simp] theorem modPort_cht (q : Fin 4) (g : Port → Port) : (s.modPort q g).cht = s.cht := rfl
@[simp] theorem modPort_mceLb (q : Fin 4) (g : Port → Port) : (s.modPort q g).mceLb = s.mceLb := rfl
@[simp] theorem modPort_eleLb (q : Fin 4) (g : Port → Port) : (s.modPort q g).eleLb = s.eleLb := rfl
@[simp] theorem modPort_tdr (q : Fin 4) (g : Port → Port) : (s.modPort q g).tdr = s.tdr := rfl
@[simp] theorem modPort_freeCtr (q : Fin 4) (g : Port → Port) : (s.modPort q g).freeCtr = s.freeCtr := rfl
@[simp] theorem modPort_pending (q : Fin 4) (g : Port → Port) : (s.modPort q g).pending = s.pending := rfl

@[simp] theorem modLane_regs (x : Fin 16) (g : Lane → Lane) : (s.modLane x g).regs = s.regs := rfl
@[simp] theorem modLane_fregs (x : Fin 16) (g : Lane → Lane) : (s.modLane x g).fregs = s.fregs := rfl
@[simp] theorem modLane_shadow (x : Fin 16) (g : Lane → Lane) : (s.modLane x g).shadow = s.shadow := rfl
@[simp] theorem modLane_pciePath (x : Fin 16) (g : Lane → Lane) : (s.modLane x g).pciePath = s.pciePath := rfl
@[simp] theorem modLane_spiPath (x : Fin 16) (g : Lane → Lane) : (s.modLane x g).spiPath = s.spiPath := rfl
@[simp] theorem modLane_clk (x : Fin 16) (g : Lane → Lane) : (s.modLane x g).clk = s.clk := rfl
@[simp] theorem modLane_pw (x : Fin 16) (g : Lane → Lane) : (s.modLane x g).pw = s.pw := rfl
@[simp] theorem modLane_pcie (x : Fin 16) (g : Lane → Lane) : (s.modLane x g).pcie = s.pcie := rfl
@[simp] theorem modLane_sent (x : Fin 16) (g : Lane → Lane) : (s.modLane x g).sent = s.sent := rfl
@[simp] theorem modLane_chart (x : Fin 16) (g : Lane → Lane) : (s.modLane x g).chart = s.chart := rfl
@[simp] theorem modLane_hz (x : Fin 16) (g : Lane → Lane) : (s.modLane x g).hz = s.hz := rfl
@[simp] theorem modLane_jens (x : Fin 16) (g : Lane → Lane) : (s.modLane x g).jens = s.jens := rfl
@[simp] theorem modLane_ports (x : Fin 16) (g : Lane → Lane) : (s.modLane x g).ports = s.ports := rfl
@[simp] theorem modLane_commit (x : Fin 16) (g : Lane → Lane) : (s.modLane x g).commit = s.commit := rfl
@[simp] theorem modLane_heldPwr (x : Fin 16) (g : Lane → Lane) : (s.modLane x g).heldPwr = s.heldPwr := rfl
@[simp] theorem modLane_spi (x : Fin 16) (g : Lane → Lane) : (s.modLane x g).spi = s.spi := rfl
@[simp] theorem modLane_bsp (x : Fin 16) (g : Lane → Lane) : (s.modLane x g).bsp = s.bsp := rfl
@[simp] theorem modLane_bist (x : Fin 16) (g : Lane → Lane) : (s.modLane x g).bist = s.bist := rfl
@[simp] theorem modLane_upsets (x : Fin 16) (g : Lane → Lane) : (s.modLane x g).upsets = s.upsets := rfl
@[simp] theorem modLane_blockResets (x : Fin 16) (g : Lane → Lane) : (s.modLane x g).blockResets = s.blockResets := rfl
@[simp] theorem modLane_react (x : Fin 16) (g : Lane → Lane) : (s.modLane x g).react = s.react := rfl
@[simp] theorem modLane_wdtCount (x : Fin 16) (g : Lane → Lane) : (s.modLane x g).wdtCount = s.wdtCount := rfl
@[simp] theorem modLane_wdtTimeout (x : Fin 16) (g : Lane → Lane) : (s.modLane x g).wdtTimeout = s.wdtTimeout := rfl
@[simp] theorem modLane_wdtWarn (x : Fin 16) (g : Lane → Lane) : (s.modLane x g).wdtWarn = s.wdtWarn := rfl
@[simp] theorem modLane_wdtWarned (x : Fin 16) (g : Lane → Lane) : (s.modLane x g).wdtWarned = s.wdtWarned := rfl
@[simp] theorem modLane_fns (x : Fin 16) (g : Lane → Lane) : (s.modLane x g).fns = s.fns := rfl
@[simp] theorem modLane_transits (x : Fin 16) (g : Lane → Lane) : (s.modLane x g).transits = s.transits := rfl
@[simp] theorem modLane_gone (x : Fin 16) (g : Lane → Lane) : (s.modLane x g).gone = s.gone := rfl
@[simp] theorem modLane_bands (x : Fin 16) (g : Lane → Lane) : (s.modLane x g).bands = s.bands := rfl
@[simp] theorem modLane_running (x : Fin 16) (g : Lane → Lane) : (s.modLane x g).running = s.running := rfl
@[simp] theorem modLane_dlv (x : Fin 16) (g : Lane → Lane) : (s.modLane x g).dlv = s.dlv := rfl
@[simp] theorem modLane_cas (x : Fin 16) (g : Lane → Lane) : (s.modLane x g).cas = s.cas := rfl
@[simp] theorem modLane_hostMem (x : Fin 16) (g : Lane → Lane) : (s.modLane x g).hostMem = s.hostMem := rfl
@[simp] theorem modLane_sts (x : Fin 16) (g : Lane → Lane) : (s.modLane x g).sts = s.sts := rfl
@[simp] theorem modLane_ws (x : Fin 16) (g : Lane → Lane) : (s.modLane x g).ws = s.ws := rfl
@[simp] theorem modLane_cht (x : Fin 16) (g : Lane → Lane) : (s.modLane x g).cht = s.cht := rfl
@[simp] theorem modLane_mceLb (x : Fin 16) (g : Lane → Lane) : (s.modLane x g).mceLb = s.mceLb := rfl
@[simp] theorem modLane_eleLb (x : Fin 16) (g : Lane → Lane) : (s.modLane x g).eleLb = s.eleLb := rfl
@[simp] theorem modLane_tdr (x : Fin 16) (g : Lane → Lane) : (s.modLane x g).tdr = s.tdr := rfl
@[simp] theorem modLane_freeCtr (x : Fin 16) (g : Lane → Lane) : (s.modLane x g).freeCtr = s.freeCtr := rfl
@[simp] theorem modLane_pending (x : Fin 16) (g : Lane → Lane) : (s.modLane x g).pending = s.pending := rfl

@[simp] theorem modTransit_regs (n tid : Nat) (g : Transit → Transit) : (s.modTransit n tid g).regs = s.regs := rfl
@[simp] theorem modTransit_fregs (n tid : Nat) (g : Transit → Transit) : (s.modTransit n tid g).fregs = s.fregs := rfl
@[simp] theorem modTransit_shadow (n tid : Nat) (g : Transit → Transit) : (s.modTransit n tid g).shadow = s.shadow := rfl
@[simp] theorem modTransit_pciePath (n tid : Nat) (g : Transit → Transit) : (s.modTransit n tid g).pciePath = s.pciePath := rfl
@[simp] theorem modTransit_spiPath (n tid : Nat) (g : Transit → Transit) : (s.modTransit n tid g).spiPath = s.spiPath := rfl
@[simp] theorem modTransit_clk (n tid : Nat) (g : Transit → Transit) : (s.modTransit n tid g).clk = s.clk := rfl
@[simp] theorem modTransit_pw (n tid : Nat) (g : Transit → Transit) : (s.modTransit n tid g).pw = s.pw := rfl
@[simp] theorem modTransit_pcie (n tid : Nat) (g : Transit → Transit) : (s.modTransit n tid g).pcie = s.pcie := rfl
@[simp] theorem modTransit_sent (n tid : Nat) (g : Transit → Transit) : (s.modTransit n tid g).sent = s.sent := rfl
@[simp] theorem modTransit_chart (n tid : Nat) (g : Transit → Transit) : (s.modTransit n tid g).chart = s.chart := rfl
@[simp] theorem modTransit_hz (n tid : Nat) (g : Transit → Transit) : (s.modTransit n tid g).hz = s.hz := rfl
@[simp] theorem modTransit_jens (n tid : Nat) (g : Transit → Transit) : (s.modTransit n tid g).jens = s.jens := rfl
@[simp] theorem modTransit_lanes (n tid : Nat) (g : Transit → Transit) : (s.modTransit n tid g).lanes = s.lanes := rfl
@[simp] theorem modTransit_ports (n tid : Nat) (g : Transit → Transit) : (s.modTransit n tid g).ports = s.ports := rfl
@[simp] theorem modTransit_commit (n tid : Nat) (g : Transit → Transit) : (s.modTransit n tid g).commit = s.commit := rfl
@[simp] theorem modTransit_heldPwr (n tid : Nat) (g : Transit → Transit) : (s.modTransit n tid g).heldPwr = s.heldPwr := rfl
@[simp] theorem modTransit_spi (n tid : Nat) (g : Transit → Transit) : (s.modTransit n tid g).spi = s.spi := rfl
@[simp] theorem modTransit_bsp (n tid : Nat) (g : Transit → Transit) : (s.modTransit n tid g).bsp = s.bsp := rfl
@[simp] theorem modTransit_bist (n tid : Nat) (g : Transit → Transit) : (s.modTransit n tid g).bist = s.bist := rfl
@[simp] theorem modTransit_upsets (n tid : Nat) (g : Transit → Transit) : (s.modTransit n tid g).upsets = s.upsets := rfl
@[simp] theorem modTransit_blockResets (n tid : Nat) (g : Transit → Transit) : (s.modTransit n tid g).blockResets = s.blockResets := rfl
@[simp] theorem modTransit_react (n tid : Nat) (g : Transit → Transit) : (s.modTransit n tid g).react = s.react := rfl
@[simp] theorem modTransit_wdtCount (n tid : Nat) (g : Transit → Transit) : (s.modTransit n tid g).wdtCount = s.wdtCount := rfl
@[simp] theorem modTransit_wdtTimeout (n tid : Nat) (g : Transit → Transit) : (s.modTransit n tid g).wdtTimeout = s.wdtTimeout := rfl
@[simp] theorem modTransit_wdtWarn (n tid : Nat) (g : Transit → Transit) : (s.modTransit n tid g).wdtWarn = s.wdtWarn := rfl
@[simp] theorem modTransit_wdtWarned (n tid : Nat) (g : Transit → Transit) : (s.modTransit n tid g).wdtWarned = s.wdtWarned := rfl
@[simp] theorem modTransit_fns (n tid : Nat) (g : Transit → Transit) : (s.modTransit n tid g).fns = s.fns := rfl
@[simp] theorem modTransit_gone (n tid : Nat) (g : Transit → Transit) : (s.modTransit n tid g).gone = s.gone := rfl
@[simp] theorem modTransit_bands (n tid : Nat) (g : Transit → Transit) : (s.modTransit n tid g).bands = s.bands := rfl
@[simp] theorem modTransit_running (n tid : Nat) (g : Transit → Transit) : (s.modTransit n tid g).running = s.running := rfl
@[simp] theorem modTransit_dlv (n tid : Nat) (g : Transit → Transit) : (s.modTransit n tid g).dlv = s.dlv := rfl
@[simp] theorem modTransit_cas (n tid : Nat) (g : Transit → Transit) : (s.modTransit n tid g).cas = s.cas := rfl
@[simp] theorem modTransit_hostMem (n tid : Nat) (g : Transit → Transit) : (s.modTransit n tid g).hostMem = s.hostMem := rfl
@[simp] theorem modTransit_sts (n tid : Nat) (g : Transit → Transit) : (s.modTransit n tid g).sts = s.sts := rfl
@[simp] theorem modTransit_ws (n tid : Nat) (g : Transit → Transit) : (s.modTransit n tid g).ws = s.ws := rfl
@[simp] theorem modTransit_cht (n tid : Nat) (g : Transit → Transit) : (s.modTransit n tid g).cht = s.cht := rfl
@[simp] theorem modTransit_mceLb (n tid : Nat) (g : Transit → Transit) : (s.modTransit n tid g).mceLb = s.mceLb := rfl
@[simp] theorem modTransit_eleLb (n tid : Nat) (g : Transit → Transit) : (s.modTransit n tid g).eleLb = s.eleLb := rfl
@[simp] theorem modTransit_tdr (n tid : Nat) (g : Transit → Transit) : (s.modTransit n tid g).tdr = s.tdr := rfl
@[simp] theorem modTransit_freeCtr (n tid : Nat) (g : Transit → Transit) : (s.modTransit n tid g).freeCtr = s.freeCtr := rfl
@[simp] theorem modTransit_pending (n tid : Nat) (g : Transit → Transit) : (s.modTransit n tid g).pending = s.pending := rfl

@[simp] theorem modCap_regs (n tid p : Nat) (g : Capture → Capture) : (s.modCap n tid p g).regs = s.regs := rfl
@[simp] theorem modCap_fregs (n tid p : Nat) (g : Capture → Capture) : (s.modCap n tid p g).fregs = s.fregs := rfl
@[simp] theorem modCap_shadow (n tid p : Nat) (g : Capture → Capture) : (s.modCap n tid p g).shadow = s.shadow := rfl
@[simp] theorem modCap_pciePath (n tid p : Nat) (g : Capture → Capture) : (s.modCap n tid p g).pciePath = s.pciePath := rfl
@[simp] theorem modCap_spiPath (n tid p : Nat) (g : Capture → Capture) : (s.modCap n tid p g).spiPath = s.spiPath := rfl
@[simp] theorem modCap_clk (n tid p : Nat) (g : Capture → Capture) : (s.modCap n tid p g).clk = s.clk := rfl
@[simp] theorem modCap_pw (n tid p : Nat) (g : Capture → Capture) : (s.modCap n tid p g).pw = s.pw := rfl
@[simp] theorem modCap_pcie (n tid p : Nat) (g : Capture → Capture) : (s.modCap n tid p g).pcie = s.pcie := rfl
@[simp] theorem modCap_sent (n tid p : Nat) (g : Capture → Capture) : (s.modCap n tid p g).sent = s.sent := rfl
@[simp] theorem modCap_chart (n tid p : Nat) (g : Capture → Capture) : (s.modCap n tid p g).chart = s.chart := rfl
@[simp] theorem modCap_hz (n tid p : Nat) (g : Capture → Capture) : (s.modCap n tid p g).hz = s.hz := rfl
@[simp] theorem modCap_jens (n tid p : Nat) (g : Capture → Capture) : (s.modCap n tid p g).jens = s.jens := rfl
@[simp] theorem modCap_lanes (n tid p : Nat) (g : Capture → Capture) : (s.modCap n tid p g).lanes = s.lanes := rfl
@[simp] theorem modCap_ports (n tid p : Nat) (g : Capture → Capture) : (s.modCap n tid p g).ports = s.ports := rfl
@[simp] theorem modCap_commit (n tid p : Nat) (g : Capture → Capture) : (s.modCap n tid p g).commit = s.commit := rfl
@[simp] theorem modCap_heldPwr (n tid p : Nat) (g : Capture → Capture) : (s.modCap n tid p g).heldPwr = s.heldPwr := rfl
@[simp] theorem modCap_spi (n tid p : Nat) (g : Capture → Capture) : (s.modCap n tid p g).spi = s.spi := rfl
@[simp] theorem modCap_bsp (n tid p : Nat) (g : Capture → Capture) : (s.modCap n tid p g).bsp = s.bsp := rfl
@[simp] theorem modCap_bist (n tid p : Nat) (g : Capture → Capture) : (s.modCap n tid p g).bist = s.bist := rfl
@[simp] theorem modCap_upsets (n tid p : Nat) (g : Capture → Capture) : (s.modCap n tid p g).upsets = s.upsets := rfl
@[simp] theorem modCap_blockResets (n tid p : Nat) (g : Capture → Capture) : (s.modCap n tid p g).blockResets = s.blockResets := rfl
@[simp] theorem modCap_react (n tid p : Nat) (g : Capture → Capture) : (s.modCap n tid p g).react = s.react := rfl
@[simp] theorem modCap_wdtCount (n tid p : Nat) (g : Capture → Capture) : (s.modCap n tid p g).wdtCount = s.wdtCount := rfl
@[simp] theorem modCap_wdtTimeout (n tid p : Nat) (g : Capture → Capture) : (s.modCap n tid p g).wdtTimeout = s.wdtTimeout := rfl
@[simp] theorem modCap_wdtWarn (n tid p : Nat) (g : Capture → Capture) : (s.modCap n tid p g).wdtWarn = s.wdtWarn := rfl
@[simp] theorem modCap_wdtWarned (n tid p : Nat) (g : Capture → Capture) : (s.modCap n tid p g).wdtWarned = s.wdtWarned := rfl
@[simp] theorem modCap_fns (n tid p : Nat) (g : Capture → Capture) : (s.modCap n tid p g).fns = s.fns := rfl
@[simp] theorem modCap_gone (n tid p : Nat) (g : Capture → Capture) : (s.modCap n tid p g).gone = s.gone := rfl
@[simp] theorem modCap_bands (n tid p : Nat) (g : Capture → Capture) : (s.modCap n tid p g).bands = s.bands := rfl
@[simp] theorem modCap_running (n tid p : Nat) (g : Capture → Capture) : (s.modCap n tid p g).running = s.running := rfl
@[simp] theorem modCap_dlv (n tid p : Nat) (g : Capture → Capture) : (s.modCap n tid p g).dlv = s.dlv := rfl
@[simp] theorem modCap_cas (n tid p : Nat) (g : Capture → Capture) : (s.modCap n tid p g).cas = s.cas := rfl
@[simp] theorem modCap_hostMem (n tid p : Nat) (g : Capture → Capture) : (s.modCap n tid p g).hostMem = s.hostMem := rfl
@[simp] theorem modCap_sts (n tid p : Nat) (g : Capture → Capture) : (s.modCap n tid p g).sts = s.sts := rfl
@[simp] theorem modCap_ws (n tid p : Nat) (g : Capture → Capture) : (s.modCap n tid p g).ws = s.ws := rfl
@[simp] theorem modCap_cht (n tid p : Nat) (g : Capture → Capture) : (s.modCap n tid p g).cht = s.cht := rfl
@[simp] theorem modCap_mceLb (n tid p : Nat) (g : Capture → Capture) : (s.modCap n tid p g).mceLb = s.mceLb := rfl
@[simp] theorem modCap_eleLb (n tid p : Nat) (g : Capture → Capture) : (s.modCap n tid p g).eleLb = s.eleLb := rfl
@[simp] theorem modCap_tdr (n tid p : Nat) (g : Capture → Capture) : (s.modCap n tid p g).tdr = s.tdr := rfl
@[simp] theorem modCap_freeCtr (n tid p : Nat) (g : Capture → Capture) : (s.modCap n tid p g).freeCtr = s.freeCtr := rfl
@[simp] theorem modCap_pending (n tid p : Nat) (g : Capture → Capture) : (s.modCap n tid p g).pending = s.pending := rfl

@[simp] theorem modAnyTransit_regs (n tid : Nat) (g : Transit → Transit) : (s.modAnyTransit n tid g).regs = s.regs := rfl
@[simp] theorem modAnyTransit_fregs (n tid : Nat) (g : Transit → Transit) : (s.modAnyTransit n tid g).fregs = s.fregs := rfl
@[simp] theorem modAnyTransit_shadow (n tid : Nat) (g : Transit → Transit) : (s.modAnyTransit n tid g).shadow = s.shadow := rfl
@[simp] theorem modAnyTransit_pciePath (n tid : Nat) (g : Transit → Transit) : (s.modAnyTransit n tid g).pciePath = s.pciePath := rfl
@[simp] theorem modAnyTransit_spiPath (n tid : Nat) (g : Transit → Transit) : (s.modAnyTransit n tid g).spiPath = s.spiPath := rfl
@[simp] theorem modAnyTransit_clk (n tid : Nat) (g : Transit → Transit) : (s.modAnyTransit n tid g).clk = s.clk := rfl
@[simp] theorem modAnyTransit_pw (n tid : Nat) (g : Transit → Transit) : (s.modAnyTransit n tid g).pw = s.pw := rfl
@[simp] theorem modAnyTransit_pcie (n tid : Nat) (g : Transit → Transit) : (s.modAnyTransit n tid g).pcie = s.pcie := rfl
@[simp] theorem modAnyTransit_sent (n tid : Nat) (g : Transit → Transit) : (s.modAnyTransit n tid g).sent = s.sent := rfl
@[simp] theorem modAnyTransit_chart (n tid : Nat) (g : Transit → Transit) : (s.modAnyTransit n tid g).chart = s.chart := rfl
@[simp] theorem modAnyTransit_hz (n tid : Nat) (g : Transit → Transit) : (s.modAnyTransit n tid g).hz = s.hz := rfl
@[simp] theorem modAnyTransit_jens (n tid : Nat) (g : Transit → Transit) : (s.modAnyTransit n tid g).jens = s.jens := rfl
@[simp] theorem modAnyTransit_lanes (n tid : Nat) (g : Transit → Transit) : (s.modAnyTransit n tid g).lanes = s.lanes := rfl
@[simp] theorem modAnyTransit_ports (n tid : Nat) (g : Transit → Transit) : (s.modAnyTransit n tid g).ports = s.ports := rfl
@[simp] theorem modAnyTransit_commit (n tid : Nat) (g : Transit → Transit) : (s.modAnyTransit n tid g).commit = s.commit := rfl
@[simp] theorem modAnyTransit_heldPwr (n tid : Nat) (g : Transit → Transit) : (s.modAnyTransit n tid g).heldPwr = s.heldPwr := rfl
@[simp] theorem modAnyTransit_spi (n tid : Nat) (g : Transit → Transit) : (s.modAnyTransit n tid g).spi = s.spi := rfl
@[simp] theorem modAnyTransit_bsp (n tid : Nat) (g : Transit → Transit) : (s.modAnyTransit n tid g).bsp = s.bsp := rfl
@[simp] theorem modAnyTransit_bist (n tid : Nat) (g : Transit → Transit) : (s.modAnyTransit n tid g).bist = s.bist := rfl
@[simp] theorem modAnyTransit_upsets (n tid : Nat) (g : Transit → Transit) : (s.modAnyTransit n tid g).upsets = s.upsets := rfl
@[simp] theorem modAnyTransit_blockResets (n tid : Nat) (g : Transit → Transit) : (s.modAnyTransit n tid g).blockResets = s.blockResets := rfl
@[simp] theorem modAnyTransit_react (n tid : Nat) (g : Transit → Transit) : (s.modAnyTransit n tid g).react = s.react := rfl
@[simp] theorem modAnyTransit_wdtCount (n tid : Nat) (g : Transit → Transit) : (s.modAnyTransit n tid g).wdtCount = s.wdtCount := rfl
@[simp] theorem modAnyTransit_wdtTimeout (n tid : Nat) (g : Transit → Transit) : (s.modAnyTransit n tid g).wdtTimeout = s.wdtTimeout := rfl
@[simp] theorem modAnyTransit_wdtWarn (n tid : Nat) (g : Transit → Transit) : (s.modAnyTransit n tid g).wdtWarn = s.wdtWarn := rfl
@[simp] theorem modAnyTransit_wdtWarned (n tid : Nat) (g : Transit → Transit) : (s.modAnyTransit n tid g).wdtWarned = s.wdtWarned := rfl
@[simp] theorem modAnyTransit_fns (n tid : Nat) (g : Transit → Transit) : (s.modAnyTransit n tid g).fns = s.fns := rfl
@[simp] theorem modAnyTransit_bands (n tid : Nat) (g : Transit → Transit) : (s.modAnyTransit n tid g).bands = s.bands := rfl
@[simp] theorem modAnyTransit_running (n tid : Nat) (g : Transit → Transit) : (s.modAnyTransit n tid g).running = s.running := rfl
@[simp] theorem modAnyTransit_dlv (n tid : Nat) (g : Transit → Transit) : (s.modAnyTransit n tid g).dlv = s.dlv := rfl
@[simp] theorem modAnyTransit_cas (n tid : Nat) (g : Transit → Transit) : (s.modAnyTransit n tid g).cas = s.cas := rfl
@[simp] theorem modAnyTransit_hostMem (n tid : Nat) (g : Transit → Transit) : (s.modAnyTransit n tid g).hostMem = s.hostMem := rfl
@[simp] theorem modAnyTransit_sts (n tid : Nat) (g : Transit → Transit) : (s.modAnyTransit n tid g).sts = s.sts := rfl
@[simp] theorem modAnyTransit_ws (n tid : Nat) (g : Transit → Transit) : (s.modAnyTransit n tid g).ws = s.ws := rfl
@[simp] theorem modAnyTransit_cht (n tid : Nat) (g : Transit → Transit) : (s.modAnyTransit n tid g).cht = s.cht := rfl
@[simp] theorem modAnyTransit_mceLb (n tid : Nat) (g : Transit → Transit) : (s.modAnyTransit n tid g).mceLb = s.mceLb := rfl
@[simp] theorem modAnyTransit_eleLb (n tid : Nat) (g : Transit → Transit) : (s.modAnyTransit n tid g).eleLb = s.eleLb := rfl
@[simp] theorem modAnyTransit_tdr (n tid : Nat) (g : Transit → Transit) : (s.modAnyTransit n tid g).tdr = s.tdr := rfl
@[simp] theorem modAnyTransit_freeCtr (n tid : Nat) (g : Transit → Transit) : (s.modAnyTransit n tid g).freeCtr = s.freeCtr := rfl
@[simp] theorem modAnyTransit_pending (n tid : Nat) (g : Transit → Transit) : (s.modAnyTransit n tid g).pending = s.pending := rfl

@[simp] theorem modBand_regs (n kind idx : Nat) (g : Band → Band) : (s.modBand n kind idx g).regs = s.regs := rfl
@[simp] theorem modBand_fregs (n kind idx : Nat) (g : Band → Band) : (s.modBand n kind idx g).fregs = s.fregs := rfl
@[simp] theorem modBand_shadow (n kind idx : Nat) (g : Band → Band) : (s.modBand n kind idx g).shadow = s.shadow := rfl
@[simp] theorem modBand_pciePath (n kind idx : Nat) (g : Band → Band) : (s.modBand n kind idx g).pciePath = s.pciePath := rfl
@[simp] theorem modBand_spiPath (n kind idx : Nat) (g : Band → Band) : (s.modBand n kind idx g).spiPath = s.spiPath := rfl
@[simp] theorem modBand_clk (n kind idx : Nat) (g : Band → Band) : (s.modBand n kind idx g).clk = s.clk := rfl
@[simp] theorem modBand_pw (n kind idx : Nat) (g : Band → Band) : (s.modBand n kind idx g).pw = s.pw := rfl
@[simp] theorem modBand_pcie (n kind idx : Nat) (g : Band → Band) : (s.modBand n kind idx g).pcie = s.pcie := rfl
@[simp] theorem modBand_sent (n kind idx : Nat) (g : Band → Band) : (s.modBand n kind idx g).sent = s.sent := rfl
@[simp] theorem modBand_chart (n kind idx : Nat) (g : Band → Band) : (s.modBand n kind idx g).chart = s.chart := rfl
@[simp] theorem modBand_hz (n kind idx : Nat) (g : Band → Band) : (s.modBand n kind idx g).hz = s.hz := rfl
@[simp] theorem modBand_jens (n kind idx : Nat) (g : Band → Band) : (s.modBand n kind idx g).jens = s.jens := rfl
@[simp] theorem modBand_lanes (n kind idx : Nat) (g : Band → Band) : (s.modBand n kind idx g).lanes = s.lanes := rfl
@[simp] theorem modBand_ports (n kind idx : Nat) (g : Band → Band) : (s.modBand n kind idx g).ports = s.ports := rfl
@[simp] theorem modBand_commit (n kind idx : Nat) (g : Band → Band) : (s.modBand n kind idx g).commit = s.commit := rfl
@[simp] theorem modBand_heldPwr (n kind idx : Nat) (g : Band → Band) : (s.modBand n kind idx g).heldPwr = s.heldPwr := rfl
@[simp] theorem modBand_spi (n kind idx : Nat) (g : Band → Band) : (s.modBand n kind idx g).spi = s.spi := rfl
@[simp] theorem modBand_bsp (n kind idx : Nat) (g : Band → Band) : (s.modBand n kind idx g).bsp = s.bsp := rfl
@[simp] theorem modBand_bist (n kind idx : Nat) (g : Band → Band) : (s.modBand n kind idx g).bist = s.bist := rfl
@[simp] theorem modBand_upsets (n kind idx : Nat) (g : Band → Band) : (s.modBand n kind idx g).upsets = s.upsets := rfl
@[simp] theorem modBand_blockResets (n kind idx : Nat) (g : Band → Band) : (s.modBand n kind idx g).blockResets = s.blockResets := rfl
@[simp] theorem modBand_react (n kind idx : Nat) (g : Band → Band) : (s.modBand n kind idx g).react = s.react := rfl
@[simp] theorem modBand_wdtCount (n kind idx : Nat) (g : Band → Band) : (s.modBand n kind idx g).wdtCount = s.wdtCount := rfl
@[simp] theorem modBand_wdtTimeout (n kind idx : Nat) (g : Band → Band) : (s.modBand n kind idx g).wdtTimeout = s.wdtTimeout := rfl
@[simp] theorem modBand_wdtWarn (n kind idx : Nat) (g : Band → Band) : (s.modBand n kind idx g).wdtWarn = s.wdtWarn := rfl
@[simp] theorem modBand_wdtWarned (n kind idx : Nat) (g : Band → Band) : (s.modBand n kind idx g).wdtWarned = s.wdtWarned := rfl
@[simp] theorem modBand_fns (n kind idx : Nat) (g : Band → Band) : (s.modBand n kind idx g).fns = s.fns := rfl
@[simp] theorem modBand_transits (n kind idx : Nat) (g : Band → Band) : (s.modBand n kind idx g).transits = s.transits := rfl
@[simp] theorem modBand_gone (n kind idx : Nat) (g : Band → Band) : (s.modBand n kind idx g).gone = s.gone := rfl
@[simp] theorem modBand_running (n kind idx : Nat) (g : Band → Band) : (s.modBand n kind idx g).running = s.running := rfl
@[simp] theorem modBand_dlv (n kind idx : Nat) (g : Band → Band) : (s.modBand n kind idx g).dlv = s.dlv := rfl
@[simp] theorem modBand_cas (n kind idx : Nat) (g : Band → Band) : (s.modBand n kind idx g).cas = s.cas := rfl
@[simp] theorem modBand_hostMem (n kind idx : Nat) (g : Band → Band) : (s.modBand n kind idx g).hostMem = s.hostMem := rfl
@[simp] theorem modBand_sts (n kind idx : Nat) (g : Band → Band) : (s.modBand n kind idx g).sts = s.sts := rfl
@[simp] theorem modBand_ws (n kind idx : Nat) (g : Band → Band) : (s.modBand n kind idx g).ws = s.ws := rfl
@[simp] theorem modBand_cht (n kind idx : Nat) (g : Band → Band) : (s.modBand n kind idx g).cht = s.cht := rfl
@[simp] theorem modBand_mceLb (n kind idx : Nat) (g : Band → Band) : (s.modBand n kind idx g).mceLb = s.mceLb := rfl
@[simp] theorem modBand_eleLb (n kind idx : Nat) (g : Band → Band) : (s.modBand n kind idx g).eleLb = s.eleLb := rfl
@[simp] theorem modBand_tdr (n kind idx : Nat) (g : Band → Band) : (s.modBand n kind idx g).tdr = s.tdr := rfl
@[simp] theorem modBand_freeCtr (n kind idx : Nat) (g : Band → Band) : (s.modBand n kind idx g).freeCtr = s.freeCtr := rfl
@[simp] theorem modBand_pending (n kind idx : Nat) (g : Band → Band) : (s.modBand n kind idx g).pending = s.pending := rfl

@[simp] theorem modFn_regs (n : Nat) (g : FnRun → FnRun) : (s.modFn n g).regs = s.regs := by unfold State.modFn; split <;> rfl
@[simp] theorem modFn_fregs (n : Nat) (g : FnRun → FnRun) : (s.modFn n g).fregs = s.fregs := by unfold State.modFn; split <;> rfl
@[simp] theorem modFn_shadow (n : Nat) (g : FnRun → FnRun) : (s.modFn n g).shadow = s.shadow := by unfold State.modFn; split <;> rfl
@[simp] theorem modFn_pciePath (n : Nat) (g : FnRun → FnRun) : (s.modFn n g).pciePath = s.pciePath := by unfold State.modFn; split <;> rfl
@[simp] theorem modFn_spiPath (n : Nat) (g : FnRun → FnRun) : (s.modFn n g).spiPath = s.spiPath := by unfold State.modFn; split <;> rfl
@[simp] theorem modFn_clk (n : Nat) (g : FnRun → FnRun) : (s.modFn n g).clk = s.clk := by unfold State.modFn; split <;> rfl
@[simp] theorem modFn_pw (n : Nat) (g : FnRun → FnRun) : (s.modFn n g).pw = s.pw := by unfold State.modFn; split <;> rfl
@[simp] theorem modFn_pcie (n : Nat) (g : FnRun → FnRun) : (s.modFn n g).pcie = s.pcie := by unfold State.modFn; split <;> rfl
@[simp] theorem modFn_sent (n : Nat) (g : FnRun → FnRun) : (s.modFn n g).sent = s.sent := by unfold State.modFn; split <;> rfl
@[simp] theorem modFn_chart (n : Nat) (g : FnRun → FnRun) : (s.modFn n g).chart = s.chart := by unfold State.modFn; split <;> rfl
@[simp] theorem modFn_hz (n : Nat) (g : FnRun → FnRun) : (s.modFn n g).hz = s.hz := by unfold State.modFn; split <;> rfl
@[simp] theorem modFn_jens (n : Nat) (g : FnRun → FnRun) : (s.modFn n g).jens = s.jens := by unfold State.modFn; split <;> rfl
@[simp] theorem modFn_lanes (n : Nat) (g : FnRun → FnRun) : (s.modFn n g).lanes = s.lanes := by unfold State.modFn; split <;> rfl
@[simp] theorem modFn_ports (n : Nat) (g : FnRun → FnRun) : (s.modFn n g).ports = s.ports := by unfold State.modFn; split <;> rfl
@[simp] theorem modFn_commit (n : Nat) (g : FnRun → FnRun) : (s.modFn n g).commit = s.commit := by unfold State.modFn; split <;> rfl
@[simp] theorem modFn_heldPwr (n : Nat) (g : FnRun → FnRun) : (s.modFn n g).heldPwr = s.heldPwr := by unfold State.modFn; split <;> rfl
@[simp] theorem modFn_spi (n : Nat) (g : FnRun → FnRun) : (s.modFn n g).spi = s.spi := by unfold State.modFn; split <;> rfl
@[simp] theorem modFn_bsp (n : Nat) (g : FnRun → FnRun) : (s.modFn n g).bsp = s.bsp := by unfold State.modFn; split <;> rfl
@[simp] theorem modFn_bist (n : Nat) (g : FnRun → FnRun) : (s.modFn n g).bist = s.bist := by unfold State.modFn; split <;> rfl
@[simp] theorem modFn_upsets (n : Nat) (g : FnRun → FnRun) : (s.modFn n g).upsets = s.upsets := by unfold State.modFn; split <;> rfl
@[simp] theorem modFn_blockResets (n : Nat) (g : FnRun → FnRun) : (s.modFn n g).blockResets = s.blockResets := by unfold State.modFn; split <;> rfl
@[simp] theorem modFn_react (n : Nat) (g : FnRun → FnRun) : (s.modFn n g).react = s.react := by unfold State.modFn; split <;> rfl
@[simp] theorem modFn_wdtCount (n : Nat) (g : FnRun → FnRun) : (s.modFn n g).wdtCount = s.wdtCount := by unfold State.modFn; split <;> rfl
@[simp] theorem modFn_wdtTimeout (n : Nat) (g : FnRun → FnRun) : (s.modFn n g).wdtTimeout = s.wdtTimeout := by unfold State.modFn; split <;> rfl
@[simp] theorem modFn_wdtWarn (n : Nat) (g : FnRun → FnRun) : (s.modFn n g).wdtWarn = s.wdtWarn := by unfold State.modFn; split <;> rfl
@[simp] theorem modFn_wdtWarned (n : Nat) (g : FnRun → FnRun) : (s.modFn n g).wdtWarned = s.wdtWarned := by unfold State.modFn; split <;> rfl
@[simp] theorem modFn_transits (n : Nat) (g : FnRun → FnRun) : (s.modFn n g).transits = s.transits := by unfold State.modFn; split <;> rfl
@[simp] theorem modFn_gone (n : Nat) (g : FnRun → FnRun) : (s.modFn n g).gone = s.gone := by unfold State.modFn; split <;> rfl
@[simp] theorem modFn_bands (n : Nat) (g : FnRun → FnRun) : (s.modFn n g).bands = s.bands := by unfold State.modFn; split <;> rfl
@[simp] theorem modFn_running (n : Nat) (g : FnRun → FnRun) : (s.modFn n g).running = s.running := by unfold State.modFn; split <;> rfl
@[simp] theorem modFn_dlv (n : Nat) (g : FnRun → FnRun) : (s.modFn n g).dlv = s.dlv := by unfold State.modFn; split <;> rfl
@[simp] theorem modFn_cas (n : Nat) (g : FnRun → FnRun) : (s.modFn n g).cas = s.cas := by unfold State.modFn; split <;> rfl
@[simp] theorem modFn_hostMem (n : Nat) (g : FnRun → FnRun) : (s.modFn n g).hostMem = s.hostMem := by unfold State.modFn; split <;> rfl
@[simp] theorem modFn_sts (n : Nat) (g : FnRun → FnRun) : (s.modFn n g).sts = s.sts := by unfold State.modFn; split <;> rfl
@[simp] theorem modFn_ws (n : Nat) (g : FnRun → FnRun) : (s.modFn n g).ws = s.ws := by unfold State.modFn; split <;> rfl
@[simp] theorem modFn_cht (n : Nat) (g : FnRun → FnRun) : (s.modFn n g).cht = s.cht := by unfold State.modFn; split <;> rfl
@[simp] theorem modFn_mceLb (n : Nat) (g : FnRun → FnRun) : (s.modFn n g).mceLb = s.mceLb := by unfold State.modFn; split <;> rfl
@[simp] theorem modFn_eleLb (n : Nat) (g : FnRun → FnRun) : (s.modFn n g).eleLb = s.eleLb := by unfold State.modFn; split <;> rfl
@[simp] theorem modFn_tdr (n : Nat) (g : FnRun → FnRun) : (s.modFn n g).tdr = s.tdr := by unfold State.modFn; split <;> rfl
@[simp] theorem modFn_freeCtr (n : Nat) (g : FnRun → FnRun) : (s.modFn n g).freeCtr = s.freeCtr := by unfold State.modFn; split <;> rfl
@[simp] theorem modFn_pending (n : Nat) (g : FnRun → FnRun) : (s.modFn n g).pending = s.pending := by unfold State.modFn; split <;> rfl

@[simp] theorem setRing_regs (r : Nat) (x : Ring) : (s.setRing r x).regs = s.regs := rfl
@[simp] theorem setRing_fregs (r : Nat) (x : Ring) : (s.setRing r x).fregs = s.fregs := rfl
@[simp] theorem setRing_shadow (r : Nat) (x : Ring) : (s.setRing r x).shadow = s.shadow := rfl
@[simp] theorem setRing_pciePath (r : Nat) (x : Ring) : (s.setRing r x).pciePath = s.pciePath := rfl
@[simp] theorem setRing_spiPath (r : Nat) (x : Ring) : (s.setRing r x).spiPath = s.spiPath := rfl
@[simp] theorem setRing_clk (r : Nat) (x : Ring) : (s.setRing r x).clk = s.clk := rfl
@[simp] theorem setRing_pw (r : Nat) (x : Ring) : (s.setRing r x).pw = s.pw := rfl
@[simp] theorem setRing_pcie (r : Nat) (x : Ring) : (s.setRing r x).pcie = s.pcie := rfl
@[simp] theorem setRing_sent (r : Nat) (x : Ring) : (s.setRing r x).sent = s.sent := rfl
@[simp] theorem setRing_chart (r : Nat) (x : Ring) : (s.setRing r x).chart = s.chart := rfl
@[simp] theorem setRing_hz (r : Nat) (x : Ring) : (s.setRing r x).hz = s.hz := rfl
@[simp] theorem setRing_jens (r : Nat) (x : Ring) : (s.setRing r x).jens = s.jens := rfl
@[simp] theorem setRing_lanes (r : Nat) (x : Ring) : (s.setRing r x).lanes = s.lanes := rfl
@[simp] theorem setRing_ports (r : Nat) (x : Ring) : (s.setRing r x).ports = s.ports := rfl
@[simp] theorem setRing_commit (r : Nat) (x : Ring) : (s.setRing r x).commit = s.commit := rfl
@[simp] theorem setRing_heldPwr (r : Nat) (x : Ring) : (s.setRing r x).heldPwr = s.heldPwr := rfl
@[simp] theorem setRing_spi (r : Nat) (x : Ring) : (s.setRing r x).spi = s.spi := rfl
@[simp] theorem setRing_bsp (r : Nat) (x : Ring) : (s.setRing r x).bsp = s.bsp := rfl
@[simp] theorem setRing_bist (r : Nat) (x : Ring) : (s.setRing r x).bist = s.bist := rfl
@[simp] theorem setRing_upsets (r : Nat) (x : Ring) : (s.setRing r x).upsets = s.upsets := rfl
@[simp] theorem setRing_blockResets (r : Nat) (x : Ring) : (s.setRing r x).blockResets = s.blockResets := rfl
@[simp] theorem setRing_react (r : Nat) (x : Ring) : (s.setRing r x).react = s.react := rfl
@[simp] theorem setRing_wdtCount (r : Nat) (x : Ring) : (s.setRing r x).wdtCount = s.wdtCount := rfl
@[simp] theorem setRing_wdtTimeout (r : Nat) (x : Ring) : (s.setRing r x).wdtTimeout = s.wdtTimeout := rfl
@[simp] theorem setRing_wdtWarn (r : Nat) (x : Ring) : (s.setRing r x).wdtWarn = s.wdtWarn := rfl
@[simp] theorem setRing_wdtWarned (r : Nat) (x : Ring) : (s.setRing r x).wdtWarned = s.wdtWarned := rfl
@[simp] theorem setRing_fns (r : Nat) (x : Ring) : (s.setRing r x).fns = s.fns := rfl
@[simp] theorem setRing_transits (r : Nat) (x : Ring) : (s.setRing r x).transits = s.transits := rfl
@[simp] theorem setRing_gone (r : Nat) (x : Ring) : (s.setRing r x).gone = s.gone := rfl
@[simp] theorem setRing_bands (r : Nat) (x : Ring) : (s.setRing r x).bands = s.bands := rfl
@[simp] theorem setRing_running (r : Nat) (x : Ring) : (s.setRing r x).running = s.running := rfl
@[simp] theorem setRing_cas (r : Nat) (x : Ring) : (s.setRing r x).cas = s.cas := rfl
@[simp] theorem setRing_hostMem (r : Nat) (x : Ring) : (s.setRing r x).hostMem = s.hostMem := rfl
@[simp] theorem setRing_sts (r : Nat) (x : Ring) : (s.setRing r x).sts = s.sts := rfl
@[simp] theorem setRing_ws (r : Nat) (x : Ring) : (s.setRing r x).ws = s.ws := rfl
@[simp] theorem setRing_cht (r : Nat) (x : Ring) : (s.setRing r x).cht = s.cht := rfl
@[simp] theorem setRing_mceLb (r : Nat) (x : Ring) : (s.setRing r x).mceLb = s.mceLb := rfl
@[simp] theorem setRing_eleLb (r : Nat) (x : Ring) : (s.setRing r x).eleLb = s.eleLb := rfl
@[simp] theorem setRing_tdr (r : Nat) (x : Ring) : (s.setRing r x).tdr = s.tdr := rfl
@[simp] theorem setRing_freeCtr (r : Nat) (x : Ring) : (s.setRing r x).freeCtr = s.freeCtr := rfl
@[simp] theorem setRing_pending (r : Nat) (x : Ring) : (s.setRing r x).pending = s.pending := rfl

@[simp] theorem modRing_regs (r : Nat) (g : Ring → Ring) : (s.modRing r g).regs = s.regs := rfl
@[simp] theorem modRing_fregs (r : Nat) (g : Ring → Ring) : (s.modRing r g).fregs = s.fregs := rfl
@[simp] theorem modRing_shadow (r : Nat) (g : Ring → Ring) : (s.modRing r g).shadow = s.shadow := rfl
@[simp] theorem modRing_pciePath (r : Nat) (g : Ring → Ring) : (s.modRing r g).pciePath = s.pciePath := rfl
@[simp] theorem modRing_spiPath (r : Nat) (g : Ring → Ring) : (s.modRing r g).spiPath = s.spiPath := rfl
@[simp] theorem modRing_clk (r : Nat) (g : Ring → Ring) : (s.modRing r g).clk = s.clk := rfl
@[simp] theorem modRing_pw (r : Nat) (g : Ring → Ring) : (s.modRing r g).pw = s.pw := rfl
@[simp] theorem modRing_pcie (r : Nat) (g : Ring → Ring) : (s.modRing r g).pcie = s.pcie := rfl
@[simp] theorem modRing_sent (r : Nat) (g : Ring → Ring) : (s.modRing r g).sent = s.sent := rfl
@[simp] theorem modRing_chart (r : Nat) (g : Ring → Ring) : (s.modRing r g).chart = s.chart := rfl
@[simp] theorem modRing_hz (r : Nat) (g : Ring → Ring) : (s.modRing r g).hz = s.hz := rfl
@[simp] theorem modRing_jens (r : Nat) (g : Ring → Ring) : (s.modRing r g).jens = s.jens := rfl
@[simp] theorem modRing_lanes (r : Nat) (g : Ring → Ring) : (s.modRing r g).lanes = s.lanes := rfl
@[simp] theorem modRing_ports (r : Nat) (g : Ring → Ring) : (s.modRing r g).ports = s.ports := rfl
@[simp] theorem modRing_commit (r : Nat) (g : Ring → Ring) : (s.modRing r g).commit = s.commit := rfl
@[simp] theorem modRing_heldPwr (r : Nat) (g : Ring → Ring) : (s.modRing r g).heldPwr = s.heldPwr := rfl
@[simp] theorem modRing_spi (r : Nat) (g : Ring → Ring) : (s.modRing r g).spi = s.spi := rfl
@[simp] theorem modRing_bsp (r : Nat) (g : Ring → Ring) : (s.modRing r g).bsp = s.bsp := rfl
@[simp] theorem modRing_bist (r : Nat) (g : Ring → Ring) : (s.modRing r g).bist = s.bist := rfl
@[simp] theorem modRing_upsets (r : Nat) (g : Ring → Ring) : (s.modRing r g).upsets = s.upsets := rfl
@[simp] theorem modRing_blockResets (r : Nat) (g : Ring → Ring) : (s.modRing r g).blockResets = s.blockResets := rfl
@[simp] theorem modRing_react (r : Nat) (g : Ring → Ring) : (s.modRing r g).react = s.react := rfl
@[simp] theorem modRing_wdtCount (r : Nat) (g : Ring → Ring) : (s.modRing r g).wdtCount = s.wdtCount := rfl
@[simp] theorem modRing_wdtTimeout (r : Nat) (g : Ring → Ring) : (s.modRing r g).wdtTimeout = s.wdtTimeout := rfl
@[simp] theorem modRing_wdtWarn (r : Nat) (g : Ring → Ring) : (s.modRing r g).wdtWarn = s.wdtWarn := rfl
@[simp] theorem modRing_wdtWarned (r : Nat) (g : Ring → Ring) : (s.modRing r g).wdtWarned = s.wdtWarned := rfl
@[simp] theorem modRing_fns (r : Nat) (g : Ring → Ring) : (s.modRing r g).fns = s.fns := rfl
@[simp] theorem modRing_transits (r : Nat) (g : Ring → Ring) : (s.modRing r g).transits = s.transits := rfl
@[simp] theorem modRing_gone (r : Nat) (g : Ring → Ring) : (s.modRing r g).gone = s.gone := rfl
@[simp] theorem modRing_bands (r : Nat) (g : Ring → Ring) : (s.modRing r g).bands = s.bands := rfl
@[simp] theorem modRing_running (r : Nat) (g : Ring → Ring) : (s.modRing r g).running = s.running := rfl
@[simp] theorem modRing_cas (r : Nat) (g : Ring → Ring) : (s.modRing r g).cas = s.cas := rfl
@[simp] theorem modRing_hostMem (r : Nat) (g : Ring → Ring) : (s.modRing r g).hostMem = s.hostMem := rfl
@[simp] theorem modRing_sts (r : Nat) (g : Ring → Ring) : (s.modRing r g).sts = s.sts := rfl
@[simp] theorem modRing_ws (r : Nat) (g : Ring → Ring) : (s.modRing r g).ws = s.ws := rfl
@[simp] theorem modRing_cht (r : Nat) (g : Ring → Ring) : (s.modRing r g).cht = s.cht := rfl
@[simp] theorem modRing_mceLb (r : Nat) (g : Ring → Ring) : (s.modRing r g).mceLb = s.mceLb := rfl
@[simp] theorem modRing_eleLb (r : Nat) (g : Ring → Ring) : (s.modRing r g).eleLb = s.eleLb := rfl
@[simp] theorem modRing_tdr (r : Nat) (g : Ring → Ring) : (s.modRing r g).tdr = s.tdr := rfl
@[simp] theorem modRing_freeCtr (r : Nat) (g : Ring → Ring) : (s.modRing r g).freeCtr = s.freeCtr := rfl
@[simp] theorem modRing_pending (r : Nat) (g : Ring → Ring) : (s.modRing r g).pending = s.pending := rfl

end Sys2Proof.Machine.State
end

