-- ==== Sys2Proof/Laws/Registers.lean ====
section
/-! SUPPORT. Laws of registers and their fields: what a write of one field leaves in it, in the other fields, and in the other registers. -/
namespace Sys2Proof.Machine

/-! ## Fields of a word -/

theorem two_pow_pos' (n : Nat) : 0 < 2 ^ n := Nat.pow_pos (by decide)

/-- A word taken apart around a field: below it, in it, above it. -/
theorem word_split (n l w : Nat) : n = n % 2 ^ l + 2 ^ l * (n / 2 ^ l % 2 ^ w + 2 ^ w * (n / 2 ^ (l + w))) := by
  have h1 := Nat.mod_add_div n (2 ^ l)
  have h2 := Nat.mod_add_div (n / 2 ^ l) (2 ^ w)
  rw [Nat.div_div_eq_div_mul, ← Nat.pow_add] at h2
  rw [h2, h1]

theorem putF_toNat (w : Word) (f : Fld) (v : Nat) (h : f.lsb + f.width ≤ 32) :
    (putF w f v).toNat = w.toNat % 2 ^ f.lsb + 2 ^ f.lsb * (v % 2 ^ f.width + 2 ^ f.width * (w.toNat / 2 ^ (f.lsb + f.width))) := by
  have e := word_split w.toNat f.lsb f.width
  have hlo : w.toNat % 2 ^ f.lsb < 2 ^ f.lsb := Nat.mod_lt _ (two_pow_pos' _)
  have hv : v % 2 ^ f.width < 2 ^ f.width := Nat.mod_lt _ (two_pow_pos' _)
  have hhi : w.toNat / 2 ^ (f.lsb + f.width) < 2 ^ (32 - (f.lsb + f.width)) := by
    rw [Nat.div_lt_iff_lt_mul (two_pow_pos' _), ← Nat.pow_add]
    have : 32 - (f.lsb + f.width) + (f.lsb + f.width) = 32 := by omega
    rw [this]; exact w.isLt
  simp only [putF, getF, BitVec.toNat_ofNat]
  generalize hm : w.toNat / 2 ^ f.lsb % 2 ^ f.width = m at *
  generalize w.toNat / 2 ^ (f.lsb + f.width) = hi at *
  generalize w.toNat % 2 ^ f.lsb = lo at *
  generalize v % 2 ^ f.width = x at *
  have e2 : w.toNat - m * 2 ^ f.lsb + x * 2 ^ f.lsb = lo + 2 ^ f.lsb * (x + 2 ^ f.width * hi) := by
    rw [e, Nat.mul_add, Nat.mul_add, Nat.mul_comm m, Nat.mul_comm x]; omega
  rw [e2]
  apply Nat.mod_eq_of_lt
  have h1 : x + 2 ^ f.width * hi < 2 ^ (32 - f.lsb) := by
    have : 2 ^ (32 - f.lsb) = 2 ^ f.width * 2 ^ (32 - (f.lsb + f.width)) := by
      rw [← Nat.pow_add]; congr 1; omega
    rw [this]
    calc x + 2 ^ f.width * hi < 2 ^ f.width * 1 + 2 ^ f.width * hi := by omega
      _ = 2 ^ f.width * (hi + 1) := by rw [Nat.mul_one, Nat.mul_add, Nat.mul_one, Nat.add_comm]
      _ ≤ _ := Nat.mul_le_mul_left _ hhi
  have h2 : (2 : Nat) ^ 32 = 2 ^ f.lsb * 2 ^ (32 - f.lsb) := by rw [← Nat.pow_add]; congr 1; omega
  rw [h2]
  calc lo + 2 ^ f.lsb * (x + 2 ^ f.width * hi) < 2 ^ f.lsb * 1 + 2 ^ f.lsb * (x + 2 ^ f.width * hi) := by omega
    _ = 2 ^ f.lsb * (x + 2 ^ f.width * hi + 1) := by rw [Nat.mul_one, Nat.mul_add (2 ^ f.lsb) _ 1, Nat.mul_one, Nat.add_comm]
    _ ≤ _ := Nat.mul_le_mul_left _ h1

/-- A field reads what was put into it. -/
theorem getF_putF (w : Word) (f : Fld) (v : Nat) (h : f.lsb + f.width ≤ 32) : getF (putF w f v) f = v % 2 ^ f.width := by
  rw [getF, putF_toNat w f v h, Nat.add_mul_div_left _ _ (two_pow_pos' _), Nat.div_eq_of_lt (Nat.mod_lt _ (two_pow_pos' _)), Nat.zero_add,
    Nat.add_mul_mod_self_left, Nat.mod_mod]

theorem putF_low (w : Word) (f : Fld) (v k : Nat) (h : f.lsb + f.width ≤ 32) (hk : k ≤ f.lsb) :
    (putF w f v).toNat % 2 ^ k = w.toNat % 2 ^ k := by
  rw [putF_toNat w f v h]
  have : 2 ^ f.lsb = 2 ^ k * 2 ^ (f.lsb - k) := by rw [← Nat.pow_add]; congr 1; omega
  rw [this, Nat.mul_assoc, Nat.add_mul_mod_self_left, Nat.mod_mul_right_mod]

theorem putF_high (w : Word) (f : Fld) (v k : Nat) (h : f.lsb + f.width ≤ 32) (hk : f.lsb + f.width ≤ k) :
    (putF w f v).toNat / 2 ^ k = w.toNat / 2 ^ k := by
  have e : ∀ n : Nat, n / 2 ^ k = n / 2 ^ (f.lsb + f.width) / 2 ^ (k - (f.lsb + f.width)) := by
    intro n; rw [Nat.div_div_eq_div_mul, ← Nat.pow_add]; congr 2; omega
  rw [e, e w.toNat]
  congr 1
  rw [putF_toNat w f v h, Nat.pow_add, ← Nat.div_div_eq_div_mul, Nat.add_mul_div_left _ _ (two_pow_pos' _),
    Nat.div_eq_of_lt (Nat.mod_lt _ (two_pow_pos' _)), Nat.zero_add, Nat.add_mul_div_left _ _ (two_pow_pos' _),
    Nat.div_eq_of_lt (Nat.mod_lt _ (two_pow_pos' _)), Nat.zero_add]

/-- Two fields of a word share no bit. -/
def fieldsApart (f g : Fld) : Bool := decide (f.lsb + f.width ≤ g.lsb) || decide (g.lsb + g.width ≤ f.lsb)

/-- A field keeps its value when another that shares no bit with it is put. -/
theorem getF_putF_other (w : Word) (f g : Fld) (v : Nat) (h : f.lsb + f.width ≤ 32) (hfg : fieldsApart f g = true) :
    getF (putF w f v) g = getF w g := by
  simp only [fieldsApart, Bool.or_eq_true, decide_eq_true_eq] at hfg
  rcases hfg with hk | hk
  · rw [getF, getF, putF_high w f v g.lsb h hk]
  · have e : ∀ n : Nat, n / 2 ^ g.lsb % 2 ^ g.width = n % 2 ^ (g.lsb + g.width) / 2 ^ g.lsb := by
      intro n; rw [Nat.pow_add, Nat.mod_mul_right_div_self]
    rw [getF, getF, e, e, putF_low w f v _ h hk]

theorem getF_lt (w : Word) (f : Fld) : getF w f < 2 ^ f.width := Nat.mod_lt _ (two_pow_pos' _)

@[simp] theorem getF_zero (f : Fld) : getF 0 f = 0 := by simp [getF]

/-! ## Registers of Nahar and of Jens -/

namespace State

variable (s : State)

@[simp] theorem reg_setReg_same (a : Nat) (v : Word) : (s.setReg a v).reg a = v := by simp [reg, setReg]
theorem reg_setReg_other (a b : Nat) (v : Word) (h : b ≠ a) : (s.setReg a v).reg b = s.reg b := cellsGet_set_other _ _ _ _ _ h
@[simp] theorem jreg_setJreg_same (a : Nat) (v : Word) : (s.setJreg a v).jreg a = v := by simp [jreg, setJreg]
theorem jreg_setJreg_other (a b : Nat) (v : Word) (h : b ≠ a) : (s.setJreg a v).jreg b = s.jreg b := cellsGet_set_other _ _ _ _ _ h
@[simp] theorem shadowReg_setShadow_same (a : Nat) (v : Word) : (s.setShadow a v).shadowReg a = v := by simp [shadowReg, setShadow]
theorem shadowReg_setShadow_other (a b : Nat) (v : Word) (h : b ≠ a) : (s.setShadow a v).shadowReg b = s.shadowReg b :=
  cellsGet_set_other _ _ _ _ _ h

theorem reg_put (a b : Nat) (f : Fld) (v : Nat) : (s.put a f v).reg b = if b = a then putF (s.reg a) f v else s.reg b := by
  by_cases h : b = a
  · subst h; simp [put]
  · simp [put, h, reg_setReg_other _ _ _ _ h]

theorem jreg_jput (a b : Nat) (f : Fld) (v : Nat) : (s.jput a f v).jreg b = if b = a then putF (s.jreg a) f v else s.jreg b := by
  by_cases h : b = a
  · subst h; simp [jput]
  · simp [jput, h, jreg_setJreg_other _ _ _ _ h]

/-- A field reads what was put. -/
theorem get_put_same (a : Nat) (f : Fld) (v : Nat) (h : f.lsb + f.width ≤ 32) : (s.put a f v).get a f = v % 2 ^ f.width := by
  simp [get, reg_put, getF_putF _ _ _ h]
theorem get_put_field (a : Nat) (f g : Fld) (v : Nat) (h : f.lsb + f.width ≤ 32) (hfg : fieldsApart f g = true) :
    (s.put a f v).get a g = s.get a g := by simp [get, reg_put, getF_putF_other _ _ _ _ h hfg]
theorem get_put_other (a b : Nat) (f g : Fld) (v : Nat) (h : b ≠ a) : (s.put a f v).get b g = s.get b g := by simp [get, reg_put, h]

theorem jget_jput_same (a : Nat) (f : Fld) (v : Nat) (h : f.lsb + f.width ≤ 32) : (s.jput a f v).jget a f = v % 2 ^ f.width := by
  simp [jget, jreg_jput, getF_putF _ _ _ h]
theorem jget_jput_field (a : Nat) (f g : Fld) (v : Nat) (h : f.lsb + f.width ≤ 32) (hfg : fieldsApart f g = true) :
    (s.jput a f v).jget a g = s.jget a g := by simp [jget, jreg_jput, getF_putF_other _ _ _ _ h hfg]
theorem jget_jput_other (a b : Nat) (f g : Fld) (v : Nat) (h : b ≠ a) : (s.jput a f v).jget b g = s.jget b g := by simp [jget, jreg_jput, h]

/-- A register depends on the register file alone. -/
theorem reg_congr {s t : State} (h : t.regs = s.regs) (a : Nat) : t.reg a = s.reg a := by simp [reg, h]
theorem get_congr {s t : State} (h : t.regs = s.regs) (a : Nat) (f : Fld) : t.get a f = s.get a f := by simp [get, reg, h]
theorem jreg_congr {s t : State} (h : t.fregs = s.fregs) (a : Nat) : t.jreg a = s.jreg a := by simp [jreg, h]
theorem jget_congr {s t : State} (h : t.fregs = s.fregs) (a : Nat) (f : Fld) : t.jget a f = s.jget a f := by simp [jget, jreg, h]

/-! What the derived updates do to the registers, as puts. -/

theorem putFlag_eq (a : Nat) (f : Fld) (b : Bool) : s.putFlag a f b = s.put a f (ofBool b) := rfl
theorem bumpBy_eq (a : Nat) (f : Fld) (n : Nat) : s.bumpBy a f n = s.put a f (min (s.get a f + n) (2 ^ f.width - 1)) := rfl
theorem bump_eq (a : Nat) (f : Fld) : s.bump a f = s.put a f (min (s.get a f + 1) (2 ^ f.width - 1)) := rfl
theorem wrapBy_eq (a : Nat) (f : Fld) (n : Nat) : s.wrapBy a f n = s.put a f (s.get a f + n) := rfl
theorem setBit_eq (a : Nat) (f : Fld) (i : Nat) : s.setBit a f i = s.put a f (s.get a f ||| 2 ^ i) := rfl

theorem reg_bump (a b : Nat) (f : Fld) :
    (s.bump a f).reg b = if b = a then putF (s.reg a) f (min (s.get a f + 1) (2 ^ f.width - 1)) else s.reg b := reg_put _ _ _ _ _
theorem get_bump_same (a : Nat) (f : Fld) (h : f.lsb + f.width ≤ 32) : (s.bump a f).get a f = min (s.get a f + 1) (2 ^ f.width - 1) := by
  rw [bump_eq, get_put_same _ _ _ _ h]
  exact Nat.mod_eq_of_lt (by have := two_pow_pos' f.width; omega)
theorem get_bump_field (a : Nat) (f g : Fld) (h : f.lsb + f.width ≤ 32) (hfg : fieldsApart f g = true) :
    (s.bump a f).get a g = s.get a g := get_put_field _ _ _ _ _ h hfg
theorem get_bump_other (a b : Nat) (f g : Fld) (h : b ≠ a) : (s.bump a f).get b g = s.get b g := get_put_other _ _ _ _ _ _ h

theorem reg_putBit_other (a b : Nat) (f : Fld) (i : Nat) (v : Bool) (h : b ≠ a) : (s.putBit a f i v).reg b = s.reg b := by
  unfold putBit clearBit setBit
  split
  · simp [reg_put, h]
  · split <;> simp [reg_put, h]

theorem reg_setPair_other (lo hi v b : Nat) (h1 : b ≠ lo) (h2 : b ≠ hi) : (s.setPair lo hi v).reg b = s.reg b := by
  unfold setPair; rw [reg_setReg_other _ _ _ _ h2, reg_setReg_other _ _ _ _ h1]

/-- A pair holds the value set, modulo 2^64. -/
theorem pair_setPair (lo hi v : Nat) (h : lo ≠ hi) : (s.setPair lo hi v).pair lo hi = v % 2 ^ 64 := by
  have e : v % 2 ^ 64 = v % 2 ^ 32 + 2 ^ 32 * (v / 2 ^ 32 % 2 ^ 32) := by
    have := Nat.mod_mul (x := v) (a := 2 ^ 32) (b := 2 ^ 32); simpa using this
  simp only [setPair, pair, reg_setReg_same]
  rw [reg_setReg_other _ _ _ _ h, reg_setReg_same, e]
  simp

/-! The register files keep their canonical form. -/

theorem regs_wf_setReg (a : Nat) (v : Word) (h : cellsWf regReset s.regs = true) : cellsWf regReset (s.setReg a v).regs = true :=
  cellsWf_set _ _ _ _ h
theorem fregs_wf_setJreg (a : Nat) (v : Word) (h : cellsWf fieldReset s.fregs = true) : cellsWf fieldReset (s.setJreg a v).fregs = true :=
  cellsWf_set _ _ _ _ h
theorem shadow_wf_setShadow (a : Nat) (v : Word) (h : cellsWf fieldReset s.shadow = true) : cellsWf fieldReset (s.setShadow a v).shadow = true :=
  cellsWf_set _ _ _ _ h

end State

end Sys2Proof.Machine
end

