-- ==== Sys2Proof/Laws/Frame.lean ====
section
/-! SUPPORT. What every command ends with (State.settle, State.fireRisen) leaves alone: the frame of State.ended. -/
namespace Sys2Proof.Machine

/-- A state with what State.settle may change taken out. -/
def State.still (s : State) : State :=
  { s with regs := [], lanes := Vector.replicate 16 laneReset, ports := Vector.replicate 4 portReset,
           fns := Vector.replicate 8 ⟨0, 0, [], 0, false⟩, transits := [], gone := [], bands := [],
           dlv := ⟨Vector.replicate 128 ringReset, [], 0, none⟩, sts := ⟨0, []⟩ }

/-! Registers are all that a write of a register changes. -/

@[simp] theorem State.setReg_unregistered (s : State) (a : Nat) (v : Word) : (s.setReg a v).unregistered = s.unregistered := (rfl)
@[simp] theorem State.put_unregistered (s : State) (a : Nat) (f : Fld) (v : Nat) : (s.put a f v).unregistered = s.unregistered := (rfl)
@[simp] theorem State.putFlag_unregistered (s : State) (a : Nat) (f : Fld) (b : Bool) : (s.putFlag a f b).unregistered = s.unregistered := (rfl)
@[simp] theorem State.bumpBy_unregistered (s : State) (a : Nat) (f : Fld) (n : Nat) : (s.bumpBy a f n).unregistered = s.unregistered := (rfl)
@[simp] theorem State.bump_unregistered (s : State) (a : Nat) (f : Fld) : (s.bump a f).unregistered = s.unregistered := (rfl)
@[simp] theorem State.wrapBy_unregistered (s : State) (a : Nat) (f : Fld) (n : Nat) : (s.wrapBy a f n).unregistered = s.unregistered := (rfl)
@[simp] theorem State.setBit_unregistered (s : State) (a : Nat) (f : Fld) (i : Nat) : (s.setBit a f i).unregistered = s.unregistered := (rfl)
@[simp] theorem State.clearBit_unregistered (s : State) (a : Nat) (f : Fld) (i : Nat) : (s.clearBit a f i).unregistered = s.unregistered := by
  unfold State.clearBit; split <;> rfl
@[simp] theorem State.putBit_unregistered (s : State) (a : Nat) (f : Fld) (i : Nat) (b : Bool) : (s.putBit a f i b).unregistered = s.unregistered := by
  cases b
  · exact State.clearBit_unregistered s a f i
  · rfl
@[simp] theorem State.setPair_unregistered (s : State) (lo hi v : Nat) : (s.setPair lo hi v).unregistered = s.unregistered := (rfl)
theorem State.rest_of_unregistered {x y : State} (h : y.unregistered = x.unregistered) : y.rest = x.rest := (congrArg State.rest h :)
theorem State.fregs_of_unregistered {x y : State} (h : y.unregistered = x.unregistered) : y.fregs = x.fregs := (congrArg State.fregs h :)
theorem State.shadow_of_unregistered {x y : State} (h : y.unregistered = x.unregistered) : y.shadow = x.shadow := (congrArg State.shadow h :)
theorem State.pciePath_of_unregistered {x y : State} (h : y.unregistered = x.unregistered) : y.pciePath = x.pciePath := (congrArg State.pciePath h :)
theorem State.spiPath_of_unregistered {x y : State} (h : y.unregistered = x.unregistered) : y.spiPath = x.spiPath := (congrArg State.spiPath h :)
theorem State.clk_of_unregistered {x y : State} (h : y.unregistered = x.unregistered) : y.clk = x.clk := (congrArg State.clk h :)
theorem State.pw_of_unregistered {x y : State} (h : y.unregistered = x.unregistered) : y.pw = x.pw := (congrArg State.pw h :)
theorem State.pcie_of_unregistered {x y : State} (h : y.unregistered = x.unregistered) : y.pcie = x.pcie := (congrArg State.pcie h :)
theorem State.sent_of_unregistered {x y : State} (h : y.unregistered = x.unregistered) : y.sent = x.sent := (congrArg State.sent h :)
theorem State.chart_of_unregistered {x y : State} (h : y.unregistered = x.unregistered) : y.chart = x.chart := (congrArg State.chart h :)
theorem State.hz_of_unregistered {x y : State} (h : y.unregistered = x.unregistered) : y.hz = x.hz := (congrArg State.hz h :)
theorem State.jens_of_unregistered {x y : State} (h : y.unregistered = x.unregistered) : y.jens = x.jens := (congrArg State.jens h :)
theorem State.lanes_of_unregistered {x y : State} (h : y.unregistered = x.unregistered) : y.lanes = x.lanes := (congrArg State.lanes h :)
theorem State.ports_of_unregistered {x y : State} (h : y.unregistered = x.unregistered) : y.ports = x.ports := (congrArg State.ports h :)
theorem State.commit_of_unregistered {x y : State} (h : y.unregistered = x.unregistered) : y.commit = x.commit := (congrArg State.commit h :)
theorem State.heldPwr_of_unregistered {x y : State} (h : y.unregistered = x.unregistered) : y.heldPwr = x.heldPwr := (congrArg State.heldPwr h :)
theorem State.spi_of_unregistered {x y : State} (h : y.unregistered = x.unregistered) : y.spi = x.spi := (congrArg State.spi h :)
theorem State.bsp_of_unregistered {x y : State} (h : y.unregistered = x.unregistered) : y.bsp = x.bsp := (congrArg State.bsp h :)
theorem State.bist_of_unregistered {x y : State} (h : y.unregistered = x.unregistered) : y.bist = x.bist := (congrArg State.bist h :)
theorem State.upsets_of_unregistered {x y : State} (h : y.unregistered = x.unregistered) : y.upsets = x.upsets := (congrArg State.upsets h :)
theorem State.blockResets_of_unregistered {x y : State} (h : y.unregistered = x.unregistered) : y.blockResets = x.blockResets := (congrArg State.blockResets h :)
theorem State.react_of_unregistered {x y : State} (h : y.unregistered = x.unregistered) : y.react = x.react := (congrArg State.react h :)
theorem State.wdtCount_of_unregistered {x y : State} (h : y.unregistered = x.unregistered) : y.wdtCount = x.wdtCount := (congrArg State.wdtCount h :)
theorem State.wdtTimeout_of_unregistered {x y : State} (h : y.unregistered = x.unregistered) : y.wdtTimeout = x.wdtTimeout := (congrArg State.wdtTimeout h :)
theorem State.wdtWarn_of_unregistered {x y : State} (h : y.unregistered = x.unregistered) : y.wdtWarn = x.wdtWarn := (congrArg State.wdtWarn h :)
theorem State.wdtWarned_of_unregistered {x y : State} (h : y.unregistered = x.unregistered) : y.wdtWarned = x.wdtWarned := (congrArg State.wdtWarned h :)
theorem State.fns_of_unregistered {x y : State} (h : y.unregistered = x.unregistered) : y.fns = x.fns := (congrArg State.fns h :)
theorem State.transits_of_unregistered {x y : State} (h : y.unregistered = x.unregistered) : y.transits = x.transits := (congrArg State.transits h :)
theorem State.gone_of_unregistered {x y : State} (h : y.unregistered = x.unregistered) : y.gone = x.gone := (congrArg State.gone h :)
theorem State.bands_of_unregistered {x y : State} (h : y.unregistered = x.unregistered) : y.bands = x.bands := (congrArg State.bands h :)
theorem State.running_of_unregistered {x y : State} (h : y.unregistered = x.unregistered) : y.running = x.running := (congrArg State.running h :)
theorem State.dlv_of_unregistered {x y : State} (h : y.unregistered = x.unregistered) : y.dlv = x.dlv := (congrArg State.dlv h :)
theorem State.cas_of_unregistered {x y : State} (h : y.unregistered = x.unregistered) : y.cas = x.cas := (congrArg State.cas h :)
theorem State.hostMem_of_unregistered {x y : State} (h : y.unregistered = x.unregistered) : y.hostMem = x.hostMem := (congrArg State.hostMem h :)
theorem State.sts_of_unregistered {x y : State} (h : y.unregistered = x.unregistered) : y.sts = x.sts := (congrArg State.sts h :)
theorem State.ws_of_unregistered {x y : State} (h : y.unregistered = x.unregistered) : y.ws = x.ws := (congrArg State.ws h :)
theorem State.cht_of_unregistered {x y : State} (h : y.unregistered = x.unregistered) : y.cht = x.cht := (congrArg State.cht h :)
theorem State.mceLb_of_unregistered {x y : State} (h : y.unregistered = x.unregistered) : y.mceLb = x.mceLb := (congrArg State.mceLb h :)
theorem State.eleLb_of_unregistered {x y : State} (h : y.unregistered = x.unregistered) : y.eleLb = x.eleLb := (congrArg State.eleLb h :)
theorem State.tdr_of_unregistered {x y : State} (h : y.unregistered = x.unregistered) : y.tdr = x.tdr := (congrArg State.tdr h :)
theorem State.freeCtr_of_unregistered {x y : State} (h : y.unregistered = x.unregistered) : y.freeCtr = x.freeCtr := (congrArg State.freeCtr h :)
theorem State.pending_of_unregistered {x y : State} (h : y.unregistered = x.unregistered) : y.pending = x.pending := (congrArg State.pending h :)
@[simp] theorem State.setReg_rest (s : State) (a : Nat) (v : Word) : (s.setReg a v).rest = s.rest := State.rest_of_unregistered (by simp)
@[simp] theorem State.put_rest (s : State) (a : Nat) (f : Fld) (v : Nat) : (s.put a f v).rest = s.rest := State.rest_of_unregistered (by simp)
@[simp] theorem State.putFlag_rest (s : State) (a : Nat) (f : Fld) (b : Bool) : (s.putFlag a f b).rest = s.rest := State.rest_of_unregistered (by simp)
@[simp] theorem State.bumpBy_rest (s : State) (a : Nat) (f : Fld) (n : Nat) : (s.bumpBy a f n).rest = s.rest := State.rest_of_unregistered (by simp)
@[simp] theorem State.bump_rest (s : State) (a : Nat) (f : Fld) : (s.bump a f).rest = s.rest := State.rest_of_unregistered (by simp)
@[simp] theorem State.wrapBy_rest (s : State) (a : Nat) (f : Fld) (n : Nat) : (s.wrapBy a f n).rest = s.rest := State.rest_of_unregistered (by simp)
@[simp] theorem State.setBit_rest (s : State) (a : Nat) (f : Fld) (i : Nat) : (s.setBit a f i).rest = s.rest := State.rest_of_unregistered (by simp)
@[simp] theorem State.clearBit_rest (s : State) (a : Nat) (f : Fld) (i : Nat) : (s.clearBit a f i).rest = s.rest := State.rest_of_unregistered (by simp)
@[simp] theorem State.putBit_rest (s : State) (a : Nat) (f : Fld) (i : Nat) (b : Bool) : (s.putBit a f i b).rest = s.rest := State.rest_of_unregistered (by simp)
@[simp] theorem State.setPair_rest (s : State) (lo hi v : Nat) : (s.setPair lo hi v).rest = s.rest := State.rest_of_unregistered (by simp)

/-- Only what State.settle may change differs. -/
structure Quiet (s t : State) : Prop where
  still : t.still = s.still
  reg : ∀ a, settles a = false → t.reg a = s.reg a

namespace Quiet

theorem refl (s : State) : Quiet s s := ⟨rfl, fun _ _ => rfl⟩
theorem trans {s t u : State} (h : Quiet s t) (k : Quiet t u) : Quiet s u :=
  ⟨k.still.trans h.still, fun a ha => (k.reg a ha).trans (h.reg a ha)⟩

theorem foldl {α : Type} {f : State → α → State} (h : ∀ s x, Quiet s (f s x)) (l : List α) (s : State) : Quiet s (l.foldl f s) := by
  induction l generalizing s with
  | nil => exact refl s
  | cons x l ih => exact (h s x).trans (ih _)

theorem ite {c : Prop} [Decidable c] {s t u : State} (h : Quiet s t) (k : Quiet s u) : Quiet s (if c then t else u) := by
  split
  · exact h
  · exact k

theorem setReg (s : State) (a : Nat) (v : Word) (h : settles a = true) : Quiet s (s.setReg a v) :=
  ⟨rfl, fun b hb => State.reg_setReg_other _ _ _ _ fun e => by rw [e, h] at hb; cases hb⟩
theorem put (s : State) (a : Nat) (f : Fld) (v : Nat) (h : settles a = true) : Quiet s (s.put a f v) := setReg _ _ _ h
theorem putFlag (s : State) (a : Nat) (f : Fld) (b : Bool) (h : settles a = true) : Quiet s (s.putFlag a f b) := setReg _ _ _ h
theorem bump (s : State) (a : Nat) (f : Fld) (h : settles a = true) : Quiet s (s.bump a f) := setReg _ _ _ h
theorem setBit (s : State) (a : Nat) (f : Fld) (i : Nat) (h : settles a = true) : Quiet s (s.setBit a f i) := setReg _ _ _ h

theorem modTransit (s : State) (n tid : Nat) (g : Transit → Transit) : Quiet s (s.modTransit n tid g) := ⟨rfl, fun _ _ => rfl⟩
theorem modCap (s : State) (n tid p : Nat) (g : Capture → Capture) : Quiet s (s.modCap n tid p g) := ⟨rfl, fun _ _ => rfl⟩
theorem modAnyCap (s : State) (n tid p : Nat) (g : Capture → Capture) : Quiet s (s.modAnyCap n tid p g) := ⟨rfl, fun _ _ => rfl⟩
theorem modPort (s : State) (q : Fin 4) (g : Port → Port) : Quiet s (s.modPort q g) := ⟨rfl, fun _ _ => rfl⟩
theorem modLane (s : State) (x : Fin 16) (g : Lane → Lane) : Quiet s (s.modLane x g) := ⟨rfl, fun _ _ => rfl⟩
theorem modBand (s : State) (n k i : Nat) (g : Band → Band) : Quiet s (s.modBand n k i g) := ⟨rfl, fun _ _ => rfl⟩
theorem modFn (s : State) (n : Nat) (g : FnRun → FnRun) : Quiet s (s.modFn n g) := by
  unfold State.modFn; split
  · exact ⟨rfl, fun _ _ => rfl⟩
  · exact refl s

end Quiet

/-! ## Addresses of indexed registers -/

theorem settles_range {a : Nat} (h : (0x404 ≤ a ∧ a < 0x488) ∨ (0x100000 ≤ a ∧ a < 0x200800) ∨ (0x300000 ≤ a ∧ a < 0x303000)) :
    settles a = true := by
  simp only [settles, Bool.or_eq_true, decide_eq_true_eq]
  omega

theorem settles_fnState (n : Nat) : settles (Reg.SYS_FN_STATE n) = true := settles_range (by unfold Reg.SYS_FN_STATE; omega)
theorem settles_acqCnt1 (n : Nat) : settles (Reg.ACQ_FN_CNT1 n) = true := settles_range (by unfold Reg.ACQ_FN_CNT1; omega)
theorem settles_acqEvent (n : Nat) : settles (Reg.ACQ_FN_EVENT n) = true := settles_range (by unfold Reg.ACQ_FN_EVENT; omega)
theorem settles_cp (n r : Nat) (h : r < 0x10000) : settles (0x100000 + r + 0x10000 * (n % 4)) = true := settles_range (by omega)
theorem settles_lnState (n : Nat) : settles (Reg.LN_STATE n) = true := settles_range (by unfold Reg.LN_STATE; omega)
theorem settles_lnAcq (n : Nat) : settles (Reg.LN_ACQ n) = true := settles_range (by unfold Reg.LN_ACQ; omega)
theorem settles_eStatus (n : Nat) : settles (Reg.E_STATUS n) = true := settles_range (by unfold Reg.E_STATUS; omega)
theorem settles_eEvent (n : Nat) : settles (Reg.E_EVENT n) = true := settles_range (by unfold Reg.E_EVENT; omega)

namespace State

open Quiet

theorem quiet_levelOff (s : State) (src : Nat) : Quiet s (s.level src false) := by
  unfold level
  simp only [Bool.false_and, Bool.not_false, Bool.true_and, Bool.false_eq_true, if_false]
  exact Quiet.ite ((Quiet.setReg s _ _ rfl).trans (Quiet.setReg _ _ _ rfl)) (.refl s)

theorem quiet_vfUpdate (s : State) : Quiet s s.vfUpdate := by
  unfold vfUpdate
  refine Quiet.ite (.refl s) (Quiet.trans (Quiet.trans (Quiet.put s _ _ _ ?_) (Quiet.put _ _ _ _ ?_)) (quiet_levelOff _ 4)) <;> rfl

theorem quiet_unitUpdate (s : State) (u : Nat) : Quiet s (s.unitUpdate u) := by
  have h : settles (unitStatus u) = true := by
    unfold unitStatus; split
    · rfl
    · exact settles_eStatus u
  unfold unitUpdate
  exact Quiet.ite (.refl s) (Quiet.ite ((Quiet.putFlag _ _ _ _ h).trans (Quiet.put _ _ _ _ rfl))
      ((Quiet.putFlag _ _ _ _ h).trans (Quiet.put _ _ _ _ (settles_eEvent u))))

theorem quiet_serviceUpdate (s : State) : Quiet s s.serviceUpdate :=
  (((Quiet.putFlag _ _ _ _ rfl).trans (Quiet.putFlag _ _ _ _ rfl)).trans (Quiet.putFlag _ _ _ _ rfl)).trans (Quiet.put _ _ _ _ rfl)

theorem quiet_degrade (s : State) (n tid : Nat) : Quiet s (s.degrade n tid) := by
  unfold degrade
  split
  · split
    · exact .refl s
    · exact ((Quiet.modTransit _ _ _ _).trans (Quiet.bump _ _ _ (settles_acqCnt1 n))).trans (Quiet.put _ _ _ _ (settles_acqEvent n))
  · exact .refl s

theorem quiet_setFnState (s : State) (n v : Nat) : Quiet s (s.setFnState n v) := by
  unfold setFnState
  split
  · exact .refl s
  · exact (Quiet.put _ _ _ _ (settles_fnState n)).trans (Quiet.setBit _ _ _ _ rfl)

theorem quiet_rowMissing (s : State) (n tid p k ch : Nat) : Quiet s (s.rowMissing n tid p k ch) :=
  (Quiet.modCap _ _ _ _ _).trans (quiet_degrade _ _ _)

theorem quiet_cpEvent (s : State) (p : Fin 4) (f : Fld) : Quiet s (s.cpEvent p f) := Quiet.put _ _ _ _ (settles_cp p 0x10 (by decide))

theorem quiet_cpError (s : State) (p : Fin 4) (off : Nat) (f : Fld) (h : settles off = true) : Quiet s (s.cpError p off f) := by
  unfold cpError
  split
  · exact .refl s
  · exact (Quiet.bump _ _ _ h).trans (quiet_cpEvent _ _ _)

theorem quiet_missingRows (s : State) (p : Fin 4) (a : Awaited) (c : Bool) : Quiet s (s.missingRows p a c) := by
  unfold missingRows
  refine Quiet.foldl (fun s ch => ?_) _ _
  refine Quiet.trans ?_ (quiet_rowMissing _ _ _ _ _ _)
  split
  · exact quiet_cpError _ _ _ _ (settles_cp p 0x50 (by decide))
  · exact .refl s

theorem quiet_dropQueue (s : State) (p : Fin 4) : Quiet s (s.dropQueue p) := by
  unfold dropQueue
  exact ((Quiet.modPort _ _ _).trans (Quiet.put _ _ _ _ (settles_cp p 0x3C (by decide)))).trans (Quiet.foldl (fun s a => quiet_missingRows s p a true) _ _)

theorem quiet_laneOff (s : State) (x : Fin 16) : Quiet s (s.laneOff x) := by
  unfold laneOff
  refine Quiet.trans (Quiet.trans (t := if s.laneState x = 2 then s.put (Reg.LN_ACQ x) Fl.LN_ACQ_RESULT 4 else s) ?_
    (Quiet.setReg _ _ _ (settles_lnState x))) (Quiet.modLane _ _ _)
  split
  · exact Quiet.put _ _ _ _ (settles_lnAcq x)
  · exact .refl s

theorem quiet_portLanesOff (s : State) (p : Fin 4) : Quiet s (s.portLanesOff p) := Quiet.foldl (fun s _ => quiet_laneOff s _) _ _

theorem quiet_portIdle (s : State) (p : Fin 4) : Quiet s (s.portIdle p) := by
  unfold portIdle
  have h : settles (Reg.CP_STATE p) = true := settles_cp p 0 (by decide)
  exact (((((((quiet_dropQueue s p).trans (quiet_portLanesOff _ p)).trans (Quiet.modPort _ p _)).trans (Quiet.put _ _ _ _ h)).trans
    (Quiet.put _ _ _ _ h)).trans (Quiet.put _ _ _ _ h)).trans (Quiet.put _ _ _ _ h))

theorem quiet_fnStop (s : State) (n : Nat) : Quiet s (s.fnStop n) :=
  (quiet_setFnState s n 0).trans (Quiet.foldl (fun s _ => quiet_portIdle s _) _ _)

theorem quiet_setCause (s : State) (n c : Nat) : Quiet s (s.setCause n c) := Quiet.put _ _ _ _ (settles_fnState n)

theorem quiet_leaveService (s : State) (n c : Nat) : Quiet s (s.leaveService n c) := by
  unfold leaveService
  split
  · exact (quiet_setCause s n c).trans (quiet_fnStop _ n)
  · split
    · exact ((quiet_setFnState s n 4).trans (quiet_setCause _ n c)).trans (Quiet.modFn _ _ _)
    · exact .refl s

theorem quiet_levelLost (s : State) (n : Nat) : Quiet s (s.levelLost n) := by
  unfold levelLost
  exact (Quiet.foldl (fun s t => (Quiet.modTransit _ _ _ _).trans (quiet_degrade _ _ _)) _ _).trans (quiet_leaveService _ _ _)

theorem quiet_levelLoop (k : Nat) (s : State) : Quiet s (levelLoop k s) := by
  induction k generalizing s with
  | zero => exact quiet_serviceUpdate s
  | succ k ih =>
    unfold levelLoop
    simp only
    split
    · exact quiet_serviceUpdate s
    · exact ((quiet_serviceUpdate s).trans (quiet_levelLost _ _)).trans (ih _)

theorem quiet_unmetUpdate (s : State) (n : Nat) : Quiet s (s.unmetUpdate n) := by
  unfold unmetUpdate
  split
  · exact Quiet.modFn _ _ _
  · exact .refl s

/-! ### Streams -/

theorem quiet_sts (s : State) (m : Memory) : Quiet s { s with sts := m } := ⟨rfl, fun _ _ => rfl⟩

theorem quiet_writeRow (s : State) (b : Band) (x : Stripe) (l chans row ch : Nat) (px : List Byte) (fill : Byte) :
    Quiet s (s.writeRow b x l chans row ch px fill) := quiet_sts s _

theorem quiet_fillRows (s : State) (n p : Nat) : Quiet s (s.fillRows n p) := by
  unfold fillRows
  split
  · exact .refl s
  · refine Quiet.foldl (fun s x => ?_) _ _
    split
    · exact .refl s
    · split
      · exact .refl s
      · simp only
        split
        · exact Quiet.foldl (fun s r => quiet_writeRow _ _ _ _ _ _ _ _ _) _ _
        · exact (Quiet.foldl (fun s r => quiet_writeRow _ _ _ _ _ _ _ _ _) _ _).trans (Quiet.modBand _ _ _ _ _)

theorem quiet_enqueue (s : State) (o : DlvObj) : Quiet s (enqueue s o) := by
  unfold enqueue
  split
  · exact Quiet.bump _ _ _ rfl
  · exact ⟨rfl, fun _ _ => rfl⟩

theorem quiet_releaseStripe (s : State) (n k i b : Nat) (r : Reader) : Quiet s (s.releaseStripe n k i b r) := Quiet.modBand _ _ _ _ _
theorem quiet_completeStripe (s : State) (n k i b : Nat) : Quiet s (s.completeStripe n k i b) := Quiet.modBand _ _ _ _ _
theorem quiet_openStripe (s : State) (n k i tid j : Nat) (l : List (Nat × Nat)) : Quiet s (s.openStripe n k i tid j l) := Quiet.modBand _ _ _ _ _

theorem quiet_finishLines (s : State) (n p : Nat) : Quiet s (s.finishLines n p) := by
  unfold finishLines
  split
  · exact .refl s
  · refine Quiet.foldl (fun s x => ?_) _ _
    split
    · exact .refl s
    · simp only
      refine Quiet.ite ?_ ?_
      · exact ((quiet_completeStripe _ _ _ _ _).trans (Quiet.foldl quiet_enqueue _ _)).trans (quiet_releaseStripe _ _ _ _ _ _)
      · exact (quiet_completeStripe _ _ _ _ _).trans (Quiet.foldl quiet_enqueue _ _)

theorem quiet_popFifo (s : State) (p : Fin 4) : Quiet s (s.popFifo p) :=
  (Quiet.modPort _ _ _).trans (Quiet.put _ _ _ _ (settles_cp p 0x40 (by decide)))

theorem quiet_placeStep (s t : State) (p : Fin 4) (h : s.placeStep p = some t) : Quiet s t := by
  unfold placeStep at h
  split at h
  · split at h
    · cases h
    · cases h; exact quiet_popFifo s p
  · simp only at h
    split at h
    · split at h
      · cases h
      · cases h; exact quiet_popFifo s p
    · split at h
      · cases h; exact quiet_popFifo s p
      · split at h
        · cases h
          exact ((((quiet_writeRow _ _ _ _ _ _ _ _ _).trans (quiet_popFifo _ _)).trans (Quiet.modBand _ _ _ _ _)).trans
            (quiet_fillRows _ _ _)).trans (quiet_finishLines _ _ _)
        · split at h
          · cases h
          · split at h
            · cases h
              exact (((quiet_openStripe _ _ _ _ _ _ _).trans (Quiet.modAnyCap _ _ _ _ _)).trans (quiet_fillRows _ _ _)).trans
                (quiet_finishLines _ _ _)
            · cases h

theorem quiet_decRelease (s : State) (n p tid dec : Nat) (all : Bool) : Quiet s (s.decRelease n p tid dec all) := by
  unfold decRelease
  split
  · exact .refl s
  · refine Quiet.foldl (fun s x => ?_) _ _
    split
    · exact quiet_releaseStripe _ _ _ _ _ _
    · exact .refl s

theorem quiet_decWrite (s : State) (l d : Band) (n p : Nat) (t : Transit) (x : Stripe) (r : Nat) : Quiet s (s.decWrite l d n p t x r) := by
  unfold decWrite
  simp only
  refine Quiet.trans (Quiet.ite (Quiet.trans ?_ (quiet_completeStripe _ _ _ _ _)) ?_) (quiet_decRelease _ _ _ _ _ _)
  all_goals
    refine Quiet.trans (Quiet.trans (quiet_sts s _) (Quiet.foldl (fun s i => ?_) _ _)) (Quiet.modAnyCap _ _ _ _ _)
    exact quiet_sts s _

theorem findSome_quiet {α : Type} {s t : State} {f : α → Option State} {l : List α} (hf : ∀ x u, f x = some u → Quiet s u)
    (h : l.findSome? f = some t) : Quiet s t := by
  obtain ⟨x, _, hx⟩ := List.exists_of_findSome?_eq_some h
  exact hf x t hx

theorem quiet_decimStep (s t : State) (p : Nat) (h : s.decimStep p = some t) : Quiet s t := by
  unfold decimStep at h
  split at h
  · cases h
  · split at h
    · split at h
      · cases h
      · refine findSome_quiet (fun x u hu => ?_) h
        simp only at hu
        split at hu
        · cases hu
        · simp only [Option.ite_none_left_eq_some] at hu
          replace hu := hu.2
          split at hu
          · cases hu
            exact (Quiet.modAnyCap _ _ _ _ _).trans (quiet_decRelease _ _ _ _ _ _)
          · split at hu
            · cases hu; exact quiet_decWrite _ _ _ _ _ _ _ _
            · split at hu
              · cases hu; exact quiet_openStripe _ _ _ _ _ _ _
              · cases hu
    · cases h

theorem quiet_pumpLoop (k : Nat) (s : State) : Quiet s (pumpLoop k s) := by
  induction k generalizing s with
  | zero => exact .refl s
  | succ k ih =>
    unfold pumpLoop
    split
    · next t h =>
      refine Quiet.trans ?_ (ih t)
      unfold pumpStep at h
      cases h1 : (List.finRange 4).findSome? fun p => s.placeStep p with
      | some u =>
        rw [h1] at h
        cases h
        exact findSome_quiet (fun p u hu => quiet_placeStep s u p hu) h1
      | none =>
        rw [h1] at h
        exact findSome_quiet (fun p u hu => quiet_decimStep s u p hu) h
    · exact .refl s

theorem quiet_pump (s : State) : Quiet s s.pump := by
  unfold pump
  refine Quiet.trans (Quiet.foldl (fun s p => ?_) _ _) (quiet_pumpLoop _ _)
  split
  · exact (quiet_fillRows _ _ _).trans (quiet_finishLines _ _ _)
  · exact .refl s

theorem quiet_forget (s : State) : Quiet s s.forget := ⟨rfl, fun _ _ => rfl⟩

/-! ### Settling -/

/-- With no reaction due, what every command ends with changes only what `settles` and State.still leave out. -/
theorem quiet_settle (s : State) (h : s.react = []) : Quiet s s.settle := by
  have hr : s.runReactions = s := by
    unfold runReactions
    simp only [h, List.find?_nil, List.foldl_nil]
    rw [← h]
  unfold settle
  simp only [hr]
  split
  · exact .refl s
  · have h1 : Quiet s ((List.range 3).foldl unitUpdate s.vfUpdate) := (quiet_vfUpdate s).trans (Quiet.foldl quiet_unitUpdate _ _)
    split
    · exact h1.trans (quiet_serviceUpdate _)
    · exact ((((h1.trans (quiet_levelLoop _ _)).trans (Quiet.foldl quiet_unmetUpdate _ _)).trans (quiet_pump _)).trans (quiet_forget _)).trans
        (quiet_serviceUpdate _)

end State

end Sys2Proof.Machine
end

