-- ==== Sys2Proof/Laws/Ended.lean ====
section
/-! SUPPORT. What a command's next state shares with its own effect: the laws of State.ended, of time, and of the gates that commands
pass. -/
namespace Sys2Proof.Machine

/-- A state with what fired vectors may change taken out. -/
def State.unfired (s : State) : State := { s with regs := [], sent := [], pcie := { s.pcie with pba := [] } }

/-- Only what fired vectors may change differs. -/
structure Fired (s t : State) : Prop where
  unfired : t.unfired = s.unfired
  reg : ∀ a, fires a = false → t.reg a = s.reg a

namespace Fired

theorem refl (s : State) : Fired s s := ⟨rfl, fun _ _ => rfl⟩
theorem trans {s t u : State} (h : Fired s t) (k : Fired t u) : Fired s u :=
  ⟨k.unfired.trans h.unfired, fun a ha => (k.reg a ha).trans (h.reg a ha)⟩
theorem foldl {α : Type} {f : State → α → State} (h : ∀ s x, Fired s (f s x)) (l : List α) (s : State) : Fired s (l.foldl f s) := by
  induction l generalizing s with
  | nil => exact refl s
  | cons x l ih => exact (h s x).trans (ih _)

end Fired

namespace State

theorem fires_vpend (v : Nat) : fires (Reg.EVT_VPEND v) = true := by
  simp only [fires, decide_eq_true_eq]
  unfold Reg.EVT_VPEND
  omega

theorem fired_vpend (s : State) (v : Nat) (b : Bool) : Fired s (s.vpend v b) := by
  refine ⟨?_, fun a ha => reg_putBit_other _ _ _ _ _ _ fun e => ?_⟩
  · unfold vpend putBit clearBit
    split
    · rfl
    · split <;> rfl
  · rw [e, fires_vpend] at ha; cases ha

theorem fired_fireVector (s : State) (v : Nat) : Fired s (s.fireVector v) := by
  unfold fireVector offerVector
  split
  · exact .refl s
  · split
    · exact fired_vpend s v true
    · split
      · split
        · exact ⟨rfl, fun _ _ => rfl⟩
        · exact ⟨rfl, fun _ _ => rfl⟩
      · exact fired_vpend s v true

theorem fired_fireRisen (s t : State) : Fired t (State.fireRisen s t) := Fired.foldl fired_fireVector _ _
theorem fired_refire (s : State) (off : Nat) : Fired s (s.refire off) := Fired.foldl fired_fireVector _ _

theorem calm_nil {s : State} (h : s.calm = true) : s.react = [] := by simpa [calm] using h

/-! ## The frame of State.ended -/

variable (s e : State)

/-- A register outside those that settling and firing write is in the next state what the command's effect left. -/
theorem ended_reg (h : e.react = []) (a : Nat) (ha : settles a = false) (hb : fires a = false) : (s.ended e).reg a = e.reg a := by
  have h1 := (quiet_settle e h).reg a ha
  have h2 := (fired_fireRisen s e.settle).reg a hb
  exact h2.trans h1

theorem ended_get (h : e.react = []) (a : Nat) (f : Fld) (ha : settles a = false) (hb : fires a = false) :
    (s.ended e).get a f = e.get a f := by simp [get, ended_reg s e h a ha hb]

theorem ended_pair (h : e.react = []) (lo hi : Nat) (ha : settles lo = false) (hb : fires lo = false) (hc : settles hi = false)
    (hd : fires hi = false) : (s.ended e).pair lo hi = e.pair lo hi := by
  simp [pair, ended_reg s e h lo ha hb, ended_reg s e h hi hc hd]

@[simp] theorem ended_pending : (s.ended e).pending = s.pending := rfl
@[simp] theorem ended_react : (s.ended e).react = [] := rfl

/-- The fields that neither settling nor firing changes. -/
theorem ended_field {α : Type} (g : State → α) (h : e.react = []) (h1 : ∀ x : State, g x.still = g x) (h2 : ∀ x : State, g x.unfired = g x)
    (h3 : ∀ x : State, ∀ l m, g { x with pending := l, react := m } = g x) : g (s.ended e) = g e := by
  have k1 := (quiet_settle e h).still
  have k2 := (fired_fireRisen s e.settle).unfired
  have e1 : g (State.fireRisen s e.settle) = g e.settle := by rw [← h2, k2, h2]
  have e2 : g e.settle = g e := by rw [← h1, k1, h1]
  exact (h3 _ _ _).trans (e1.trans e2)

theorem ended_fregs (h : e.react = []) : (s.ended e).fregs = e.fregs :=
  ended_field s e (·.fregs) h (fun _ => rfl) (fun _ => rfl) (fun _ _ _ => rfl)
theorem ended_shadow (h : e.react = []) : (s.ended e).shadow = e.shadow :=
  ended_field s e (·.shadow) h (fun _ => rfl) (fun _ => rfl) (fun _ _ _ => rfl)
theorem ended_pciePath (h : e.react = []) : (s.ended e).pciePath = e.pciePath :=
  ended_field s e (·.pciePath) h (fun _ => rfl) (fun _ => rfl) (fun _ _ _ => rfl)
theorem ended_spiPath (h : e.react = []) : (s.ended e).spiPath = e.spiPath :=
  ended_field s e (·.spiPath) h (fun _ => rfl) (fun _ => rfl) (fun _ _ _ => rfl)
theorem ended_clk (h : e.react = []) : (s.ended e).clk = e.clk :=
  ended_field s e (·.clk) h (fun _ => rfl) (fun _ => rfl) (fun _ _ _ => rfl)
theorem ended_pw (h : e.react = []) : (s.ended e).pw = e.pw :=
  ended_field s e (·.pw) h (fun _ => rfl) (fun _ => rfl) (fun _ _ _ => rfl)
theorem ended_chart (h : e.react = []) : (s.ended e).chart = e.chart :=
  ended_field s e (·.chart) h (fun _ => rfl) (fun _ => rfl) (fun _ _ _ => rfl)
theorem ended_hz (h : e.react = []) : (s.ended e).hz = e.hz :=
  ended_field s e (·.hz) h (fun _ => rfl) (fun _ => rfl) (fun _ _ _ => rfl)
theorem ended_jens (h : e.react = []) : (s.ended e).jens = e.jens :=
  ended_field s e (·.jens) h (fun _ => rfl) (fun _ => rfl) (fun _ _ _ => rfl)
theorem ended_commit (h : e.react = []) : (s.ended e).commit = e.commit :=
  ended_field s e (·.commit) h (fun _ => rfl) (fun _ => rfl) (fun _ _ _ => rfl)
theorem ended_heldPwr (h : e.react = []) : (s.ended e).heldPwr = e.heldPwr :=
  ended_field s e (·.heldPwr) h (fun _ => rfl) (fun _ => rfl) (fun _ _ _ => rfl)
theorem ended_spi (h : e.react = []) : (s.ended e).spi = e.spi :=
  ended_field s e (·.spi) h (fun _ => rfl) (fun _ => rfl) (fun _ _ _ => rfl)
theorem ended_bsp (h : e.react = []) : (s.ended e).bsp = e.bsp :=
  ended_field s e (·.bsp) h (fun _ => rfl) (fun _ => rfl) (fun _ _ _ => rfl)
theorem ended_bist (h : e.react = []) : (s.ended e).bist = e.bist :=
  ended_field s e (·.bist) h (fun _ => rfl) (fun _ => rfl) (fun _ _ _ => rfl)
theorem ended_upsets (h : e.react = []) : (s.ended e).upsets = e.upsets :=
  ended_field s e (·.upsets) h (fun _ => rfl) (fun _ => rfl) (fun _ _ _ => rfl)
theorem ended_blockResets (h : e.react = []) : (s.ended e).blockResets = e.blockResets :=
  ended_field s e (·.blockResets) h (fun _ => rfl) (fun _ => rfl) (fun _ _ _ => rfl)
theorem ended_wdtCount (h : e.react = []) : (s.ended e).wdtCount = e.wdtCount :=
  ended_field s e (·.wdtCount) h (fun _ => rfl) (fun _ => rfl) (fun _ _ _ => rfl)
theorem ended_wdtTimeout (h : e.react = []) : (s.ended e).wdtTimeout = e.wdtTimeout :=
  ended_field s e (·.wdtTimeout) h (fun _ => rfl) (fun _ => rfl) (fun _ _ _ => rfl)
theorem ended_wdtWarn (h : e.react = []) : (s.ended e).wdtWarn = e.wdtWarn :=
  ended_field s e (·.wdtWarn) h (fun _ => rfl) (fun _ => rfl) (fun _ _ _ => rfl)
theorem ended_wdtWarned (h : e.react = []) : (s.ended e).wdtWarned = e.wdtWarned :=
  ended_field s e (·.wdtWarned) h (fun _ => rfl) (fun _ => rfl) (fun _ _ _ => rfl)
theorem ended_running (h : e.react = []) : (s.ended e).running = e.running :=
  ended_field s e (·.running) h (fun _ => rfl) (fun _ => rfl) (fun _ _ _ => rfl)
theorem ended_cas (h : e.react = []) : (s.ended e).cas = e.cas :=
  ended_field s e (·.cas) h (fun _ => rfl) (fun _ => rfl) (fun _ _ _ => rfl)
theorem ended_hostMem (h : e.react = []) : (s.ended e).hostMem = e.hostMem :=
  ended_field s e (·.hostMem) h (fun _ => rfl) (fun _ => rfl) (fun _ _ _ => rfl)
theorem ended_ws (h : e.react = []) : (s.ended e).ws = e.ws :=
  ended_field s e (·.ws) h (fun _ => rfl) (fun _ => rfl) (fun _ _ _ => rfl)
theorem ended_cht (h : e.react = []) : (s.ended e).cht = e.cht :=
  ended_field s e (·.cht) h (fun _ => rfl) (fun _ => rfl) (fun _ _ _ => rfl)
theorem ended_mceLb (h : e.react = []) : (s.ended e).mceLb = e.mceLb :=
  ended_field s e (·.mceLb) h (fun _ => rfl) (fun _ => rfl) (fun _ _ _ => rfl)
theorem ended_eleLb (h : e.react = []) : (s.ended e).eleLb = e.eleLb :=
  ended_field s e (·.eleLb) h (fun _ => rfl) (fun _ => rfl) (fun _ _ _ => rfl)
theorem ended_tdr (h : e.react = []) : (s.ended e).tdr = e.tdr :=
  ended_field s e (·.tdr) h (fun _ => rfl) (fun _ => rfl) (fun _ _ _ => rfl)
theorem ended_freeCtr (h : e.react = []) : (s.ended e).freeCtr = e.freeCtr :=
  ended_field s e (·.freeCtr) h (fun _ => rfl) (fun _ => rfl) (fun _ _ _ => rfl)
theorem ended_pcie_perst (h : e.react = []) : (s.ended e).pcie.perst = e.pcie.perst :=
  ended_field s e (·.pcie.perst) h (fun _ => rfl) (fun _ => rfl) (fun _ _ _ => rfl)
theorem ended_pcie_linkUp (h : e.react = []) : (s.ended e).pcie.linkUp = e.pcie.linkUp :=
  ended_field s e (·.pcie.linkUp) h (fun _ => rfl) (fun _ => rfl) (fun _ _ _ => rfl)
theorem ended_pcie_training (h : e.react = []) : (s.ended e).pcie.training = e.pcie.training :=
  ended_field s e (·.pcie.training) h (fun _ => rfl) (fun _ => rfl) (fun _ _ _ => rfl)
theorem ended_pcie_msixEnable (h : e.react = []) : (s.ended e).pcie.msixEnable = e.pcie.msixEnable :=
  ended_field s e (·.pcie.msixEnable) h (fun _ => rfl) (fun _ => rfl) (fun _ _ _ => rfl)
theorem ended_pcie_functionMask (h : e.react = []) : (s.ended e).pcie.functionMask = e.pcie.functionMask :=
  ended_field s e (·.pcie.functionMask) h (fun _ => rfl) (fun _ => rfl) (fun _ _ _ => rfl)
theorem ended_pcie_msixTable (h : e.react = []) : (s.ended e).pcie.msixTable = e.pcie.msixTable :=
  ended_field s e (·.pcie.msixTable) h (fun _ => rfl) (fun _ => rfl) (fun _ _ _ => rfl)
theorem ended_pcie_poisoned (h : e.react = []) : (s.ended e).pcie.poisoned = e.pcie.poisoned :=
  ended_field s e (·.pcie.poisoned) h (fun _ => rfl) (fun _ => rfl) (fun _ _ _ => rfl)
theorem ended_pcie_unsupported (h : e.react = []) : (s.ended e).pcie.unsupported = e.pcie.unsupported :=
  ended_field s e (·.pcie.unsupported) h (fun _ => rfl) (fun _ => rfl) (fun _ _ _ => rfl)
theorem ended_jreg (h : e.react = []) (a : Nat) : (s.ended e).jreg a = e.jreg a := jreg_congr (ended_fregs s e h) a
theorem ended_jget (h : e.react = []) (a : Nat) (f : Fld) : (s.ended e).jget a f = e.jget a f := jget_congr (ended_fregs s e h) a f
theorem ended_shadowReg (h : e.react = []) (a : Nat) : (s.ended e).shadowReg a = e.shadowReg a := by simp [shadowReg, ended_shadow s e h]
theorem ended_pathOf (h : e.react = []) (p : Path) : (s.ended e).pathOf p = e.pathOf p := by
  cases p
  · exact ended_pciePath s e h
  · exact ended_spiPath s e h

theorem ended_rest (h : e.react = []) : (s.ended e).rest = e.rest :=
  ended_field s e rest h (fun _ => rfl) (fun _ => rfl) (fun _ _ _ => rfl)
theorem ended_kept (h : e.react = []) (ws : List Nat) (k : ∀ a, a ∉ ws → e.reg a = s.reg a) : s.regsKept (s.ended e) ws :=
  fun a ha hb hc => (ended_reg s e h a ha hb).trans (k a hc)

theorem finish_leaves : ∃ t, finish s e = .next t ∧ t.pending = s.pending ∧ t.calm = true := ⟨_, rfl, rfl, rfl⟩
theorem finishLoss_leaves (l : Bool) : ∃ t, finishLoss s e l = .next t ∧ t.pending = s.pending ∧ t.calm = true := by
  refine ⟨_, rfl, ?_⟩; unfold endedLoss; split <;> exact ⟨rfl, rfl⟩

/-! ## Reactions that only interrupt or trap -/

theorem reaction_congr {x y : State} (h : y.regs = x.regs) (i : Nat) : y.reaction i = x.reaction i := get_congr h _ _

theorem wakes_reg_congr {x y : State} (h : ∀ a, y.reg a = x.reg a) : y.wakes = x.wakes := by
  simp only [wakes, parked, isSleep, isPark, isRun, isSafe, pwState, parkEntry, parkExit, get, h]

theorem wakes_congr {x y : State} (h : y.regs = x.regs) : y.wakes = x.wakes := by
  simp only [wakes, parked, isSleep, isPark, isRun, isSafe, pwState, parkEntry, parkExit, get_congr h]

theorem wakeFcu_quiet (x : State) (hw : x.wakes = false) : x.wakeFcu = x := by
  unfold wakeFcu wakeBy
  rw [if_neg (by rw [hw]; exact Bool.false_ne_true)]

theorem react1_quiet (x : State) (i : Nat) (h : x.reaction i = 0 ∨ x.reaction i = 1) (hw : x.wakes = false) : react1 x i = x := by
  have h2 : x.reaction i ≠ 2 := by omega
  unfold react1
  show (if x.reaction i = 2 then (if x.isSafe then x else x.blockReset i) else x.wakeFcu) = x
  rw [if_neg h2, wakeFcu_quiet x hw]

theorem foldl_react1_quiet (x : State) (hw : x.wakes = false) (l : List Nat) (h : ∀ i ∈ l, x.reaction i = 0 ∨ x.reaction i = 1) :
    l.foldl react1 x = x := by
  induction l with
  | nil => rfl
  | cons i l ih =>
    rw [List.foldl_cons, react1_quiet x i (h i (by simp)) hw]
    exact ih fun j hj => h j (by simp [hj])

/-- Reactions INT and TRAP change nothing where nothing sleeps. -/
theorem runReactions_quiet (h : ∀ i ∈ e.react, e.reaction i = 0 ∨ e.reaction i = 1) (hw : e.wakes = false) :
    e.runReactions = { e with react := [] } := by
  have hr : ∀ i, ({ e with react := [] } : State).reaction i = e.reaction i := fun i => reaction_congr rfl i
  have hf : e.react.find? (fun i => ({ e with react := [] } : State).reaction i == 3) = none := by
    rw [List.find?_eq_none]
    intro i hi
    rw [hr]
    rcases h i hi with k | k <;> rw [k] <;> decide
  unfold runReactions
  simp only [hf]
  exact foldl_react1_quiet { e with react := [] } ((wakes_congr rfl).trans hw) e.react fun i hi => by rw [hr]; exact h i hi

/-- So the next state is that of the effect without the reactions. -/
theorem ended_int (h : ∀ i ∈ e.react, e.reaction i = 0 ∨ e.reaction i = 1) (hw : e.wakes = false) :
    s.ended e = s.ended { e with react := [] } := by
  have h1 : e.settle = ({ e with react := [] } : State).settle := by
    unfold settle
    rw [runReactions_quiet e h hw, runReactions_quiet { e with react := [] } (by simp) hw]
  unfold ended
  rw [h1]

/-! ## Time -/

theorem casFrames_regs (n : Nat) (x : State) : (casFrames n x).regs = x.regs := by
  induction n generalizing x with
  | zero => rfl
  | succ n ih => exact ih _

/-- What neither a frame nor a write of the cascade's own state changes, a run of frames does not change. -/
theorem casLaunch_field {α : Type} (g : State → α) (h1 : ∀ n x, g (casFrames n x) = g x) (h2 : ∀ (x : State) c, g { x with cas := c } = g x)
    (x : State) (t : Nat) : g (x.casLaunch t) = g x := by
  unfold casLaunch
  split
  · simp only
    split
    · rw [h1]
    · rw [h1, h2, h1]
  · rfl

theorem casLaunch_regs (x : State) (t : Nat) : (x.casLaunch t).regs = x.regs := casLaunch_field (·.regs) casFrames_regs (fun _ _ => rfl) x t

/-- A state with what time changes taken out. -/
def timeless (s : State) : State :=
  { s with regs := [], cas := casReset, wdtCount := 0, clk := { s.clk with ts := 0, jts := 0, opFrac := 0 } }

theorem casFrames_timeless (n : Nat) (x : State) : (casFrames n x).timeless = x.timeless := by
  induction n generalizing x with
  | zero => rfl
  | succ n ih => exact ih _

theorem casLaunch_timeless (x : State) (t : Nat) : (x.casLaunch t).timeless = x.timeless :=
  casLaunch_field timeless casFrames_timeless (fun _ _ => rfl) x t

theorem tick_timeless (x : State) (d : Nat) : (x.tick d).timeless = x.timeless := by
  unfold tick
  split
  · have h1 : ∀ y : State, (y.addOpTime d).timeless = y.timeless := by
      intro y; unfold addOpTime; split <;> rfl
    have h2 := (h1 (x.casLaunch (x.clk.ts + d))).trans (casLaunch_timeless x (x.clk.ts + d))
    simp only
    split
    · exact h2
    · exact h2
  · rfl

theorem tick_reg (x : State) (d a : Nat) (h : a ≠ Reg.BIST_OPTIME) : (x.tick d).reg a = x.reg a := by
  unfold tick
  split
  · have h1 : ∀ y : State, (y.addOpTime d).reg a = y.reg a := by
      intro y; unfold addOpTime; split
      · simp only [wrapBy_eq]
        exact (reg_put _ _ _ _ _).trans (by simp [h])
      · rfl
    have h2 := (h1 (x.casLaunch (x.clk.ts + d))).trans (reg_congr (casLaunch_regs x (x.clk.ts + d)) a)
    simp only
    split
    · exact h2
    · exact h2
  · rfl

theorem atTime_reg (t a : Nat) (h : a ≠ Reg.BIST_OPTIME) : (s.atTime t).reg a = s.reg a := tick_reg _ _ _ h
theorem atTime_get (t a : Nat) (f : Fld) (h : a ≠ Reg.BIST_OPTIME) : (s.atTime t).get a f = s.get a f := by simp [get, atTime_reg s t a h]

/-- The fields that time does not change. -/
theorem atTime_field {α : Type} (g : State → α) (h : ∀ x : State, g x.timeless = g x) (t : Nat) : g (s.atTime t) = g s := by
  have k := tick_timeless s (t - s.clk.ts)
  rw [← h, ← h s]; exact congrArg g k

@[simp] theorem atTime_fregs (t : Nat) : (s.atTime t).fregs = s.fregs := atTime_field s (·.fregs) (fun _ => rfl) t
@[simp] theorem atTime_shadow (t : Nat) : (s.atTime t).shadow = s.shadow := atTime_field s (·.shadow) (fun _ => rfl) t
@[simp] theorem atTime_pciePath (t : Nat) : (s.atTime t).pciePath = s.pciePath := atTime_field s (·.pciePath) (fun _ => rfl) t
@[simp] theorem atTime_spiPath (t : Nat) : (s.atTime t).spiPath = s.spiPath := atTime_field s (·.spiPath) (fun _ => rfl) t
@[simp] theorem atTime_pw (t : Nat) : (s.atTime t).pw = s.pw := atTime_field s (·.pw) (fun _ => rfl) t
@[simp] theorem atTime_pcie (t : Nat) : (s.atTime t).pcie = s.pcie := atTime_field s (·.pcie) (fun _ => rfl) t
@[simp] theorem atTime_sent (t : Nat) : (s.atTime t).sent = s.sent := atTime_field s (·.sent) (fun _ => rfl) t
@[simp] theorem atTime_chart (t : Nat) : (s.atTime t).chart = s.chart := atTime_field s (·.chart) (fun _ => rfl) t
@[simp] theorem atTime_hz (t : Nat) : (s.atTime t).hz = s.hz := atTime_field s (·.hz) (fun _ => rfl) t
@[simp] theorem atTime_jens (t : Nat) : (s.atTime t).jens = s.jens := atTime_field s (·.jens) (fun _ => rfl) t
@[simp] theorem atTime_lanes (t : Nat) : (s.atTime t).lanes = s.lanes := atTime_field s (·.lanes) (fun _ => rfl) t
@[simp] theorem atTime_ports (t : Nat) : (s.atTime t).ports = s.ports := atTime_field s (·.ports) (fun _ => rfl) t
@[simp] theorem atTime_commit (t : Nat) : (s.atTime t).commit = s.commit := atTime_field s (·.commit) (fun _ => rfl) t
@[simp] theorem atTime_heldPwr (t : Nat) : (s.atTime t).heldPwr = s.heldPwr := atTime_field s (·.heldPwr) (fun _ => rfl) t
@[simp] theorem atTime_spi (t : Nat) : (s.atTime t).spi = s.spi := atTime_field s (·.spi) (fun _ => rfl) t
@[simp] theorem atTime_bsp (t : Nat) : (s.atTime t).bsp = s.bsp := atTime_field s (·.bsp) (fun _ => rfl) t
@[simp] theorem atTime_bist (t : Nat) : (s.atTime t).bist = s.bist := atTime_field s (·.bist) (fun _ => rfl) t
@[simp] theorem atTime_upsets (t : Nat) : (s.atTime t).upsets = s.upsets := atTime_field s (·.upsets) (fun _ => rfl) t
@[simp] theorem atTime_blockResets (t : Nat) : (s.atTime t).blockResets = s.blockResets := atTime_field s (·.blockResets) (fun _ => rfl) t
@[simp] theorem atTime_react (t : Nat) : (s.atTime t).react = s.react := atTime_field s (·.react) (fun _ => rfl) t
@[simp] theorem atTime_wdtTimeout (t : Nat) : (s.atTime t).wdtTimeout = s.wdtTimeout := atTime_field s (·.wdtTimeout) (fun _ => rfl) t
@[simp] theorem atTime_wdtWarn (t : Nat) : (s.atTime t).wdtWarn = s.wdtWarn := atTime_field s (·.wdtWarn) (fun _ => rfl) t
@[simp] theorem atTime_wdtWarned (t : Nat) : (s.atTime t).wdtWarned = s.wdtWarned := atTime_field s (·.wdtWarned) (fun _ => rfl) t
@[simp] theorem atTime_fns (t : Nat) : (s.atTime t).fns = s.fns := atTime_field s (·.fns) (fun _ => rfl) t
@[simp] theorem atTime_transits (t : Nat) : (s.atTime t).transits = s.transits := atTime_field s (·.transits) (fun _ => rfl) t
@[simp] theorem atTime_gone (t : Nat) : (s.atTime t).gone = s.gone := atTime_field s (·.gone) (fun _ => rfl) t
@[simp] theorem atTime_bands (t : Nat) : (s.atTime t).bands = s.bands := atTime_field s (·.bands) (fun _ => rfl) t
@[simp] theorem atTime_running (t : Nat) : (s.atTime t).running = s.running := atTime_field s (·.running) (fun _ => rfl) t
@[simp] theorem atTime_dlv (t : Nat) : (s.atTime t).dlv = s.dlv := atTime_field s (·.dlv) (fun _ => rfl) t
@[simp] theorem atTime_hostMem (t : Nat) : (s.atTime t).hostMem = s.hostMem := atTime_field s (·.hostMem) (fun _ => rfl) t
@[simp] theorem atTime_sts (t : Nat) : (s.atTime t).sts = s.sts := atTime_field s (·.sts) (fun _ => rfl) t
@[simp] theorem atTime_ws (t : Nat) : (s.atTime t).ws = s.ws := atTime_field s (·.ws) (fun _ => rfl) t
@[simp] theorem atTime_cht (t : Nat) : (s.atTime t).cht = s.cht := atTime_field s (·.cht) (fun _ => rfl) t
@[simp] theorem atTime_mceLb (t : Nat) : (s.atTime t).mceLb = s.mceLb := atTime_field s (·.mceLb) (fun _ => rfl) t
@[simp] theorem atTime_eleLb (t : Nat) : (s.atTime t).eleLb = s.eleLb := atTime_field s (·.eleLb) (fun _ => rfl) t
@[simp] theorem atTime_tdr (t : Nat) : (s.atTime t).tdr = s.tdr := atTime_field s (·.tdr) (fun _ => rfl) t
@[simp] theorem atTime_freeCtr (t : Nat) : (s.atTime t).freeCtr = s.freeCtr := atTime_field s (·.freeCtr) (fun _ => rfl) t
@[simp] theorem atTime_pending (t : Nat) : (s.atTime t).pending = s.pending := atTime_field s (·.pending) (fun _ => rfl) t
@[simp] theorem atTime_sclk (t : Nat) : (s.atTime t).clk.sclk = s.clk.sclk := atTime_field s (·.clk.sclk) (fun _ => rfl) t
@[simp] theorem atTime_bootTs (t : Nat) : (s.atTime t).clk.bootTs = s.clk.bootTs := atTime_field s (·.clk.bootTs) (fun _ => rfl) t
@[simp] theorem atTime_alive (t : Nat) : (s.atTime t).alive = s.alive := by simp [alive]
@[simp] theorem atTime_isSafe (t : Nat) : (s.atTime t).isSafe = s.isSafe := by
  simp only [isSafe, pwState]; rw [atTime_get s t _ _ (by decide)]
theorem atTime_jreg (t a : Nat) : (s.atTime t).jreg a = s.jreg a := jreg_congr (atTime_fregs s t) a
theorem atTime_jget (t a : Nat) (f : Fld) : (s.atTime t).jget a f = s.jget a f := jget_congr (atTime_fregs s t) a f

theorem casFrames_clk (n : Nat) (x : State) : (casFrames n x).clk = x.clk := by
  induction n generalizing x with
  | zero => rfl
  | succ n ih => exact ih _

theorem casLaunch_clk (x : State) (t : Nat) : (x.casLaunch t).clk = x.clk := casLaunch_field (·.clk) casFrames_clk (fun _ _ => rfl) x t

/-- Time reaches the cycle of a command, where SCLK runs; it never goes back. -/
theorem atTime_ts (t : Nat) (h : s.clk.sclk = true) : (s.atTime t).clk.ts = max s.clk.ts t := by
  have h1 : ∀ (y : State) d, (y.addOpTime d).clk.ts = y.clk.ts := by
    intro y d; unfold addOpTime; split <;> rfl
  unfold atTime tick
  by_cases hd : t - s.clk.ts = 0
  · simp only [hd, bne_self_eq_false, Bool.and_false, Bool.false_eq_true, if_false]; omega
  · have e : (t - s.clk.ts != 0) = true := by simpa using hd
    simp only [h, e, Bool.and_self, if_true]
    split <;> simp only [h1, casLaunch_clk] <;> omega

/-! ## The gates that commands pass -/

theorem live_eq (f : State → State) (h : s.acts = true) : s.live f = f s := by unfold live; rw [show (s.alive && !s.isSafe) = true from h]; rfl
theorem up_eq (f : State → State) (h : s.clocked = true) : s.up f = f s := by unfold up; rw [show (s.alive && s.clk.sclk) = true from h]; rfl
@[simp] theorem atTime_acts (t : Nat) : (s.atTime t).acts = s.acts := by simp [acts]
@[simp] theorem atTime_clocked (t : Nat) : (s.atTime t).clocked = s.clocked := by simp [clocked]

theorem onBus_eq (p : Path) (f : State → State) (h : s.reaches p = true) : s.onBus p f = f s := by
  simp only [reaches, Bool.and_eq_true, Bool.or_eq_true] at h
  unfold onBus
  simp only [h.1.1, h.1.2, Bool.not_true, Bool.or_self, Bool.false_eq_true, if_false]
  cases p with
  | spi => rfl
  | pcie =>
    have h2 := h.2
    simp at h2
    simp [h2.1, h2.2]

end State

end Sys2Proof.Machine
end

