-- ==== Sys2Proof/Laws/Writes.lean ====
section
/-! SUPPORT. What a write of a register of Nahar does: one law for the registers without RWS or RWG fields, from which the commands that
write such a register follow. -/
namespace Sys2Proof.Machine

namespace State

variable (s : State)

theorem refire_rest (off : Nat) : (s.refire off).rest = s.rest := by
  have h := (fired_refire s off).unfired
  have k : ∀ x : State, x.unfired.rest = x.rest := fun _ => rfl
  rw [← k, h, k]
@[simp] theorem refire_react (off : Nat) : (s.refire off).react = s.react := (congrArg State.react (fired_refire s off).unfired :)
theorem refire_reg (off a : Nat) (h : fires a = false) : (s.refire off).reg a = s.reg a := (fired_refire s off).reg a h

/-- The registers and the other fields that a register write and the end of its command leave as the write's effect `x` does. -/
theorem written_reg (x : State) (off a : Nat) (h : x.react = []) (ha : settles a = false) (hb : fires a = false) :
    (s.ended (x.refire off)).reg a = x.reg a :=
  (ended_reg s _ (by simpa using h) a ha hb).trans (refire_reg _ _ _ hb)
theorem written_get (x : State) (off a : Nat) (f : Fld) (h : x.react = []) (ha : settles a = false) (hb : fires a = false) :
    (s.ended (x.refire off)).get a f = x.get a f := by simp [get, written_reg s x off a h ha hb]
theorem written_rest (x : State) (off : Nat) (h : x.react = []) : (s.ended (x.refire off)).rest = x.rest :=
  (ended_rest s _ (by simpa using h)).trans (refire_rest _ _)
theorem written_kept (x : State) (off : Nat) (h : x.react = []) (ws : List Nat) (k : ∀ a, a ∉ ws → x.reg a = s.reg a) :
    s.regsKept (s.ended (x.refire off)) ws := fun a ha hb hc => (written_reg s x off a h ha hb).trans (k a hc)

theorem busReason_none {off : Nat} {d : RegD} (h4 : off % 4 = 0) (hp : s.answersAt off = true) (hd : barReg off = some d) :
    s.busReason off 4 = none := by
  unfold answersAt at hp
  unfold busReason
  have : (s.isPark && !answersInPark off) = false := by
    cases h1 : s.isPark <;> cases h2 : answersInPark off <;> simp_all
  simp [h4, this, hd]

theorem refuses_not (owners : List Nat) {a : Acc} (h1 : a ≠ .rws) (h2 : a ≠ .rwg) : s.refuses owners a = false := by
  cases a <;> first | rfl | exact absurd rfl h1 | exact absurd rfl h2

theorem firstRefused_none {d : RegD} {f : Acc → Bool} (h : ∀ x ∈ d.fields, f x.acc = false) : firstRefused d f = none := by
  unfold firstRefused
  have : d.fields.filter (fun x => f x.acc) = [] := by
    rw [List.filter_eq_nil_iff]; intro x hx; simp [h x hx]
  rw [this]; rfl

theorem acceptedBits_all {d : RegD} {f : Acc → Bool} (v : Word) (h : ∀ x ∈ d.fields, f x.acc = false) : acceptedBits d v f = v := by
  unfold acceptedBits
  have : ∀ (l : List FieldD) (w : Word), (∀ x ∈ l, f x.acc = false) → l.foldl (fun w x => if f x.acc then putF w x.fld 0 else w) w = w := by
    intro l
    induction l with
    | nil => intros; rfl
    | cons x l ih => intro w hl; simp only [List.foldl_cons, hl x (by simp), Bool.false_eq_true, if_false]; exact ih w fun y hy => hl y (by simp [hy])
  exact this _ _ h

theorem writeWord_congr {d : RegD} {f : Acc → Bool} (old v : Word) (h : ∀ x ∈ d.fields, f x.acc = false) :
    writeWord d old v f = writeWord d old v (fun _ => false) := by
  unfold writeWord
  have : ∀ (l : List FieldD) (w : Word), (∀ x ∈ l, f x.acc = false) → l.foldl (Machine.writeField v f) w = l.foldl (Machine.writeField v fun _ => false) w := by
    intro l
    induction l with
    | nil => intros; rfl
    | cons x l ih =>
      intro w hl
      have hx : Machine.writeField v f w x = Machine.writeField v (fun _ => false) w x := by
        unfold Machine.writeField; cases hc : x.acc <;> simp_all
      simp only [List.foldl_cons, hx]
      exact ih _ fun y hy => hl y (by simp [hy])
  exact this _ _ h

theorem bv_and_all (w : Word) : w &&& 0xFFFFFFFF#32 = w := BitVec.and_allOnes
theorem bv_or_none (a b : Word) : (a &&& ~~~(0xFFFFFFFF : Word) ||| b) = b := by
  have h : (~~~(0xFFFFFFFF : Word)) = 0 := by decide
  rw [h, show a &&& (0 : Word) = 0 from BitVec.and_zero]
  exact BitVec.zero_or

/-- A write of an ordinary register: refused fields are recorded, the other fields are stored, and the device acts on the accepted bits. -/
theorem write_any {p : Path} {off : Nat} {d : RegD} (val : Word) (h : s.reaches p = true) (hp : s.answersAt off = true)
    (ho : plainOffset off = true) (hd : barReg off = some d) :
    let refused := s.refuses (s.busOwners off)
    let r := s.recordRefused p off (firstRefused d refused)
    s.write p off val = ((if r.effectOnly off then r else
      r.setReg off (s.clampBus off (dropBus off (writeWord d (s.reg off) val refused)))).busEffect p off
        (acceptedBits d val refused) (s.reg off)).refire off := by
  simp only [plainOffset, Bool.and_eq_true, Bool.not_eq_true', beq_iff_eq, decide_eq_false_iff_not] at ho
  obtain ⟨⟨⟨⟨⟨h4, hfx⟩, hl⟩, hh⟩, hln⟩, hdl⟩ := ho
  have hr : s.fieldsAt off = 0xFFFFFFFF := by unfold fieldsAt; rw [if_neg hln]
  simp only
  unfold write
  rw [s.onBus_eq p _ h]
  unfold busWrite
  rw [s.busReason_none h4 hp hd]
  simp only [hfx, hl, hh, Bool.false_eq_true, if_false]
  unfold regWrite
  simp only [hd, hr, hdl, if_false, show ∀ w : Word, w &&& (0xFFFFFFFF : Word) = w from bv_and_all, bv_or_none]

/-- A write of an ordinary register that refuses no field: the word is stored, and the device acts on it. -/
theorem write_accepted {p : Path} {off : Nat} {d : RegD} (val : Word) (h : s.reaches p = true) (hp : s.answersAt off = true)
    (ho : plainOffset off = true) (hd : barReg off = some d) (hf : ∀ x ∈ d.fields, s.refuses (s.busOwners off) x.acc = false) :
    s.write p off val = ((if s.effectOnly off then s else s.setReg off (s.storedWord off d val)).busEffect p off val (s.reg off)).refire off := by
  rw [s.write_any val h hp ho hd]
  simp only [firstRefused_none hf, acceptedBits_all _ hf, writeWord_congr _ _ hf, recordRefused, storedWord]

/-- A register none of whose fields can be refused. -/
theorem write_plain {p : Path} {off : Nat} {d : RegD} (val : Word) (h : s.reaches p = true) (hp : s.answersAt off = true)
    (ho : plainOffset off = true) (hd : barReg off = some d) (hn : neverRefused d = true) :
    s.write p off val = ((if s.effectOnly off then s else s.setReg off (s.storedWord off d val)).busEffect p off val (s.reg off)).refire off := by
  refine s.write_accepted val h hp ho hd fun x hx => ?_
  have := List.all_eq_true.1 hn x hx
  simp only [Bool.and_eq_true, bne_iff_ne, ne_eq] at this
  exact s.refuses_not _ this.1 this.2

/-- The same of a register named by its offset. -/
theorem write_reg {p : Path} {off : Nat} (val : Word) (h : s.reaches p = true) (hp : s.answersAt off = true) (ho : plainReg off = true) :
    s.write p off val = ((if s.effectOnly off then s else s.setReg off (s.stored off val)).busEffect p off val (s.reg off)).refire off := by
  simp only [plainReg, Bool.and_eq_true, Option.any_eq_true] at ho
  obtain ⟨h1, d, hd, hn⟩ := ho
  rw [s.write_plain val h hp h1 hd hn]
  simp only [stored, hd, Option.map_some, Option.getD_some]

end State

/-- What a write does to one field (R6, R10). -/
def fieldWritten (old val : Word) (refused : Acc → Bool) (f : FieldD) : Nat :=
  match f.acc with
  | .ro | .wo => getF old f.fld
  | .w1c => natAndNot (getF old f.fld) (getF val f.fld)
  | .w1s => getF old f.fld ||| getF val f.fld
  | .rw | .rws | .rwg => if refused f.acc then getF old f.fld else getF val f.fld

theorem getF_writeField_same (val w : Word) (refused : Acc → Bool) (f : FieldD) (h : f.fld.lsb + f.fld.width ≤ 32) :
    getF (Machine.writeField val refused w f) f.fld = fieldWritten w val refused f := by
  have hv := getF_lt val f.fld
  have ho := getF_lt w f.fld
  unfold Machine.writeField fieldWritten
  cases f.acc <;> simp only
  case rw | rws | rwg =>
    split
    · rfl
    · rw [getF_putF _ _ _ h, Nat.mod_eq_of_lt hv]
  case w1c => rw [getF_putF _ _ _ h, Nat.mod_eq_of_lt]; unfold natAndNot; omega
  case w1s => rw [getF_putF _ _ _ h, Nat.mod_eq_of_lt (Nat.or_lt_two_pow ho hv)]

theorem getF_writeField_other (val w : Word) (refused : Acc → Bool) (f g : FieldD) (h : f.fld.lsb + f.fld.width ≤ 32)
    (hfg : fieldsApart f.fld g.fld = true) : getF (Machine.writeField val refused w f) g.fld = getF w g.fld := by
  unfold Machine.writeField
  cases f.acc <;> simp only <;> (try split) <;> first | rfl | exact getF_putF_other _ _ _ _ h hfg

/-- Each field of a register takes a write under its own code. -/
theorem getF_writeWord (d : RegD) (old val : Word) (refused : Acc → Bool)
    (hp : d.fields.Pairwise fun f g => f.fld.lsb + f.fld.width ≤ g.fld.lsb ∨ g.fld.lsb + g.fld.width ≤ f.fld.lsb)
    (hb : ∀ f ∈ d.fields, f.fld.lsb + f.fld.width ≤ 32) (f : FieldD) (hf : f ∈ d.fields) :
    getF (writeWord d old val refused) f.fld = fieldWritten old val refused f := by
  unfold writeWord
  have out : ∀ (l : List FieldD) (w : Word) (g : Fld), (∀ x ∈ l, x.fld.lsb + x.fld.width ≤ 32) → (∀ x ∈ l, fieldsApart x.fld g = true) →
      getF (l.foldl (Machine.writeField val refused) w) g = getF w g := by
    intro l
    induction l with
    | nil => intros; rfl
    | cons x l ih =>
      intro w g hb hg
      rw [List.foldl_cons, ih _ _ (fun y hy => hb y (by simp [hy])) (fun y hy => hg y (by simp [hy]))]
      exact getF_writeField_other val w refused x ⟨g, f.acc, 0, false⟩ (hb x (by simp)) (hg x (by simp))
  have main : ∀ (l : List FieldD) (w : Word), l.Pairwise (fun f g => f.fld.lsb + f.fld.width ≤ g.fld.lsb ∨ g.fld.lsb + g.fld.width ≤ f.fld.lsb) →
      (∀ x ∈ l, x.fld.lsb + x.fld.width ≤ 32) → f ∈ l → getF (l.foldl (Machine.writeField val refused) w) f.fld = fieldWritten w val refused f := by
    intro l
    induction l with
    | nil => intro w _ _ h; cases h
    | cons x l ih =>
      intro w hp hb hm
      have hp' := List.pairwise_cons.1 hp
      have apart : ∀ {a b : Fld}, (a.lsb + a.width ≤ b.lsb ∨ b.lsb + b.width ≤ a.lsb) → fieldsApart a b = true := by
        intro a b h; simpa [fieldsApart] using h
      rw [List.foldl_cons]
      rcases List.mem_cons.1 hm with rfl | hm
      · rw [out _ _ _ (fun y hy => hb y (by simp [hy])) (fun y hy => apart ((hp'.1 y hy).symm))]
        exact getF_writeField_same val w refused f (hb f (by simp))
      · rw [ih _ hp'.2 (fun y hy => hb y (by simp [hy])) hm]
        have hk := getF_writeField_other val w refused x f (hb x (by simp)) (apart (hp'.1 f hm))
        unfold fieldWritten
        rw [hk]
  exact main d.fields old hp hb hf

namespace State
variable (s : State)

/-- The registers of a path's access-error log. -/
theorem ael_reg (p : Path) (x : Access) (r : Reason) (a : Nat) (h : a ∉ [aelBase p, aelBase p + 4, aelBase p + 8, aelBase p + 12, aelBase p + 16]) :
    (s.ael p x r).reg a = s.reg a := by
  simp only [List.mem_cons, List.not_mem_nil, or_false, not_or] at h
  unfold ael
  simp only [bump_eq]
  rw [reg_put, if_neg h.1, reg_put, if_neg h.1, reg_setReg_other _ _ _ _ h.2.2.2.2, reg_setReg_other _ _ _ _ h.2.2.2.1]
  split
  · rw [reg_setReg_other _ _ _ _ h.2.2.1, reg_setReg_other _ _ _ _ h.2.1]
  · rfl
theorem ael_event (p : Path) (x : Access) (r : Reason) : (s.ael p x r).get (aelBase p) Fl.PCX_AEL_COUNT_EVENT = 1 := by
  unfold ael; rw [get_put_same _ _ _ _ (by decide)]; rfl
theorem ael_last (p : Path) (x : Access) (r : Reason) : (s.ael p x r).reg (aelBase p + 12) = BitVec.ofNat 32 (x.off % 2 ^ 25) := by
  unfold ael
  rw [reg_put, if_neg (by omega), reg_bump, if_neg (by omega), reg_setReg_other _ _ _ _ (by omega)]
  exact reg_setReg_same _ _ _
theorem ael_unregistered (p : Path) (x : Access) (r : Reason) : (s.ael p x r).unregistered = s.unregistered := by
  unfold ael
  simp only [put_unregistered, bump_unregistered, setReg_unregistered]
  split <;> simp

theorem recordRefused_reg (p : Path) (off a : Nat) (f : Option FieldD) (h : a ∉ [aelBase p, aelBase p + 4, aelBase p + 8, aelBase p + 12, aelBase p + 16]) :
    (s.recordRefused p off f).reg a = s.reg a := by
  unfold recordRefused; split
  · exact ael_reg s p _ _ a h
  · rfl
theorem recordRefused_unregistered (p : Path) (off : Nat) (f : Option FieldD) : (s.recordRefused p off f).unregistered = s.unregistered := by
  cases f with
  | none => rfl
  | some f => exact ael_unregistered s p _ _
theorem effectOnly_congr {x y : State} (hp : y.reg Reg.PWR_STATE = x.reg Reg.PWR_STATE) (hc : y.chart = x.chart) (off : Nat) :
    y.effectOnly off = x.effectOnly off := by
  have e1 : y.isSafe = x.isSafe := by simp only [isSafe, pwState, get, hp]
  have e2 : y.follower = x.follower := by unfold follower chainLength chainPos sec; rw [hc]
  unfold effectOnly; rw [e1, e2]
theorem recordRefused_effectOnly (p : Path) (off : Nat) (f : Option FieldD) (o : Nat) : (s.recordRefused p off f).effectOnly o = s.effectOnly o := by
  refine effectOnly_congr (recordRefused_reg s p off _ f ?_) (congrArg State.chart (recordRefused_unregistered s p off f) :) o
  cases p <;> decide

/-- REGISTER_WRITE of an aligned word of BAR0 is the write of a register. -/
theorem registerWrite_bar0 (p : Path) (off : Nat) (val : BitVec 64) (h : off % 4 = 0) :
    (s.onBus p fun s => s.registerWrite p .bar0 off 4 val) = s.write p off (BitVec.ofNat 32 val.toNat) := by
  cases p
  · show s.onBus .pcie _ = s.onBus .pcie _
    congr 1; funext x
    simp [registerWrite, h]
  · rfl
end State

end Sys2Proof.Machine

/-! ## Paths and reads -/

namespace Sys2Proof.Machine.State
variable (s : State)
@[simp] theorem pathOf_setPath_same (p : Path) (x : PathState) : (s.setPath p x).pathOf p = x := by cases p <;> rfl
theorem pathOf_setPath_other (p q : Path) (x : PathState) (h : q ≠ p) : (s.setPath p x).pathOf q = s.pathOf q := by
  cases p <;> cases q <;> first | rfl | exact absurd rfl h
theorem reg_setPath (p : Path) (x : PathState) (a : Nat) : (s.setPath p x).reg a = s.reg a := by cases p <;> rfl
theorem react_setPath (p : Path) (x : PathState) : (s.setPath p x).react = s.react := by cases p <;> rfl

/-- A read of an assigned register of Nahar. -/
theorem read_eq {p : Path} {off : Nat} (h : s.reaches p = true) (hb : s.busReason off 4 = none) :
    s.read p off = (match s.regRead p off with | (x, some w) => x.readReturns p w | (x, none) => x) := by
  unfold read
  rw [s.onBus_eq p _ h]
  unfold pathRead busRead
  simp only [hb]
  all_goals (split <;> simp_all)
end Sys2Proof.Machine.State
end

