-- ==== Sys2Proof/Laws/Clears.lean ====
section
/-! SUPPORT. Registers that only act: a write of one stores nothing, refuses nothing and fires nothing; what it does is its effect. -/
namespace Sys2Proof.Machine

/-- Every register that holds the bits of some event source. -/
def sourceRegs : List Nat := (List.range 100).flatMap State.srcRegs

theorem srcRegs_none (n : Nat) (h : 100 ≤ n) : State.srcRegs n = [] := by
  unfold State.srcRegs
  repeat (first | rw [if_neg (by omega)] | rfl)

theorem srcRegs_known (n off : Nat) (h : sourceRegs.contains off = false) : (State.srcRegs n).contains off = false := by
  by_cases hn : n < 100
  · cases hc : (State.srcRegs n).contains off with
    | false => rfl
    | true =>
      have : sourceRegs.contains off = true := by
        simp only [List.contains_iff_mem] at hc ⊢
        exact List.mem_flatMap.2 ⟨n, List.mem_range.2 hn, hc⟩
      rw [this] at h; cases h
  · rw [srcRegs_none n (by omega)]; rfl

/-- A write of this offset can leave no source asserted that fires again. -/
def firesNothing (off : Nat) : Bool := !sourceRegs.contains off && !decide (0x400000 ≤ off ∧ off < 0x408000 ∧ off % 0x100 = 0x70)

/-- Writes of the register are stored within no range. -/
def unclamped (off : Nat) : Bool :=
  !([Reg.FCU_THERM, Reg.WDT_TIMEOUT, Reg.ACQ_TID_NEXT, Reg.EVT_VMASK 0, Reg.EVT_VMASK 8, Reg.BIST_CAP, Reg.BIST_BUDGET, Reg.CAS_TRIM,
      Reg.HZ_CTRL, Reg.FCU_INJECT, Reg.CAS_CTRL].contains off) &&
    !decide (0x100000 ≤ off ∧ off < 0x140000 ∧ off % 0x10000 = 8) &&
    !decide (0x200000 ≤ off ∧ off < 0x200800 ∧ [0x08, 0x0C, 0x10, 0x14, 0x18].contains (off % 0x100) = true) &&
    !decide (0x201000 ≤ off ∧ off < 0x201100 ∧ off % 0x40 = 8) &&
    !decide (0x400000 ≤ off ∧ off < 0x408000 ∧ (off % 0x100 = 0x10 ∨ off % 0x100 = 0x6C)) && !decide (0x408000 ≤ off ∧ off < 0x408400)

/-- A register of WO fields only. -/
def actsOnly (off : Nat) : Bool :=
  plainReg off && unclamped off && firesNothing off && (barReg off).any fun d => d.fields.all fun f => f.acc == .wo

namespace State
variable (s : State)

theorem refire_nothing {off : Nat} (h : firesNothing off = true) : s.refire off = s := by
  simp only [firesNothing, Bool.and_eq_true, Bool.not_eq_true', decide_eq_false_iff_not] at h
  unfold refire
  simp only [srcRegs_known _ off h.1, Bool.false_and, Bool.false_eq_true, if_false, if_neg h.2, List.append_nil]
  have : ∀ l : List Nat, l.filterMap (fun _ => (none : Option Nat)) = [] := by intro l; induction l <;> simp_all
  rw [this]; rfl

theorem clampBus_id {off : Nat} (w : Word) (h : unclamped off = true) : s.clampBus off (dropBus off w) = w := by
  simp only [unclamped, Bool.and_eq_true, Bool.not_eq_true', decide_eq_false_iff_not, List.contains_cons, List.contains_nil, Bool.or_eq_false_iff,
    beq_eq_false_iff_ne, ne_eq] at h
  obtain ⟨⟨⟨⟨⟨h0, h1⟩, h2⟩, h3⟩, h4⟩, h5⟩ := h
  obtain ⟨a0, a1, a2, a3, a4, a5, a6, a7, a8, a9, a10, -⟩ := h0
  unfold clampBus dropBus
  rw [if_neg a8, if_neg a9, if_neg a10, if_neg a0, if_neg a1, if_neg h1]
  have hacq : clampAcq (off % 0x100) w = w ∨ ¬(0x200000 ≤ off ∧ off < 0x200800) := by
    by_cases hr : 0x200000 ≤ off ∧ off < 0x200800
    · left
      have : ¬([0x08, 0x0C, 0x10, 0x14, 0x18].contains (off % 0x100) = true) := fun hc => h2 ⟨hr.1, hr.2, hc⟩
      simp only [List.contains_cons, List.contains_nil, Bool.or_eq_true, beq_iff_eq, Bool.false_eq_true, or_false, not_or] at this
      unfold clampAcq
      rw [if_neg this.1, if_neg this.2.1, if_neg this.2.2.1, if_neg this.2.2.2.1, if_neg this.2.2.2.2]
    · exact .inr hr
  split
  · rcases hacq with e | e
    · exact e
    · contradiction
  · rw [if_neg (fun x => h4 ⟨x.1, x.2.1, .inl x.2.2⟩), if_neg (fun x => h4 ⟨x.1, x.2.1, .inr x.2.2⟩)]

theorem writeWord_wo {d : RegD} (h : ∀ f ∈ d.fields, f.acc = .wo) (old val : Word) (g : Acc → Bool) : writeWord d old val g = old := by
  unfold writeWord
  have : ∀ (l : List FieldD), (∀ f ∈ l, f.acc = .wo) → l.foldl (Machine.writeField val g) old = old := by
    intro l
    induction l with
    | nil => intro _; rfl
    | cons x l ih =>
      intro hl
      have : Machine.writeField val g old x = old := by unfold Machine.writeField; rw [hl x (by simp)]
      rw [List.foldl_cons, this]; exact ih fun y hy => hl y (by simp [hy])
  exact this _ h

/-- A write of a register that only acts is its effect, on a state that differs in nothing a register shows. -/
theorem write_acts {p : Path} {off : Nat} (val : Word) (h : s.reaches p = true) (hp : s.answersAt off = true) (ho : actsOnly off = true) :
    ∃ x : State, x.unregistered = s.unregistered ∧ (∀ a, x.reg a = s.reg a) ∧
      s.write p off val = (x.busEffect p off val (s.reg off)).refire off ∧ (x.busEffect p off val (s.reg off)).refire off =
        x.busEffect p off val (s.reg off) := by
  simp only [actsOnly, Bool.and_eq_true, Option.any_eq_true] at ho
  obtain ⟨⟨⟨h1, h2⟩, h3⟩, d, hd, hw⟩ := ho
  have hwo : ∀ f ∈ d.fields, f.acc = .wo := fun f hf => by simpa using List.all_eq_true.1 hw f hf
  have hst : s.stored off val = s.reg off := by
    simp only [stored, hd, Option.map_some, Option.getD_some, storedWord, s.clampBus_id _ h2, writeWord_wo hwo]
  refine ⟨if s.effectOnly off then s else s.setReg off (s.stored off val), ?_, ?_, s.write_reg val h hp h1, refire_nothing _ h3⟩
  · split <;> simp
  · intro a
    split
    · rfl
    · rw [hst]
      by_cases ha : a = off
      · subst ha; simp
      · exact reg_setReg_other _ _ _ _ ha

theorem setReg_reg (a : Nat) : s.setReg a (s.reg a) = s := by
  unfold setReg reg; rw [cellsSet_get]

/-- A write of a register that only acts is its effect. -/
theorem write_effect {p : Path} {off : Nat} (val : Word) (h : s.reaches p = true) (hp : s.answersAt off = true) (ho : actsOnly off = true) :
    s.write p off val = s.busEffect p off val (s.reg off) := by
  simp only [actsOnly, Bool.and_eq_true, Option.any_eq_true] at ho
  obtain ⟨⟨⟨h1, h2⟩, h3⟩, d, hd, hw⟩ := ho
  have hwo : ∀ f ∈ d.fields, f.acc = .wo := fun f hf => by simpa using List.all_eq_true.1 hw f hf
  have hst : s.stored off val = s.reg off := by
    simp only [stored, hd, Option.map_some, Option.getD_some, storedWord, s.clampBus_id _ h2, writeWord_wo hwo]
  rw [s.write_reg val h hp h1, refire_nothing _ h3, hst, setReg_reg]
  split <;> rfl

/-! ## The effect of a write, by block -/

variable (p : Path) {off : Nat} (val w : Word)

theorem busEffect_sys (h : off < 0x10000) : s.busEffect p off val w = s.sysEffect p off val := by
  unfold busEffect; rw [if_pos h]
theorem busEffect_cht (h : 0x10000 ≤ off) (k : off < 0x20000) : s.busEffect p off val w = s.chtEffect p off val := by
  unfold busEffect; rw [if_neg (by omega), if_pos k]
theorem busEffect_fcu (h : 0x20000 ≤ off) (k : off < 0x30000) : s.busEffect p off val w = s.fcuEffect p off val := by
  unfold busEffect; iterate 2 rw [if_neg (by omega)]
  rw [if_pos k]
theorem busEffect_pcx (h : 0x30000 ≤ off) (k : off < 0x40000) : s.busEffect p off val w = s.pcxEffect off val := by
  unfold busEffect; iterate 3 rw [if_neg (by omega)]
  rw [if_pos k]
theorem busEffect_hz (h : 0x40000 ≤ off) (k : off < 0x50000) : s.busEffect p off val w = s.hzEffect off val := by
  unfold busEffect; iterate 4 rw [if_neg (by omega)]
  rw [if_pos k]
theorem busEffect_map (h : 0x408000 ≤ off) (k : off < 0x408400) : s.busEffect p off val w = s.mapEnabled ((off - 0x408000) / 4) w := by
  unfold busEffect; iterate 5 rw [if_neg (by omega)]
  rw [if_pos (by omega), if_pos k]
theorem busEffect_vmask (h : 0x408500 ≤ off) (k : off < 0x408524) : s.busEffect p off val w = s.flushVectors := by
  unfold busEffect; iterate 5 rw [if_neg (by omega)]
  rw [if_pos (by omega), if_neg (by omega), if_pos (by omega)]
theorem busEffect_bist (h : 0x500000 ≤ off) (k : off < 0x600000) : s.busEffect p off val w = s.bistEffect off val := by
  unfold busEffect; iterate 6 rw [if_neg (by omega)]
  rw [if_pos (by omega)]
theorem busEffect_cp (hs : s.isSafe = false) (h : 0x50000 ≤ off) (k : off < 0x180000) : s.busEffect p off val w = s.cpEffect off val := by
  unfold busEffect; iterate 7 rw [if_neg (by omega)]
  rw [hs, if_neg (by decide), if_pos k]
theorem busEffect_ln (hs : s.isSafe = false) (h : 0x180000 ≤ off) (k : off < 0x200000) : s.busEffect p off val w = s.lnEffect off val := by
  unfold busEffect; iterate 7 rw [if_neg (by omega)]
  rw [hs, if_neg (by decide), if_neg (by omega), if_pos k]
theorem busEffect_acq (hs : s.isSafe = false) (h : 0x200000 ≤ off) (k : off < 0x300000) : s.busEffect p off val w = s.acqEffect off val := by
  unfold busEffect; iterate 7 rw [if_neg (by omega)]
  rw [hs, if_neg (by decide), if_neg (by omega), if_neg (by omega), if_pos k]
theorem busEffect_engine (hs : s.isSafe = false) (h : 0x300000 ≤ off) (k : off < 0x400000) :
    s.busEffect p off val w = s.engineEffect off val := by
  unfold busEffect; iterate 7 rw [if_neg (by omega)]
  rw [hs, if_neg (by decide), if_neg (by omega), if_neg (by omega), if_neg (by omega), if_pos k]
theorem busEffect_dlv (hs : s.isSafe = false) (h : 0x400000 ≤ off) (k : off < 0x408000) : s.busEffect p off val w = s.dlvEffect off val := by
  unfold busEffect; iterate 7 rw [if_neg (by omega)]
  rw [hs, if_neg (by decide), if_neg (by omega), if_neg (by omega), if_neg (by omega), if_neg (by omega), if_pos (by omega)]
theorem busEffect_cas (hs : s.isSafe = false) (h : 0x600000 ≤ off) : s.busEffect p off val w = s.casEffect off val := by
  unfold busEffect; iterate 7 rw [if_neg (by omega)]
  rw [hs, if_neg (by decide)]
  iterate 5 rw [if_neg (by omega)]

theorem eff_acq (n : Nat) (hs : s.isSafe = false) (hv : getF val ⟨0, 1⟩ = 1) :
    s.busEffect p (Reg.ACQ_FN_CNT_CLR n) val w = s.acqCntClear (n % 8) := by
  have hn := Nat.mod_lt n (show 8 > 0 by decide)
  unfold Reg.ACQ_FN_CNT_CLR
  rw [busEffect_acq _ _ _ _ hs (by omega) (by omega)]
  unfold acqEffect
  rw [if_neg (by simp [hv]), if_pos (by omega)]
  congr 1; omega

theorem eff_ltg (n : Nat) (hs : s.isSafe = false) (hv : getF val ⟨0, 1⟩ = 1) :
    s.busEffect p (Reg.LTG_P_CNT_CLR n) val w = s.ltgCntClear (n % 4) := by
  have hn := Nat.mod_lt n (show 4 > 0 by decide)
  unfold Reg.LTG_P_CNT_CLR
  rw [busEffect_acq _ _ _ _ hs (by omega) (by omega)]
  unfold acqEffect
  rw [if_neg (by simp [hv]), if_neg (by omega), if_pos (by omega)]
  congr 1; omega

theorem eff_sts (hs : s.isSafe = false) (hv : getF val ⟨0, 1⟩ = 1) :
    s.busEffect p Reg.STS_CNT_CLR val w = s.stsCntClear := by
  rw [busEffect_acq _ _ _ _ hs (by decide) (by decide)]
  unfold acqEffect
  rw [if_neg (by simp [hv]), if_neg (by decide), if_neg (by decide), if_pos rfl]

theorem eff_cp (q : Fin 4) (hs : s.isSafe = false) (hv : getF val ⟨0, 1⟩ = 1) :
    s.busEffect p (Reg.CP_CNT_CLR q) val w = s.cpCntClear q := by
  have hq := q.isLt
  rw [busEffect_cp _ _ _ _ hs (by unfold Reg.CP_CNT_CLR; omega) (by unfold Reg.CP_CNT_CLR; omega)]
  have e : fin4 ((Reg.CP_CNT_CLR q - 0x100000) / 0x10000) = q := by
    apply Fin.ext; simp only [fin4, Reg.CP_CNT_CLR]; omega
  unfold cpEffect
  simp only [e]
  rw [if_neg (by unfold Reg.CP_CNT_CLR Reg.CP_CTRL; omega), if_neg (by unfold Reg.CP_CNT_CLR Reg.CP_HC_CMD; omega), if_pos True.intro, if_pos hv]

theorem eff_engine (u : Fin 2) (hs : s.isSafe = false) (hv : getF val ⟨0, 1⟩ = 1) :
    s.busEffect p (Reg.E_CNT_CLR u) val w = s.engineCntClear u := by
  have hu := u.isLt
  rw [busEffect_engine _ _ _ _ hs (by unfold Reg.E_CNT_CLR; omega) (by unfold Reg.E_CNT_CLR; omega)]
  unfold engineEffect
  rw [if_neg (by unfold Reg.E_CNT_CLR Reg.VRD_HIT_CLR; omega), if_neg (by simp [hv])]
  have h : u = 0 ∨ u = 1 := by omega
  rcases h with rfl | rfl
  · rw [if_pos (by decide)]
  · rw [if_neg (by decide), if_pos (by decide)]
theorem eff_pst (hs : s.isSafe = false) (hv : getF val ⟨0, 1⟩ = 1) : s.busEffect p Reg.PST_CNT_CLR val w = s.pstCntClear := by
  rw [busEffect_engine _ _ _ _ hs (by decide) (by decide)]
  unfold engineEffect
  rw [if_neg (by decide), if_neg (by simp [hv]), if_neg (by decide), if_neg (by decide), if_pos rfl]
theorem eff_vrd (n : Nat) (hs : s.isSafe = false) (hv : getF val ⟨0, 1⟩ = 1) :
    s.busEffect p (Reg.VRD_FN_CNT_CLR n) val w = s.vrdCntClear (n % 8) := by
  have hn := Nat.mod_lt n (show 8 > 0 by decide)
  unfold Reg.VRD_FN_CNT_CLR
  rw [busEffect_engine _ _ _ _ hs (by omega) (by omega)]
  unfold engineEffect
  rw [if_neg (by unfold Reg.VRD_HIT_CLR; omega), if_neg (by simp [hv]), if_neg (by unfold Reg.E_CNT_CLR; omega),
    if_neg (by unfold Reg.E_CNT_CLR; omega), if_neg (by unfold Reg.PST_CNT_CLR; omega), if_pos (by omega)]
  congr 1; omega
theorem eff_vrdHit (hs : s.isSafe = false) : s.busEffect p Reg.VRD_HIT_CLR val w = s.vrdHitClear (getF val Fl.VRD_HIT_CLR_INSTANCE) := by
  rw [busEffect_engine _ _ _ _ hs (by decide) (by decide)]
  unfold engineEffect
  rw [if_pos rfl]
theorem eff_dlvCnt (r : Nat) (hs : s.isSafe = false) (hv : getF val ⟨0, 1⟩ = 1) :
    s.busEffect p (Reg.DLV_CNT_CLR r) val w = s.dlvCntClear (r % 128) := by
  have hr := Nat.mod_lt r (show 128 > 0 by decide)
  unfold Reg.DLV_CNT_CLR
  rw [busEffect_dlv _ _ _ _ hs (by omega) (by omega)]
  unfold dlvEffect
  simp only
  rw [if_neg (by omega), if_neg (by omega), if_pos ⟨by omega, hv⟩]
  congr 1; omega
theorem eff_hzCnt (hv : getF val ⟨0, 1⟩ = 1) : s.busEffect p Reg.HZ_CNT_CLR val w = s.hzCntClear := by
  rw [busEffect_hz _ _ _ _ (by decide) (by decide)]
  unfold hzEffect
  rw [if_neg (by decide), if_pos rfl, if_pos hv]
theorem eff_sspErr (hv : getF val ⟨0, 1⟩ = 1) : s.busEffect p Reg.SSP_ERR_CLR val w = s.sspErrClear := by
  rw [busEffect_pcx _ _ _ _ (by decide) (by decide)]
  unfold pcxEffect
  simp only [hv, beq_self_eq_true, if_true]
  rw [if_neg (by decide), if_neg (by decide), if_neg (by decide)]
theorem eff_ael (q : Path) (hv : getF val ⟨0, 1⟩ = 1) :
    s.busEffect p (match q with | .pcie => Reg.PCX_AEL_CTRL | .spi => Reg.SSP_AEL_CTRL) val w = s.aelClear q := by
  cases q <;>
  · rw [busEffect_pcx _ _ _ _ (by decide) (by decide)]
    unfold pcxEffect
    simp only [hv, beq_self_eq_true, if_true]
    first
      | rw [if_neg (by decide), if_neg (by decide)]
      | rw [if_neg (by decide)]
theorem eff_fcuCnt (hv : getF val ⟨0, 1⟩ = 1) : s.busEffect p Reg.FCU_CNT_CLR val w = s.fcuCntClear := by
  rw [busEffect_fcu _ _ _ _ (by decide) (by decide)]
  unfold fcuEffect
  rw [if_neg (by decide), if_neg (by decide), if_pos rfl, if_pos hv]
theorem eff_casCnt (hs : s.isSafe = false) (hv : getF val ⟨0, 1⟩ = 1) : s.busEffect p Reg.CAS_CNT_CLR val w = s.casCntClear := by
  rw [busEffect_cas _ _ _ _ hs (by decide)]
  unfold casEffect
  rw [if_neg (by decide), if_pos rfl, if_pos hv]

/-- A write of a lane register that only acts. -/
theorem write_laneActs {p : Path} {off : Nat} (val : Word) (h : s.reaches p = true) (hp : s.answersAt off = true)
    (h4 : off % 4 = 0) (hr : 0x180000 ≤ off ∧ off < 0x190000) (hd : (barReg off).any (fun d => d.fields.all fun f => f.acc == .wo) = true)
    (hf : firesNothing off = true) :
    ∃ x : State, x.unregistered = s.unregistered ∧ (∀ a, x.reg a = s.reg a) ∧
      s.write p off val = x.busEffect p off (val &&& s.fieldsAt off) (s.reg off) := by
  simp only [Option.any_eq_true] at hd
  obtain ⟨d, hd, hw⟩ := hd
  have hwo : ∀ f ∈ d.fields, f.acc = .wo := fun f hf => by simpa using List.all_eq_true.1 hw f hf
  have hn : ∀ x ∈ d.fields, s.refuses (s.busOwners off) x.acc = false := fun x hx => by rw [hwo x hx]; rfl
  have hfx : inFx off = false := by simp [inFx, fxBase]; omega
  have hpl : writePairLow off = false := by
    unfold writePairLow
    have h1 : (off == Reg.FCU_STATUS_LO) = false := by simp; unfold Reg.FCU_STATUS_LO; omega
    have h2 : decide (0x400000 ≤ off ∧ off < 0x408000) = false := by simp; omega
    rw [h1, h2]; rfl
  have hph : writePairHigh off = false := by
    unfold writePairHigh writePairLow
    have h1 : (off - 4 == Reg.FCU_STATUS_LO) = false := by simp; unfold Reg.FCU_STATUS_LO; omega
    have h2 : decide (0x400000 ≤ off - 4 ∧ off - 4 < 0x408000) = false := by simp; omega
    rw [h1, h2]; simp
  have hcl : s.clampBus off (dropBus off (s.reg off)) = s.reg off := by
    refine s.clampBus_id _ ?_
    simp only [unclamped, Bool.and_eq_true, Bool.not_eq_true', decide_eq_false_iff_not, List.contains_cons, List.contains_nil,
      Bool.or_eq_false_iff, beq_eq_false_iff_ne, ne_eq, Bool.or_false]
    unfold Reg.FCU_THERM Reg.WDT_TIMEOUT Reg.ACQ_TID_NEXT Reg.EVT_VMASK Reg.BIST_CAP Reg.BIST_BUDGET Reg.CAS_TRIM Reg.HZ_CTRL Reg.FCU_INJECT Reg.CAS_CTRL
    omega
  have he : s.effectOnly off = false := by
    unfold effectOnly
    have h1 : decide (0x580 ≤ off ∧ off < 0x5A4) = false := by simp; omega
    have h2 : (off == Reg.WDT_CTRL) = false := by simp; unfold Reg.WDT_CTRL; omega
    have h3 : (off == Reg.CHT_DATA) = false := by simp; unfold Reg.CHT_DATA; omega
    have h5 : decide (0x400000 ≤ off ∧ off < 0x408000) = false := by simp; omega
    have h6 : (off == Reg.ACQ_TID_NEXT) = false := by simp; unfold Reg.ACQ_TID_NEXT; omega
    rw [h1, h2, h3, h5, h6]; rfl
  let m := s.fieldsAt off
  have hm : (s.reg off &&& ~~~m ||| s.reg off &&& m) = s.reg off := by
    rw [BitVec.or_comm, ← BitVec.and_or_distrib_left, BitVec.or_not_self]; exact BitVec.and_allOnes
  refine ⟨s.setReg off (s.reg off), by simp, fun a => ?_, ?_⟩
  · by_cases ha : a = off
    · subst ha; simp
    · exact reg_setReg_other _ _ _ _ ha
  · unfold write
    rw [s.onBus_eq p _ h]
    unfold busWrite
    rw [s.busReason_none h4 hp hd]
    simp only [hfx, hpl, hph, Bool.false_eq_true, if_false]
    unfold regWrite
    simp only [hd, firstRefused_none hn, acceptedBits_all _ hn, recordRefused, writeWord_wo hwo, hcl, he, Bool.false_eq_true, if_false]
    rw [if_neg (by omega), refire_nothing _ hf]
    congr 2

/-- A command that only acts ends with its effect. -/
theorem acts_finish {off : Nat} {p : Path} {val : Word} (h : s.reaches p = true) (hp : s.isPark = false) (ho : actsOnly off = true)
    {F : State → State} (hF : ∀ x : State, x.isSafe = s.isSafe → x.busEffect p off val (s.reg off) = F x) :
    ∃ x : State, x.unregistered = s.unregistered ∧ (∀ a, x.reg a = s.reg a) ∧ finish s (s.write p off val) = .next (s.ended (F x)) := by
  obtain ⟨x, h1, h2, h3, h4⟩ := s.write_acts val h (by simp [answersAt, hp]) ho
  have hsafe : x.isSafe = s.isSafe := by simp only [isSafe, pwState, get, h2]
  refine ⟨x, h1, h2, ?_⟩
  rw [h3, h4, hF x hsafe]; rfl

theorem foldl_clear_reg (l : List Nat) (a : Nat) : (l.foldl (fun s a => s.setReg a 0) s).reg a = if a ∈ l then 0 else s.reg a := by
  induction l generalizing s with
  | nil => simp
  | cons b l ih =>
    rw [List.foldl_cons, ih]
    by_cases h : a ∈ l
    · simp [h]
    · by_cases hb : a = b
      · subst hb; simp [h]
      · simp [h, hb, reg_setReg_other _ _ _ _ hb]
theorem foldl_clear_unregistered (l : List Nat) : (l.foldl (fun s a => s.setReg a 0) s).unregistered = s.unregistered := by
  induction l generalizing s with
  | nil => rfl
  | cons b l ih => rw [List.foldl_cons, ih]; simp

theorem acts_clear {off : Nat} {p : Path} {val : Word} (h : s.reaches p = true) (hp : s.isPark = false) (ho : actsOnly off = true) (l : List Nat)
    (hF : ∀ x : State, x.isSafe = s.isSafe → x.busEffect p off val (s.reg off) = l.foldl (fun s a => s.setReg a 0) x) :
    ∃ e : State, finish s (s.write p off val) = .next (s.ended e) ∧ (∀ a ∈ l, e.reg a = 0) ∧ s.onlyRegs e l ∧ e.unregistered = s.unregistered := by
  obtain ⟨x, h1, h2, h3⟩ := s.acts_finish h hp ho (F := fun x => l.foldl (fun s a => s.setReg a 0) x) hF
  refine ⟨_, h3, fun a ha => ?_, fun a ha => ?_, ?_⟩
  · rw [foldl_clear_reg, if_pos ha]
  · rw [foldl_clear_reg, if_neg ha, h2]
  · rw [foldl_clear_unregistered, h1]


/-- A write of a register that takes its value only through its effect. -/
theorem write_effectOnly {p : Path} {off : Nat} (val : Word) (h : s.reaches p = true) (hp : s.answersAt off = true) (ho : plainReg off = true)
    (he : s.effectOnly off = true) (hf : firesNothing off = true) : s.write p off val = s.busEffect p off val (s.reg off) := by
  rw [s.write_reg val h hp ho, if_pos he, refire_nothing _ hf]

theorem wdtRestart_unregistered : s.wdtRestart.unregistered =
    { s with wdtCount := 0, wdtTimeout := s.get Reg.WDT_TIMEOUT Fl.WDT_TIMEOUT_MS, wdtWarn := s.get Reg.WDT_WARN Fl.WDT_WARN_MS, wdtWarned := false }.unregistered := by
  unfold wdtRestart; simp only [put_unregistered]
theorem wdtRestart_reg (a : Nat) : s.wdtRestart.reg a = if a = Reg.WDT_STATUS then
    putF (putF (s.reg a) Fl.WDT_STATUS_LATCHED_MS (s.get Reg.WDT_TIMEOUT Fl.WDT_TIMEOUT_MS)) Fl.WDT_STATUS_ARMED 0 else s.reg a := by
  unfold wdtRestart
  simp only [reg_put]
  by_cases h : a = Reg.WDT_STATUS
  · subst h; simp only [if_true]; rfl
  · simp only [h, if_false]; rfl


end State

set_option maxRecDepth 100000 in
theorem acts_acqCntClr : ∀ n : Fin 8, actsOnly (Reg.ACQ_FN_CNT_CLR n) = true := by decide
set_option maxRecDepth 100000 in
theorem acts_ltgCntClr : ∀ n : Fin 4, actsOnly (Reg.LTG_P_CNT_CLR n) = true := by decide
set_option maxRecDepth 100000 in
theorem acts_stsCntClr : actsOnly Reg.STS_CNT_CLR = true := by decide
set_option maxRecDepth 100000 in
theorem acts_cpCntClr : ∀ n : Fin 4, actsOnly (Reg.CP_CNT_CLR n) = true := by decide
set_option maxRecDepth 100000 in
theorem acts_eCntClr : ∀ n : Fin 2, actsOnly (Reg.E_CNT_CLR n) = true := by decide
set_option maxRecDepth 100000 in
theorem acts_pstCntClr : actsOnly Reg.PST_CNT_CLR = true := by decide
set_option maxRecDepth 100000 in
theorem acts_vrdCntClr : ∀ n : Fin 8, actsOnly (Reg.VRD_FN_CNT_CLR n) = true := by decide
set_option maxRecDepth 100000 in
theorem acts_vrdHitClr : actsOnly Reg.VRD_HIT_CLR = true := by decide
set_option maxRecDepth 100000 in
theorem acts_dlvCntClr : ∀ n : Fin 128, actsOnly (Reg.DLV_CNT_CLR n) = true := by decide
set_option maxRecDepth 100000 in
theorem acts_clears : ∀ o ∈ [Reg.HZ_CNT_CLR, Reg.SSP_ERR_CLR, Reg.PCX_AEL_CTRL, Reg.SSP_AEL_CTRL, Reg.FCU_CNT_CLR, Reg.CAS_CNT_CLR, Reg.SYS_RESET_CMD, Reg.FCU_SAFE_CMD,
    Reg.PWR_CMD, Reg.BSP_OP, Reg.CHT_CMD, Reg.PCX_HOSTLOSS_CTRL, Reg.HZ_SER_TX, Reg.HZ_SER_TXW], actsOnly o = true := by decide

end Sys2Proof.Machine
end

