-- ==== Sys2Proof/Laws/Jens.lean ====
section
/-! SUPPORT. What the operations of Jens change: nothing of Nahar, and of Jens what each names. -/
namespace Sys2Proof.Machine.State
variable (s : State)

theorem jbump_eq (a : Nat) (f : Fld) : s.jbump a f = s.jput a f (min (s.jget a f + 1) (2 ^ f.width - 1)) := rfl
theorem jwrap_eq (a : Nat) (f : Fld) (n : Nat) : s.jwrap a f n = s.jput a f (s.jget a f + n) := rfl
theorem jputFlag_eq (a : Nat) (f : Fld) (b : Bool) : s.jputFlag a f b = s.jput a f (ofBool b) := rfl
theorem jsetBit_eq (a : Nat) (f : Fld) (i : Nat) : s.jsetBit a f i = s.jput a f (s.jget a f ||| 2 ^ i) := rfl

@[simp] theorem nahar_setJreg (a : Nat) (v : Word) : (s.setJreg a v).nahar = s.nahar := rfl
@[simp] theorem nahar_jput (a : Nat) (f : Fld) (v : Nat) : (s.jput a f v).nahar = s.nahar := rfl
@[simp] theorem nahar_jbump (a : Nat) (f : Fld) : (s.jbump a f).nahar = s.nahar := rfl
@[simp] theorem nahar_jwrap (a : Nat) (f : Fld) (n : Nat) : (s.jwrap a f n).nahar = s.nahar := rfl
@[simp] theorem nahar_jputFlag (a : Nat) (f : Fld) (b : Bool) : (s.jputFlag a f b).nahar = s.nahar := rfl
@[simp] theorem nahar_jsetBit (a : Nat) (f : Fld) (i : Nat) : (s.jsetBit a f i).nahar = s.nahar := rfl
@[simp] theorem nahar_jclearBit (a : Nat) (f : Fld) (i : Nat) : (s.jclearBit a f i).nahar = s.nahar := by unfold jclearBit; split <;> rfl
@[simp] theorem nahar_modJens (f : Jens → Jens) : (s.modJens f).nahar = s.nahar := rfl
@[simp] theorem nahar_attnBit (i : Nat) : (s.attnBit i).nahar = s.nahar := rfl
@[simp] theorem nahar_setPfi (c : Fin 4) (x : Pfi) : (s.setPfi c x).nahar = s.nahar := rfl
@[simp] theorem nahar_modPfi (c : Fin 4) (f : Pfi → Pfi) : (s.modPfi c f).nahar = s.nahar := rfl
@[simp] theorem nahar_setEmu (c : Fin 2) (x : Emu) : (s.setEmu c x).nahar = s.nahar := rfl
@[simp] theorem nahar_setActive (j : Fin 8) (a : Option Active) : (s.setActive j a).nahar = s.nahar := rfl
@[simp] theorem nahar_setFirings (l : List Firing) : (s.setFirings l).nahar = s.nahar := rfl
@[simp] theorem nahar_setFsp (x : Fsp) : (s.setFsp x).nahar = s.nahar := rfl
@[simp] theorem nahar_setJserRx (l : List Byte) : (s.setJserRx l).nahar = s.nahar := rfl
@[simp] theorem nahar_setJserTx (l : List Byte) : (s.setJserTx l).nahar = s.nahar := rfl
@[simp] theorem nahar_setZl (l : Fin 2) (x : ZlLine) : (s.setZl l x).nahar = s.nahar := rfl
@[simp] theorem nahar_modZl (l : Fin 2) (f : ZlLine → ZlLine) : (s.modZl l f).nahar = s.nahar := rfl
@[simp] theorem nahar_setOutcome (n : Nat) (o : GateOutcome) : (s.setOutcome n o).nahar = s.nahar := rfl
@[simp] theorem nahar_setZlState (l : Fin 2) (v : Nat) : (s.setZlState l v).nahar = s.nahar := rfl
@[simp] theorem nahar_zlSend (l : Fin 2) (a c : Nat) (d : List Nat) : (s.zlSend l a c d).nahar = s.nahar := rfl
@[simp] theorem nahar_setJens (j : Jens) : State.nahar { s with jens := j } = s.nahar := rfl

theorem foldl_nahar {α : Type} (f : State → α → State) (h : ∀ s x, (f s x).nahar = s.nahar) (l : List α) : (l.foldl f s).nahar = s.nahar := by
  induction l generalizing s with
  | nil => rfl
  | cons x l ih => rw [List.foldl_cons, ih, h]

/-! ## Registers of Jens under an update of its own state -/

@[simp] theorem jreg_setActive (j : Fin 8) (a : Option Active) (b : Nat) : (s.setActive j a).jreg b = s.jreg b := rfl
@[simp] theorem jreg_setFirings (l : List Firing) (b : Nat) : (s.setFirings l).jreg b = s.jreg b := rfl
@[simp] theorem jreg_setPfi (c : Fin 4) (x : Pfi) (b : Nat) : (s.setPfi c x).jreg b = s.jreg b := rfl
@[simp] theorem jreg_modPfi (c : Fin 4) (f : Pfi → Pfi) (b : Nat) : (s.modPfi c f).jreg b = s.jreg b := rfl
@[simp] theorem jreg_setEmu (c : Fin 2) (x : Emu) (b : Nat) : (s.setEmu c x).jreg b = s.jreg b := rfl
@[simp] theorem jreg_setFsp (x : Fsp) (b : Nat) : (s.setFsp x).jreg b = s.jreg b := rfl
@[simp] theorem jreg_setJserRx (l : List Byte) (b : Nat) : (s.setJserRx l).jreg b = s.jreg b := rfl
@[simp] theorem jreg_setJserTx (l : List Byte) (b : Nat) : (s.setJserTx l).jreg b = s.jreg b := rfl
@[simp] theorem jreg_modJens (f : Jens → Jens) (b : Nat) : (s.modJens f).jreg b = s.jreg b := rfl
@[simp] theorem jreg_setZl (l : Fin 2) (x : ZlLine) (b : Nat) : (s.setZl l x).jreg b = s.jreg b := rfl
@[simp] theorem jreg_modZl (l : Fin 2) (f : ZlLine → ZlLine) (b : Nat) : (s.modZl l f).jreg b = s.jreg b := rfl
@[simp] theorem jreg_zlSend (l : Fin 2) (a c : Nat) (d : List Nat) (b : Nat) : (s.zlSend l a c d).jreg b = s.jreg b := rfl
@[simp] theorem jreg_setJens (j : Jens) (b : Nat) : State.jreg { s with jens := j } b = s.jreg b := rfl
@[simp] theorem jget_setActive (j : Fin 8) (a : Option Active) (b : Nat) (f' : Fld) : (s.setActive j a).jget b f' = s.jget b f' := rfl
@[simp] theorem jget_setFirings (l : List Firing) (b : Nat) (f' : Fld) : (s.setFirings l).jget b f' = s.jget b f' := rfl
@[simp] theorem jget_setPfi (c : Fin 4) (x : Pfi) (b : Nat) (f' : Fld) : (s.setPfi c x).jget b f' = s.jget b f' := rfl
@[simp] theorem jget_modPfi (c : Fin 4) (f : Pfi → Pfi) (b : Nat) (f' : Fld) : (s.modPfi c f).jget b f' = s.jget b f' := rfl
@[simp] theorem jget_setEmu (c : Fin 2) (x : Emu) (b : Nat) (f' : Fld) : (s.setEmu c x).jget b f' = s.jget b f' := rfl
@[simp] theorem jget_setFsp (x : Fsp) (b : Nat) (f' : Fld) : (s.setFsp x).jget b f' = s.jget b f' := rfl
@[simp] theorem jget_setJserRx (l : List Byte) (b : Nat) (f' : Fld) : (s.setJserRx l).jget b f' = s.jget b f' := rfl
@[simp] theorem jget_setJserTx (l : List Byte) (b : Nat) (f' : Fld) : (s.setJserTx l).jget b f' = s.jget b f' := rfl
@[simp] theorem jget_modJens (f : Jens → Jens) (b : Nat) (f' : Fld) : (s.modJens f).jget b f' = s.jget b f' := rfl
@[simp] theorem jget_setZl (l : Fin 2) (x : ZlLine) (b : Nat) (f' : Fld) : (s.setZl l x).jget b f' = s.jget b f' := rfl
@[simp] theorem jget_modZl (l : Fin 2) (f : ZlLine → ZlLine) (b : Nat) (f' : Fld) : (s.modZl l f).jget b f' = s.jget b f' := rfl
@[simp] theorem jget_zlSend (l : Fin 2) (a c : Nat) (d : List Nat) (b : Nat) (f' : Fld) : (s.zlSend l a c d).jget b f' = s.jget b f' := rfl
@[simp] theorem jget_setJens (j : Jens) (b : Nat) (f' : Fld) : State.jget { s with jens := j } b f' = s.jget b f' := rfl
theorem jreg_attnBit (i b : Nat) (h : b ≠ Reg.MIR_ATTN) : (s.attnBit i).jreg b = s.jreg b := jreg_setJreg_other _ _ _ _ h

/-! ## Jens's own state under a write of its registers -/

@[simp] theorem jens_jput (a : Nat) (f : Fld) (v : Nat) : (s.jput a f v).jens = s.jens := rfl
@[simp] theorem jens_jbump (a : Nat) (f : Fld) : (s.jbump a f).jens = s.jens := rfl
@[simp] theorem jens_jwrap (a : Nat) (f : Fld) (n : Nat) : (s.jwrap a f n).jens = s.jens := rfl
@[simp] theorem jens_jputFlag (a : Nat) (f : Fld) (b : Bool) : (s.jputFlag a f b).jens = s.jens := rfl
@[simp] theorem jens_jsetBit (a : Nat) (f : Fld) (i : Nat) : (s.jsetBit a f i).jens = s.jens := rfl
@[simp] theorem jens_jclearBit (a : Nat) (f : Fld) (i : Nat) : (s.jclearBit a f i).jens = s.jens := by unfold jclearBit; split <;> rfl
@[simp] theorem jens_attnBit (i : Nat) : (s.attnBit i).jens = s.jens := rfl
@[simp] theorem jens_setOutcome (n : Nat) (o : GateOutcome) : (s.setOutcome n o).jens = s.jens := rfl

/-- The attention bit is set. -/
theorem attnBit_set (i : Nat) (h : i < 32) : ((s.attnBit i).jreg Reg.MIR_ATTN).getLsbD i = true := by
  unfold attnBit
  rw [jreg_setJreg_same, BitVec.getLsbD_or, BitVec.getLsbD_ofNat, Nat.testBit_two_pow_self, decide_eq_true h]
  simp only [Bool.and_self, Bool.or_true]

/-! ## A write into the FX window -/

/-- A register whose fields a write only acts through: nothing of it is stored or shadowed. -/
def strobeReg (a : Nat) : Bool := match fieldReg a with
  | some d => d.fields.all fun f => f.acc == .wo
  | none => false

end Sys2Proof.Machine.State
end

