-- ==== Sys2Proof/Laws/Unregistered.lean ====
section
/-! SUPPORT. Two states that differ in registers alone still do so after the same field of both is replaced. -/
namespace Sys2Proof.Machine.State
variable {x y : State} (h : x.unregistered = y.unregistered)
include h

theorem unregistered_fregs (v : List (Nat × Word)) : { x with fregs := v }.unregistered = { y with fregs := v }.unregistered :=
  congrArg (fun u : State => ({ u with fregs := v } : State)) h
theorem unregistered_shadow (v : List (Nat × Word)) : { x with shadow := v }.unregistered = { y with shadow := v }.unregistered :=
  congrArg (fun u : State => ({ u with shadow := v } : State)) h
theorem unregistered_pciePath (v : PathState) : { x with pciePath := v }.unregistered = { y with pciePath := v }.unregistered :=
  congrArg (fun u : State => ({ u with pciePath := v } : State)) h
theorem unregistered_spiPath (v : PathState) : { x with spiPath := v }.unregistered = { y with spiPath := v }.unregistered :=
  congrArg (fun u : State => ({ u with spiPath := v } : State)) h
theorem unregistered_clk (v : Clock) : { x with clk := v }.unregistered = { y with clk := v }.unregistered :=
  congrArg (fun u : State => ({ u with clk := v } : State)) h
theorem unregistered_pw (v : Power) : { x with pw := v }.unregistered = { y with pw := v }.unregistered :=
  congrArg (fun u : State => ({ u with pw := v } : State)) h
theorem unregistered_pcie (v : Pcie) : { x with pcie := v }.unregistered = { y with pcie := v }.unregistered :=
  congrArg (fun u : State => ({ u with pcie := v } : State)) h
theorem unregistered_sent (v : List MsixMsg) : { x with sent := v }.unregistered = { y with sent := v }.unregistered :=
  congrArg (fun u : State => ({ u with sent := v } : State)) h
theorem unregistered_chart (v : Option Chart) : { x with chart := v }.unregistered = { y with chart := v }.unregistered :=
  congrArg (fun u : State => ({ u with chart := v } : State)) h
theorem unregistered_hz (v : HzNahar) : { x with hz := v }.unregistered = { y with hz := v }.unregistered :=
  congrArg (fun u : State => ({ u with hz := v } : State)) h
theorem unregistered_jens (v : Jens) : { x with jens := v }.unregistered = { y with jens := v }.unregistered :=
  congrArg (fun u : State => ({ u with jens := v } : State)) h
theorem unregistered_lanes (v : Vector Lane 16) : { x with lanes := v }.unregistered = { y with lanes := v }.unregistered :=
  congrArg (fun u : State => ({ u with lanes := v } : State)) h
theorem unregistered_ports (v : Vector Port 4) : { x with ports := v }.unregistered = { y with ports := v }.unregistered :=
  congrArg (fun u : State => ({ u with ports := v } : State)) h
theorem unregistered_commit (v : Option CommitRun) : { x with commit := v }.unregistered = { y with commit := v }.unregistered :=
  congrArg (fun u : State => ({ u with commit := v } : State)) h
theorem unregistered_heldPwr (v : Nat) : { x with heldPwr := v }.unregistered = { y with heldPwr := v }.unregistered :=
  congrArg (fun u : State => ({ u with heldPwr := v } : State)) h
theorem unregistered_spi (v : Spi) : { x with spi := v }.unregistered = { y with spi := v }.unregistered :=
  congrArg (fun u : State => ({ u with spi := v } : State)) h
theorem unregistered_bsp (v : Bsp) : { x with bsp := v }.unregistered = { y with bsp := v }.unregistered :=
  congrArg (fun u : State => ({ u with bsp := v } : State)) h
theorem unregistered_bist (v : Bist) : { x with bist := v }.unregistered = { y with bist := v }.unregistered :=
  congrArg (fun u : State => ({ u with bist := v } : State)) h
theorem unregistered_upsets (v : List Upset) : { x with upsets := v }.unregistered = { y with upsets := v }.unregistered :=
  congrArg (fun u : State => ({ u with upsets := v } : State)) h
theorem unregistered_blockResets (v : List (Nat × Nat)) : { x with blockResets := v }.unregistered = { y with blockResets := v }.unregistered :=
  congrArg (fun u : State => ({ u with blockResets := v } : State)) h
theorem unregistered_react (v : List Nat) : { x with react := v }.unregistered = { y with react := v }.unregistered :=
  congrArg (fun u : State => ({ u with react := v } : State)) h
theorem unregistered_wdtCount (v : Nat) : { x with wdtCount := v }.unregistered = { y with wdtCount := v }.unregistered :=
  congrArg (fun u : State => ({ u with wdtCount := v } : State)) h
theorem unregistered_wdtTimeout (v : Nat) : { x with wdtTimeout := v }.unregistered = { y with wdtTimeout := v }.unregistered :=
  congrArg (fun u : State => ({ u with wdtTimeout := v } : State)) h
theorem unregistered_wdtWarn (v : Nat) : { x with wdtWarn := v }.unregistered = { y with wdtWarn := v }.unregistered :=
  congrArg (fun u : State => ({ u with wdtWarn := v } : State)) h
theorem unregistered_wdtWarned (v : Bool) : { x with wdtWarned := v }.unregistered = { y with wdtWarned := v }.unregistered :=
  congrArg (fun u : State => ({ u with wdtWarned := v } : State)) h
theorem unregistered_fns (v : Vector FnRun 8) : { x with fns := v }.unregistered = { y with fns := v }.unregistered :=
  congrArg (fun u : State => ({ u with fns := v } : State)) h
theorem unregistered_transits (v : List Transit) : { x with transits := v }.unregistered = { y with transits := v }.unregistered :=
  congrArg (fun u : State => ({ u with transits := v } : State)) h
theorem unregistered_gone (v : List Transit) : { x with gone := v }.unregistered = { y with gone := v }.unregistered :=
  congrArg (fun u : State => ({ u with gone := v } : State)) h
theorem unregistered_bands (v : List Band) : { x with bands := v }.unregistered = { y with bands := v }.unregistered :=
  congrArg (fun u : State => ({ u with bands := v } : State)) h
theorem unregistered_running (v : Vector (Option Job) 3) : { x with running := v }.unregistered = { y with running := v }.unregistered :=
  congrArg (fun u : State => ({ u with running := v } : State)) h
theorem unregistered_dlv (v : Delivery) : { x with dlv := v }.unregistered = { y with dlv := v }.unregistered :=
  congrArg (fun u : State => ({ u with dlv := v } : State)) h
theorem unregistered_cas (v : Cascade) : { x with cas := v }.unregistered = { y with cas := v }.unregistered :=
  congrArg (fun u : State => ({ u with cas := v } : State)) h
theorem unregistered_hostMem (v : List Host.Cell) : { x with hostMem := v }.unregistered = { y with hostMem := v }.unregistered :=
  congrArg (fun u : State => ({ u with hostMem := v } : State)) h
theorem unregistered_sts (v : Memory) : { x with sts := v }.unregistered = { y with sts := v }.unregistered :=
  congrArg (fun u : State => ({ u with sts := v } : State)) h
theorem unregistered_ws (v : Memory) : { x with ws := v }.unregistered = { y with ws := v }.unregistered :=
  congrArg (fun u : State => ({ u with ws := v } : State)) h
theorem unregistered_cht (v : Memory) : { x with cht := v }.unregistered = { y with cht := v }.unregistered :=
  congrArg (fun u : State => ({ u with cht := v } : State)) h
theorem unregistered_mceLb (v : Memory) : { x with mceLb := v }.unregistered = { y with mceLb := v }.unregistered :=
  congrArg (fun u : State => ({ u with mceLb := v } : State)) h
theorem unregistered_eleLb (v : Memory) : { x with eleLb := v }.unregistered = { y with eleLb := v }.unregistered :=
  congrArg (fun u : State => ({ u with eleLb := v } : State)) h
theorem unregistered_tdr (v : Memory) : { x with tdr := v }.unregistered = { y with tdr := v }.unregistered :=
  congrArg (fun u : State => ({ u with tdr := v } : State)) h
theorem unregistered_freeCtr (v : Nat) : { x with freeCtr := v }.unregistered = { y with freeCtr := v }.unregistered :=
  congrArg (fun u : State => ({ u with freeCtr := v } : State)) h
theorem unregistered_pending (v : List Instr) : { x with pending := v }.unregistered = { y with pending := v }.unregistered :=
  congrArg (fun u : State => ({ u with pending := v } : State)) h

end Sys2Proof.Machine.State
end

