-- ==== Sys2Proof/Laws/Latch.lean ====
section
/-! SUPPORT. What latching a fault source and changing a level source do. -/
namespace Sys2Proof.Machine.State
variable (s : State)

/-- The registers that latching a source may write. -/
def latchRegs : List Nat :=
  [Reg.FCU_FIRST, Reg.FCU_FIRST_TS_LO, Reg.FCU_FIRST_TS_HI, Reg.FCU_STATUS_LO, Reg.FCU_STATUS_HI]

theorem pair_lt (lo hi : Nat) : s.pair lo hi < 2 ^ 64 := by
  unfold pair
  have h1 := (s.reg lo).isLt
  have h2 := (s.reg hi).isLt
  omega

theorem pair_congr {x y : State} {lo hi : Nat} (h1 : y.reg lo = x.reg lo) (h2 : y.reg hi = x.reg hi) : y.pair lo hi = x.pair lo hi := by
  simp only [pair, h1, h2]

theorem latch_reg (i a : Nat) (h : a ∉ latchRegs) : (s.latch i).reg a = s.reg a := by
  simp only [latchRegs, List.mem_cons, List.not_mem_nil, or_false, not_or] at h
  unfold latch
  split
  · rfl
  · simp only
    have e : ∀ (y : State) l, ({ y with react := l } : State).reg a = y.reg a := fun _ _ => rfl
    rw [e, reg_setPair_other _ _ _ _ _ h.2.2.2.1 h.2.2.2.2]
    split
    · rw [reg_setPair_other _ _ _ _ _ h.2.1 h.2.2.1, reg_setReg_other _ _ _ _ h.1]
    · rfl

theorem latch_status (i : Nat) (h : i < 64) : (s.latch i).fcuStatus = s.fcuStatus ||| 2 ^ i := by
  have hb : s.fcuStatus ||| 2 ^ i < 2 ^ 64 :=
    Nat.or_lt_two_pow (pair_lt _ _ _) (Nat.pow_lt_pow_right (by decide) h)
  unfold latch
  split
  · rename_i hl
    apply Nat.eq_of_testBit_eq
    intro j
    rw [Nat.testBit_or, Nat.testBit_two_pow]
    by_cases hj : i = j
    · subst hj; simp only [fcuLatched] at hl; simp [hl]
    · simp [hj]
  · simp only
    have e : ∀ (y : State) l, ({ y with react := l } : State).fcuStatus = y.fcuStatus := fun _ _ => rfl
    rw [e]
    show ((_ : State).setPair _ _ _).pair _ _ = _
    rw [pair_setPair _ _ _ _ (by decide)]
    exact Nat.mod_eq_of_lt hb

theorem latch_latched (i j : Nat) (h : i < 64) : (s.latch i).fcuLatched j = (s.fcuLatched j || decide (i = j)) := by
  unfold fcuLatched; rw [latch_status _ _ h, Nat.testBit_or, Nat.testBit_two_pow]

/-- The registers that a level source may write. -/
def levelRegs (i : Nat) : List Nat := [Reg.FCU_RAW_LO, Reg.FCU_RAW_HI, Reg.FCU_CNT i] ++ latchRegs

theorem raw_congr {x y : State} (h1 : y.reg Reg.FCU_RAW_LO = x.reg Reg.FCU_RAW_LO) (h2 : y.reg Reg.FCU_RAW_HI = x.reg Reg.FCU_RAW_HI) (j : Nat) :
    y.fcuRaw j = x.fcuRaw j := by simp only [fcuRaw, pair, h1, h2]

theorem testBit_sub_two_pow {n i : Nat} (h : n.testBit i = true) (j : Nat) : (n - 2 ^ i).testBit j = (n.testBit j && !decide (i = j)) := by
  have hp : 0 < 2 ^ i := Nat.pow_pos (by decide)
  have hr : n % 2 ^ i < 2 ^ i := Nat.mod_lt _ hp
  have ho : n / 2 ^ i = 2 * (n / 2 ^ i / 2) + 1 := by
    have : (n / 2 ^ i).testBit 0 = true := by rw [Nat.testBit_div_two_pow]; simpa using h
    simp at this; omega
  have e1 : n = 2 ^ i * (2 * (n / 2 ^ i / 2) + 1) + n % 2 ^ i := by
    rw [← ho]; exact (Nat.div_add_mod _ _).symm
  have e2 : n - 2 ^ i = 2 ^ i * (2 * (n / 2 ^ i / 2)) + n % 2 ^ i := by
    rw [Nat.mul_add] at e1; omega
  generalize n / 2 ^ i / 2 = q at e1 e2
  generalize n % 2 ^ i = r at *
  have e3 : n.testBit j = (2 ^ i * (2 * q + 1) + r).testBit j := by rw [← e1]
  rw [e2, e3, Nat.testBit_two_pow_mul_add _ hr, Nat.testBit_two_pow_mul_add _ hr]
  by_cases hj : j < i
  · have : i ≠ j := by omega
    simp [hj, this]
  · rw [if_neg hj, if_neg hj]
    by_cases hk : i = j
    · subst hk; simp
    · have : j - i = (j - i - 1) + 1 := by omega
      rw [this, Nat.testBit_succ, Nat.testBit_succ, show 2 * q / 2 = q by omega, show (2 * q + 1) / 2 = q by omega]
      simp [hk]

theorem level_raw (i : Nat) (on : Bool) (h : i < 18) (j : Nat) : (s.level i on).fcuRaw j = if j = i then on else s.fcuRaw j := by
  have hl : ∀ y : State, (y.latch i).fcuRaw j = y.fcuRaw j := fun y =>
    raw_congr (latch_reg _ _ _ (by decide)) (latch_reg _ _ _ (by decide)) j
  have hc1 : Reg.FCU_RAW_LO ≠ Reg.FCU_CNT i := by unfold Reg.FCU_RAW_LO Reg.FCU_CNT; omega
  have hc2 : Reg.FCU_RAW_HI ≠ Reg.FCU_CNT i := by unfold Reg.FCU_RAW_HI Reg.FCU_CNT; omega
  have hb : ∀ y : State, (y.bump (Reg.FCU_CNT i) Fl.FCU_CNT_COUNT).fcuRaw j = y.fcuRaw j := fun y =>
    raw_congr (by rw [bump_eq, reg_put, if_neg hc1]) (by rw [bump_eq, reg_put, if_neg hc2]) j
  have hp : ∀ v, v < 2 ^ 64 → (s.setPair Reg.FCU_RAW_LO Reg.FCU_RAW_HI v).fcuRaw j = v.testBit j := by
    intro v hv
    unfold fcuRaw; rw [pair_setPair _ _ _ _ (by decide), Nat.mod_eq_of_lt hv]
  have hr : s.fcuRaw j = (s.pair Reg.FCU_RAW_LO Reg.FCU_RAW_HI).testBit j := rfl
  unfold level
  simp only
  have key : (if (on && !(s.pair Reg.FCU_RAW_LO Reg.FCU_RAW_HI).testBit i) = true then
      (if s.alive = true then
        (s.setPair Reg.FCU_RAW_LO Reg.FCU_RAW_HI (s.pair Reg.FCU_RAW_LO Reg.FCU_RAW_HI ||| 2 ^ i)).bump (Reg.FCU_CNT i) Fl.FCU_CNT_COUNT
      else s.setPair Reg.FCU_RAW_LO Reg.FCU_RAW_HI (s.pair Reg.FCU_RAW_LO Reg.FCU_RAW_HI ||| 2 ^ i))
      else if (!on && (s.pair Reg.FCU_RAW_LO Reg.FCU_RAW_HI).testBit i) = true then
        s.setPair Reg.FCU_RAW_LO Reg.FCU_RAW_HI (s.pair Reg.FCU_RAW_LO Reg.FCU_RAW_HI - 2 ^ i)
      else s).fcuRaw j = if j = i then on else s.fcuRaw j := by
    have hlt := s.pair_lt Reg.FCU_RAW_LO Reg.FCU_RAW_HI
    split
    · rename_i hx
      simp only [Bool.and_eq_true, Bool.not_eq_true'] at hx
      have ho : s.pair Reg.FCU_RAW_LO Reg.FCU_RAW_HI ||| 2 ^ i < 2 ^ 64 :=
        Nat.or_lt_two_pow hlt (Nat.pow_lt_pow_right (by decide) (by omega))
      have : (s.setPair Reg.FCU_RAW_LO Reg.FCU_RAW_HI (s.pair Reg.FCU_RAW_LO Reg.FCU_RAW_HI ||| 2 ^ i)).fcuRaw j =
          if j = i then on else s.fcuRaw j := by
        rw [hp _ ho, Nat.testBit_or, Nat.testBit_two_pow, hr]
        by_cases hj : j = i
        · subst hj; simp [hx.1]
        · have : i ≠ j := fun e => hj e.symm
          simp [hj, this]
      split
      · rw [hb]; exact this
      · exact this
    · split
      · rename_i hx
        simp only [Bool.and_eq_true, Bool.not_eq_true'] at hx
        rw [hp _ (Nat.lt_of_le_of_lt (Nat.sub_le _ _) hlt), testBit_sub_two_pow hx.2, hr]
        by_cases hj : j = i
        · subst hj; simp [hx.1]
        · have : i ≠ j := fun e => hj e.symm
          simp [hj, this]
      · rename_i h1 h2
        by_cases hj : j = i
        · subst hj
          rw [if_pos rfl, hr]
          cases on <;> simp_all
        · rw [if_neg hj]
  split
  · rw [hl]; exact key
  · exact key

theorem level_reg (i a : Nat) (on : Bool) (h : a ∉ levelRegs i) : (s.level i on).reg a = s.reg a := by
  simp only [levelRegs, List.mem_append, List.mem_cons, List.not_mem_nil, or_false, not_or] at h
  obtain ⟨⟨h1, h2, h3⟩, h4⟩ := h
  have hl : ∀ y : State, (y.latch i).reg a = y.reg a := fun y => latch_reg _ _ _ h4
  have hb : ∀ y : State, (y.bump (Reg.FCU_CNT i) Fl.FCU_CNT_COUNT).reg a = y.reg a := fun y => by rw [bump_eq, reg_put, if_neg h3]
  have hp : ∀ v, (s.setPair Reg.FCU_RAW_LO Reg.FCU_RAW_HI v).reg a = s.reg a := fun v => reg_setPair_other _ _ _ _ _ h1 h2
  unfold level
  simp only
  split
  · rw [hl]; split
    · split
      · rw [hb, hp]
      · rw [hp]
    · split
      · rw [hp]
      · rfl
  · split
    · split
      · rw [hb, hp]
      · rw [hp]
    · split
      · rw [hp]
      · rfl

theorem level_latched (i : Nat) (h : i < 64) (ha : s.alive = true) : (s.level i true).fcuLatched i = true := by
  unfold level
  simp only [ha, Bool.and_self, if_true]
  rw [latch_latched _ _ _ h]; simp

/-- Nothing but registers and the reactions due changes. -/
def unreacted (s : State) : State := { s with regs := [], react := [] }

theorem setReg_unreacted (a : Nat) (v : Word) : (s.setReg a v).unreacted = s.unreacted := rfl
theorem setPair_unreacted (a b v : Nat) : (s.setPair a b v).unreacted = s.unreacted := by
  unfold setPair; rw [setReg_unreacted, setReg_unreacted]
theorem put_unreacted (a : Nat) (f : Fld) (v : Nat) : (s.put a f v).unreacted = s.unreacted := rfl
theorem bump_unreacted (a : Nat) (f : Fld) : (s.bump a f).unreacted = s.unreacted := put_unreacted _ _ _ _
theorem react_unreacted (l : List Nat) : ({ s with react := l } : State).unreacted = s.unreacted := rfl

theorem latch_unreacted (i : Nat) : (s.latch i).unreacted = s.unreacted := by
  unfold latch
  split
  · rfl
  · simp only
    rw [react_unreacted, setPair_unreacted]
    split
    · rw [setPair_unreacted, setReg_unreacted]
    · rfl
theorem level_unreacted (i : Nat) (on : Bool) : (s.level i on).unreacted = s.unreacted := by
  have key : ∀ y : State, y.unreacted = s.unreacted → (if (on && s.alive) = true then y.latch i else y).unreacted = s.unreacted := by
    intro y hy; split
    · rw [latch_unreacted, hy]
    · exact hy
  unfold level
  refine key _ ?_
  split
  · split
    · rw [bump_unreacted, setPair_unreacted]
    · rw [setPair_unreacted]
  · split
    · rw [setPair_unreacted]
    · rfl
theorem raise_unreacted (i : Nat) : (s.raise i).unreacted = s.unreacted := by
  unfold raise
  split
  · rw [latch_unreacted, bump_unreacted]
  · rfl

theorem raise_reg (i a : Nat) (h : a ∉ Reg.FCU_CNT i :: latchRegs) : (s.raise i).reg a = s.reg a := by
  simp only [List.mem_cons, not_or] at h
  unfold raise
  split
  · rw [latch_reg _ _ _ h.2, bump_eq, reg_put, if_neg h.1]
  · rfl
theorem raise_latched (i : Nat) (ha : s.alive = true) (hi : fcuAssigned.contains i = true) : (s.raise i).fcuLatched i = true := by
  have : i < 64 := by
    have h : ∀ j ∈ fcuAssigned, j < 64 := by decide
    exact h i (by simpa using hi)
  unfold raise
  rw [ha, hi]
  simp only [Bool.and_self, if_true]
  rw [latch_latched _ _ _ this]; simp

end Sys2Proof.Machine.State
end

