-- ==== Sys2Proof/Laws/Reset.lean ====
section
/-! SUPPORT. What a chip reset leaves, and how a command ends before service level 1. -/
namespace Sys2Proof.Machine

theorem keptWord_none {d : RegD} (h : (d.fields.all fun f => !f.kept) = true) (r w : Word) : State.keptWord d r w = r := by
  unfold State.keptWord
  have : ∀ l : List FieldD, (l.all fun f => !f.kept) = true → l.foldl (fun v f => if f.kept then putF v f.fld (getF w f.fld) else v) r = r := by
    intro l
    induction l with
    | nil => intro _; rfl
    | cons x l ih =>
      intro h
      simp only [List.all_cons, Bool.and_eq_true, Bool.not_eq_true'] at h
      rw [List.foldl_cons, h.1]
      simp only [Bool.false_eq_true, if_false]
      exact ih h.2
  exact this _ h

/-- A register without a kept field reads its reset value among the kept registers. -/
theorem keptRegs_get {a : Nat} {d : RegD} (hd : barReg a = some d) (h : (d.fields.all fun f => !f.kept) = true) (l : List (Nat × Word)) :
    cellsGet regReset (State.keptRegs l) a = regReset a := by
  unfold State.keptRegs
  have : ∀ (l m : List (Nat × Word)), cellsGet regReset m a = regReset a → cellsGet regReset (l.foldl (fun m x => match barReg x.1 with
    | some d => cellsSet regReset m x.1 (State.keptWord d (regReset x.1) x.2)
    | none => m) m) a = regReset a := by
    intro l
    induction l with
    | nil => intro m h; exact h
    | cons x l ih =>
      intro m hm
      rw [List.foldl_cons]
      apply ih
      by_cases hx : x.1 = a
      · rw [hx, hd]; simp only; rw [cellsGet_set_same, keptWord_none h]
      · cases hb : barReg x.1 with
        | none => exact hm
        | some d' => exact (cellsGet_set_other _ _ _ _ _ (Ne.symm hx)).trans hm
  exact this l [] rfl

namespace State
variable (s : State)

theorem flashFree_field {α : Type} (g : State → α) (h : ∀ (x : State) b c, g { x with bsp := b, freeCtr := c } = g x) (n : Nat) (x : State) (a : Nat) :
    g (x.flashFree a n) = g x := by
  induction n generalizing x a with
  | zero => rfl
  | succ n ih => exact (ih _ _).trans (h x _ _)

theorem flashAbandon_field {α : Type} (g : State → α) (h : ∀ (x : State) b c, g { x with bsp := b, freeCtr := c } = g x) (x : State) :
    g x.flashAbandon = g x := by
  have h2 : ∀ (y : State) a l, g (y.flashPut a l) = g y := fun y a l => h y _ y.freeCtr
  have hf := fun n y a => flashFree_field g h n y a
  unfold flashAbandon
  simp only
  split
  · split
    · rw [hf]; split
      · split
        · exact hf _ _ _
        · split
          · exact hf _ _ _
          · rfl
      · rfl
    · rw [h2, hf]; split
      · split
        · exact hf _ _ _
        · split
          · exact hf _ _ _
          · rfl
      · rfl
  · rw [hf]; split
    · split
      · exact hf _ _ _
      · split
        · exact hf _ _ _
        · rfl
    · rfl
  · split
    · split
      · exact hf _ _ _
      · split
        · exact hf _ _ _
        · rfl
    · rfl

/-- Before service level 1 a command ends with its effect. -/
theorem settle_dead {e : State} (h : e.alive = false) (hr : e.react = []) : e.settle = e := by
  have : e.runReactions = e := by
    unfold runReactions
    simp only [hr, List.find?_nil, List.foldl_nil]
    rw [← hr]
  unfold settle
  rw [this]
  simp [h]

theorem ended_dead_reg {e : State} (h : e.alive = false) (hr : e.react = []) (a : Nat) (hb : fires a = false) : (s.ended e).reg a = e.reg a := by
  have h2 := (fired_fireRisen s e.settle).reg a hb
  rw [settle_dead h hr] at h2
  show (State.fireRisen s e.settle).reg a = _
  rw [settle_dead h hr]; exact h2

theorem chipReset_eq (c src : Nat) (h1 : s.pw.held = false) (h2 : s.pw.off = false) :
    s.chipReset c src = { (outside s.flashAbandon) with
      regs := cellsSet regReset (keptRegs s.regs) Reg.SYS_RESET_CAUSE (s.resetRecord c src),
      pw := { State.reset.pw with vh := s.pw.vh, held := true, rails := s.pw.rails && !s.flag Reg.CLK_STATUS Fl.CLK_STATUS_BYPASS,
                                  bootStep := 1, vf := s.pw.vf, vfPor := s.pw.vfPor } } := by
  have e1 := flashAbandon_field (·.regs) (fun _ _ _ => rfl) s
  have e2 := flashAbandon_field (·.pw) (fun _ _ _ => rfl) s
  have e3 : s.flashAbandon.flag Reg.CLK_STATUS Fl.CLK_STATUS_BYPASS = s.flag Reg.CLK_STATUS Fl.CLK_STATUS_BYPASS := by
    simp only [flag, get_congr e1]
  have e1 : s.flashAbandon.regs = s.regs := e1
  have e2 : s.flashAbandon.pw = s.pw := e2
  unfold chipReset
  simp only [h1, h2, Bool.or_self, Bool.false_eq_true, if_false, e1, e2, e3]

theorem resetRecord_get (c src : Nat) (hc : c < 128) (hs : src < 64) :
    getF (s.resetRecord c src) Fl.SYS_RESET_CAUSE_CAUSE = c ∧ getF (s.resetRecord c src) Fl.SYS_RESET_CAUSE_FCU_SRC = src ∧
    getF (s.resetRecord c src) Fl.SYS_RESET_CAUSE_COUNT = min 255 (s.get Reg.SYS_RESET_CAUSE Fl.SYS_RESET_CAUSE_COUNT + 1) ∧
    getF (s.resetRecord c src) Fl.SYS_RESET_CAUSE_SAFE_CAUSE = s.pw.safeCause % 8 := by
  unfold resetRecord
  refine ⟨?_, ?_, ?_, ?_⟩
  · rw [getF_putF_other _ _ _ _ (by decide) (by decide), getF_putF_other _ _ _ _ (by decide) (by decide),
      getF_putF_other _ _ _ _ (by decide) (by decide), getF_putF _ _ _ (by decide)]
    exact Nat.mod_eq_of_lt hc
  · rw [getF_putF _ _ _ (by decide)]; exact Nat.mod_eq_of_lt hs
  · rw [getF_putF_other _ _ _ _ (by decide) (by decide), getF_putF _ _ _ (by decide)]
    exact Nat.mod_eq_of_lt (by show _ < 256; omega)
  · rw [getF_putF_other _ _ _ _ (by decide) (by decide), getF_putF_other _ _ _ _ (by decide) (by decide), getF_putF _ _ _ (by decide)]; rfl

/-- A chip reset begins, whatever state `b` its command began in. -/
theorem chipReset_begun (b : State) (c src : Nat) (h1 : s.pw.held = false) (h2 : s.pw.off = false) (hc : c < 128) (hs : src < 64) :
    s.resetBegun (b.ended (s.chipReset c src)) c src := by
  have he := s.chipReset_eq c src h1 h2
  generalize s.chipReset c src = e at he ⊢
  have hd : e.alive = false := by rw [he]; rfl
  have hr : e.react = [] := by rw [he]; rfl
  have hreg : ∀ a, e.reg a = if a = Reg.SYS_RESET_CAUSE then s.resetRecord c src else cellsGet regReset (keptRegs s.regs) a := by
    intro a
    rw [he]
    show cellsGet regReset (cellsSet regReset _ _ _) a = _
    by_cases ha : a = Reg.SYS_RESET_CAUSE
    · rw [ha, if_pos rfl, cellsGet_set_same]
    · rw [if_neg ha, cellsGet_set_other _ _ _ _ _ ha]
  have hg : ∀ f, (b.ended e).get Reg.SYS_RESET_CAUSE f = getF (s.resetRecord c src) f := by
    intro f
    simp only [get]
    rw [ended_dead_reg b hd hr _ (by decide), hreg, if_pos rfl]
  obtain ⟨r1, r2, r3, r4⟩ := s.resetRecord_get c src hc hs
  have hpw := ended_pw b e hr
  have hck := ended_clk b e hr
  refine ⟨⟨?_, ?_, ?_, ?_, ?_⟩, ⟨?_, ?_, ?_, ?_⟩, ?_, ?_, ?_, ?_, ?_, ?_⟩
  · rw [hpw, he]
  · rw [hpw, he]; rfl
  · rw [hpw, he]
  · rw [hck, he]; rfl
  · rw [hck, he]; rfl
  · rw [hg, r1]
  · rw [hg, r2]
  · rw [hg, r3]
  · rw [hg, r4]
  · intro a d had hk ha hf
    rw [ended_dead_reg b hd hr a hf, hreg, if_neg ha, keptRegs_get had hk]
  · rw [ended_chart b e hr, he]; rfl
  · rw [ended_commit b e hr, he]; rfl
  · rw [ended_fregs b e hr, he]; exact flashAbandon_field (·.fregs) (fun _ _ _ => rfl) s
  · rw [ended_jens b e hr, he]; exact flashAbandon_field (·.jens) (fun _ _ _ => rfl) s
  · rw [ended_hostMem b e hr, he]; exact flashAbandon_field (·.hostMem) (fun _ _ _ => rfl) s

end State

end Sys2Proof.Machine
end

