-- ==== Sys2Proof/Laws/Power.lean ====
section
/-! SUPPORT. What the operations on supplies, clocks and power states do. -/
namespace Sys2Proof.Machine.State
variable (s : State)

theorem chartOk_congr {x y : State} (h : y.chart = x.chart) : y.chartOk = x.chartOk := by simp only [chartOk, h]
theorem alive_congr {x y : State} (h : y.pw = x.pw) : y.alive = x.alive := by simp only [alive, h]
theorem isSafe_congr {x y : State} (h : y.reg Reg.PWR_STATE = x.reg Reg.PWR_STATE) : y.isSafe = x.isSafe := by simp only [isSafe, pwState, get, h]

/-- What a register of Nahar reads depends on nothing but the register file. -/
theorem get_of_reg {x y : State} {a : Nat} (f : Fld) (h : y.reg a = x.reg a) : y.get a f = x.get a f := by simp only [get, h]

theorem enterSafe_reg (c a : Nat) (ha : s.alive = true) (hs : s.isSafe = false) :
    (s.enterSafe c).reg a = if a = Reg.PWR_STATE then putF (s.reg Reg.PWR_STATE) Fl.PWR_STATE_STATE 5 else s.reg a := by
  unfold enterSafe
  rw [ha, hs]
  exact reg_put s Reg.PWR_STATE a Fl.PWR_STATE_STATE 5
theorem enterSafe_unregistered (c : Nat) (ha : s.alive = true) (hs : s.isSafe = false) :
    (s.enterSafe c).unregistered = { s with pw := { s.pw with safeCause := c } }.unregistered := by
  unfold enterSafe
  rw [ha, hs]; rfl
theorem enterSafe_isSafe (c : Nat) (ha : s.alive = true) (hs : s.isSafe = false) : (s.enterSafe c).isSafe = true := by
  simp only [isSafe, pwState, get, enterSafe_reg _ _ _ ha hs, if_true]
  rw [getF_putF _ _ _ (by decide)]; rfl

theorem sclkStops_reg (a : Nat) : s.sclkStops.reg a =
    if a = Reg.CLK_STATUS then putF (s.reg Reg.CLK_STATUS) Fl.CLK_STATUS_PLL_LOCK 0 else s.reg a := reg_put _ _ _ _ _
theorem sclkStops_unregistered : s.sclkStops.unregistered = { s with clk := { s.clk with sclk := false } }.unregistered := rfl

theorem step3_reg (a : Nat) : s.step3.reg a = s.reg a := by unfold step3; split <;> rfl
theorem step3_safeCause : s.step3.pw.safeCause = s.pw.safeCause := by unfold step3; split <;> rfl
theorem step3_sclk : s.step3.clk = s.clk := by unfold step3; split <;> rfl

theorem resetBegun_congr {x s t : State} {c k : Nat} (h1 : x.unregistered = s.unregistered) (h2 : ∀ a, x.reg a = s.reg a)
    (h : x.resetBegun t c k) : s.resetBegun t c k := by
  obtain ⟨a, ⟨b1, b2, b3, b4⟩, e, f, g, i, j, l⟩ := h
  have hp : x.pw = s.pw := (State.pw_of_unregistered h1)
  have hf : x.fregs = s.fregs := (State.fregs_of_unregistered h1)
  have hj : x.jens = s.jens := (State.jens_of_unregistered h1)
  have hm : x.hostMem = s.hostMem := (State.hostMem_of_unregistered h1)
  refine ⟨a, ⟨b1, b2, ?_, ?_⟩, e, f, g, ?_, ?_, ?_⟩
  · rw [b3]; simp only [get, h2]
  · rw [b4, hp]
  · rw [i, hf]
  · rw [j, hj]
  · rw [l, hm]

theorem alive_parts (h : s.alive = true) : s.pw.held = false ∧ s.pw.off = false ∧ s.pw.level1 = true := by
  simp only [alive, Bool.and_eq_true, Bool.not_eq_true'] at h
  exact ⟨h.1.2, h.2, h.1.1⟩
theorem reaches_alive {p : Path} (h : s.reaches p = true) : s.alive = true := by
  simp only [reaches, Bool.and_eq_true] at h; exact h.1.1

theorem isSleep_wakes (h : s.isSleep = true) : s.wakes = true ∧ s.isPark = false ∧ s.isSafe = false := by
  simp only [isSleep, beq_iff_eq] at h
  refine ⟨?_, ?_, ?_⟩ <;> simp [wakes, parked, isSleep, isPark, isSafe, h]

/-- A wake source outside PARK marks its cause; the device leaves SLEEP later. -/
theorem wakeBy_marked (mark : State → State) (m : State) (hm : mark s = m) (hw : s.wakes = true) (hp : m.isPark = false) :
    ∃ b, s.wakeBy mark = { m with pw := { m.pw with woken := true, wakeHeld := (m.pw.wakeHeld || m.parkEntry) }, bist := b } := by
  unfold wakeBy
  rw [if_pos hw, hm]
  have h2 : ({ m with pw := { m.pw with woken := true, wakeHeld := (m.pw.wakeHeld || m.parkEntry) } } : State).isPark = false := hp
  simp only
  rw [if_neg (by rw [h2]; decide)]
  split
  · exact ⟨_, rfl⟩
  · exact ⟨m.bist, rfl⟩

/-- A wake source in PARK starts the exit. -/
theorem wakeBy_park (mark : State → State) (m : State) (hm : mark s = m) (hw : s.wakes = true) (hp : m.isPark = true) :
    ∃ n : State, s.wakeBy mark = n.put Reg.PWR_STATE Fl.PWR_STATE_PHASE 2 ∧
      n = { m with pw := { m.pw with woken := true, wakeHeld := (m.pw.wakeHeld || m.parkEntry) } } := by
  unfold wakeBy
  rw [if_pos hw, hm]
  have h2 : ({ m with pw := { m.pw with woken := true, wakeHeld := (m.pw.wakeHeld || m.parkEntry) } } : State).isPark = true := hp
  simp only
  rw [if_pos h2]
  exact ⟨_, rfl, rfl⟩

theorem wdtExpire_sleep (h : s.isSleep = true) : ∃ b, s.wdtExpire.unregistered =
      ({ s with pw := { s.pw with woken := true, wakeHeld := (s.pw.wakeHeld || s.parkEntry) }, wdtCount := 0,
                wdtTimeout := s.get Reg.WDT_TIMEOUT Fl.WDT_TIMEOUT_MS, wdtWarn := s.get Reg.WDT_WARN Fl.WDT_WARN_MS, wdtWarned := false,
                bist := b } : State).unregistered ∧
    (∀ a, s.wdtExpire.reg a = if a = Reg.WDT_STATUS then
      putF (putF (s.reg a) Fl.WDT_STATUS_LATCHED_MS (s.get Reg.WDT_TIMEOUT Fl.WDT_TIMEOUT_MS)) Fl.WDT_STATUS_ARMED 0
      else if a = Reg.WDT_EVENT then putF (s.reg a) Fl.WDT_EVENT_WAKE 1
      else if a = Reg.PWR_WAKE_CAUSE then putF (s.reg a) Fl.PWR_WAKE_CAUSE_WDT 1 else s.reg a) := by
  obtain ⟨h1, h2, h3⟩ := s.isSleep_wakes h
  obtain ⟨m, hmm⟩ : ∃ m, s.put Reg.PWR_WAKE_CAUSE Fl.PWR_WAKE_CAUSE_WDT 1 = m := ⟨_, rfl⟩
  have hu : m.unregistered = s.unregistered := by rw [← hmm]; exact put_unregistered _ _ _ _
  have hm : ∀ a, m.reg a = if a = Reg.PWR_WAKE_CAUSE then putF (s.reg a) Fl.PWR_WAKE_CAUSE_WDT 1 else s.reg a := by
    intro a; rw [← hmm, reg_put]; by_cases ha : a = Reg.PWR_WAKE_CAUSE
    · rw [ha]
    · rw [if_neg ha, if_neg ha]
  have hip : m.isPark = false := by
    simp only [isPark, pwState, get, hm]; rw [if_neg (by decide)]; exact h2
  have hpk : m.parkEntry = s.parkEntry := by simp only [parkEntry, get, hm]; rw [if_neg (by decide)]
  obtain ⟨b, hb⟩ := s.wakeBy_marked (fun s => s.put Reg.PWR_WAKE_CAUSE Fl.PWR_WAKE_CAUSE_WDT 1) m hmm h1 hip
  obtain ⟨z, hzz⟩ : ∃ z, ({ m with pw := { m.pw with woken := true, wakeHeld := (m.pw.wakeHeld || m.parkEntry) }, bist := b } : State) = z := ⟨_, rfl⟩
  have hzu : z.unregistered = ({ s with pw := { s.pw with woken := true, wakeHeld := (s.pw.wakeHeld || s.parkEntry) }, bist := b } : State).unregistered := by
    have hpw : m.pw = s.pw := pw_of_unregistered hu
    rw [← hzz, hpk, hpw]
    have e1 := State.unregistered_pw hu { s.pw with woken := true, wakeHeld := (s.pw.wakeHeld || s.parkEntry) }
    exact State.unregistered_bist e1 b
  have hzr : ∀ a, z.reg a = m.reg a := by intro a; rw [← hzz]; rfl
  rw [hzz] at hb
  have hz : s.wdtExpire = (z.put Reg.WDT_EVENT Fl.WDT_EVENT_WAKE 1).wdtRestart := by
    unfold wdtExpire; rw [if_pos h1, hb]
  rw [hz]
  have hgt : ∀ a f, a ≠ Reg.WDT_EVENT → a ≠ Reg.PWR_WAKE_CAUSE → (z.put Reg.WDT_EVENT Fl.WDT_EVENT_WAKE 1).get a f = s.get a f := by
    intro a f k1 k2; simp only [get, reg_put, if_neg k1, hzr, hm, if_neg k2]
  refine ⟨b, ?_, ?_⟩
  · rw [wdtRestart_unregistered, hgt _ _ (by decide) (by decide), hgt _ _ (by decide) (by decide)]
    have hp2 : (z.put Reg.WDT_EVENT Fl.WDT_EVENT_WAKE 1).unregistered = z.unregistered := put_unregistered _ _ _ _
    rw [hzu] at hp2
    generalize z.put Reg.WDT_EVENT Fl.WDT_EVENT_WAKE 1 = q at hp2
    have e1 := State.unregistered_wdtCount hp2 0
    have e2 := State.unregistered_wdtTimeout e1 (s.get Reg.WDT_TIMEOUT Fl.WDT_TIMEOUT_MS)
    have e3 := State.unregistered_wdtWarn e2 (s.get Reg.WDT_WARN Fl.WDT_WARN_MS)
    exact State.unregistered_wdtWarned e3 false
  · intro a
    rw [wdtRestart_reg, hgt _ _ (by decide) (by decide)]
    by_cases k1 : a = Reg.WDT_STATUS
    · rw [if_pos k1, if_pos k1, reg_put, if_neg (by rw [k1]; decide), hzr, hm, if_neg (by rw [k1]; decide)]
    · rw [if_neg k1, if_neg k1, reg_put]
      by_cases k2 : a = Reg.WDT_EVENT
      · rw [if_pos k2, if_pos k2, hzr, hm, if_neg (by decide), k2]
      · rw [if_neg k2, if_neg k2, hzr, hm]
/-- The watchdog's count advances with the clock while it is enabled (R458). -/
theorem atTime_wdtCount (t : Nat) (h : s.clk.sclk = true) (hw : s.wdtOn = true) : (s.atTime t).wdtCount = s.wdtCount + (t - s.clk.ts) := by
  have h1 : ∀ (y : State) d, (y.addOpTime d).wdtCount = y.wdtCount := by intro y d; unfold addOpTime; split <;> rfl
  have h2 : ∀ (y : State) d, (y.addOpTime d).reg Reg.WDT_CTRL = y.reg Reg.WDT_CTRL := by
    intro y d; unfold addOpTime; split
    · exact (get_put_reg y d)
    · rfl
  have h3 : ∀ n (y : State), (casFrames n y).wdtCount = y.wdtCount := by
    intro n; induction n with
    | zero => intro y; rfl
    | succ n ih => intro y; exact ih _
  have h4 : ∀ (y : State) d, (y.casLaunch d).wdtCount = y.wdtCount := fun y d => casLaunch_field (·.wdtCount) h3 (fun _ _ => rfl) y d
  unfold atTime tick
  by_cases hd : t - s.clk.ts = 0
  · simp only [hd, bne_self_eq_false, Bool.and_false, Bool.false_eq_true, if_false]; rfl
  · have e : (t - s.clk.ts != 0) = true := by simpa using hd
    simp only [h, e, Bool.and_self, if_true]
    have hf : ∀ y : State, y.reg Reg.WDT_CTRL = s.reg Reg.WDT_CTRL → y.flag Reg.WDT_CTRL Fl.WDT_CTRL_ENABLE = true := by
      intro y hy; simp only [flag, get, hy]; exact hw
    have hk : ∀ d e, ((s.casLaunch d).addOpTime e).flag Reg.WDT_CTRL Fl.WDT_CTRL_ENABLE = true := fun d e =>
      hf _ ((h2 _ _).trans (reg_congr (casLaunch_regs _ _) _))
    split
    · show ((s.casLaunch _).addOpTime _).wdtCount + _ = _
      rw [h1, h4]
    · rename_i hn
      exact absurd (hk _ _) hn
where
  get_put_reg (y : State) (d : Nat) : (y.wrapBy Reg.BIST_OPTIME Fl.BIST_OPTIME_SECONDS ((y.clk.opFrac + d) / 500000000)).reg Reg.WDT_CTRL =
      y.reg Reg.WDT_CTRL := by rw [wrapBy_eq, reg_put, if_neg (by decide)]

end Sys2Proof.Machine.State
end

