-- ==== Sys2Proof/Laws/Keeps.lean ====
section
/-! SUPPORT. Operations that leave the registers of a set alone. -/
namespace Sys2Proof.Machine

/-- Every register of the set `P` is as before. -/
def Keeps (P : Nat → Prop) (s t : State) : Prop := ∀ a, P a → t.reg a = s.reg a

namespace Keeps
variable {P : Nat → Prop} {s t u : State}

theorem refl (s : State) : Keeps P s s := fun _ _ => rfl
theorem trans (h : Keeps P s t) (k : Keeps P t u) : Keeps P s u := fun a ha => (k a ha).trans (h a ha)
theorem of_regs (h : t.regs = s.regs) : Keeps P s t := fun a _ => State.reg_congr h a
theorem of_quiet (h : Quiet s t) (k : ∀ a, P a → settles a = false) : Keeps P s t := fun a ha => h.reg a (k a ha)
theorem mono {Q : Nat → Prop} (h : Keeps Q s t) (k : ∀ a, P a → Q a) : Keeps P s t := fun a ha => h a (k a ha)

theorem foldl {α : Type} {f : State → α → State} (l : List α) (h : ∀ s, ∀ x ∈ l, Keeps P s (f s x)) (s : State) : Keeps P s (l.foldl f s) := by
  induction l generalizing s with
  | nil => exact refl s
  | cons x l ih => exact (h s x (by simp)).trans (ih (fun s y hy => h s y (by simp [hy])) _)
theorem ite {c : Prop} [Decidable c] (h : c → Keeps P s t) (k : ¬c → Keeps P s u) : Keeps P s (if c then t else u) := by
  split
  · exact h ‹_›
  · exact k ‹_›

theorem setReg (s : State) (a : Nat) (v : Word) (h : ¬P a) : Keeps P s (s.setReg a v) :=
  fun _ hb => State.reg_setReg_other _ _ _ _ fun e => h (e ▸ hb)
theorem put (s : State) (a : Nat) (f : Fld) (v : Nat) (h : ¬P a) : Keeps P s (s.put a f v) := setReg _ _ _ h
theorem putFlag (s : State) (a : Nat) (f : Fld) (_b : Bool) (h : ¬P a) : Keeps P s (s.putFlag a f _b) := setReg _ _ _ h
theorem bump (s : State) (a : Nat) (f : Fld) (h : ¬P a) : Keeps P s (s.bump a f) := setReg _ _ _ h
theorem bumpBy (s : State) (a : Nat) (f : Fld) (n : Nat) (h : ¬P a) : Keeps P s (s.bumpBy a f n) := setReg _ _ _ h
theorem wrapBy (s : State) (a : Nat) (f : Fld) (n : Nat) (h : ¬P a) : Keeps P s (s.wrapBy a f n) := setReg _ _ _ h
theorem setPair (s : State) (lo hi v : Nat) (h1 : ¬P lo) (h2 : ¬P hi) : Keeps P s (s.setPair lo hi v) :=
  fun _ hb => State.reg_setPair_other _ _ _ _ _ (fun e => h1 (e ▸ hb)) (fun e => h2 (e ▸ hb))
theorem putBit (s : State) (a : Nat) (f : Fld) (i : Nat) (b : Bool) (h : ¬P a) : Keeps P s (s.putBit a f i b) :=
  fun _ hb => State.reg_putBit_other _ _ _ _ _ _ fun e => h (e ▸ hb)
theorem latch (s : State) (i : Nat) (h : ∀ a ∈ State.latchRegs, ¬P a) : Keeps P s (s.latch i) :=
  fun _ hb => State.latch_reg _ _ _ fun hm => h _ hm hb
theorem raise (s : State) (i : Nat) (h : ∀ a ∈ Reg.FCU_CNT i :: State.latchRegs, ¬P a) : Keeps P s (s.raise i) :=
  fun _ hb => State.raise_reg _ _ _ fun hm => h _ hm hb

end Keeps

namespace State
variable (s : State)

/-! ## Lanes off -/

theorem quiet_lanesOff : Quiet s s.lanesOff := Quiet.foldl (fun s x => quiet_laneOff s x) _ _

theorem laneOff_state (x : Fin 16) : (s.laneOff x).laneState x = 0 := by
  unfold laneOff
  simp only
  show getF (State.reg _ _) _ = 0
  show getF (State.reg (State.setReg _ _ _) _) _ = 0
  rw [reg_setReg_same]
  generalize State.reg _ _ = w
  unfold getF
  show (w.toNat &&& 0x1F00) / 2 ^ 0 % 2 ^ 3 = 0
  rw [Nat.pow_zero, Nat.div_one, Nat.and_mod_two_pow]
  exact Nat.and_zero _
theorem laneOff_state_other (x y : Fin 16) (h : y ≠ x) : (s.laneOff x).laneState y = s.laneState y := by
  have hr : Reg.LN_STATE y ≠ Reg.LN_STATE x := by
    unfold Reg.LN_STATE; intro e; apply h; apply Fin.ext; omega
  have ha : Reg.LN_STATE y ≠ Reg.LN_ACQ x := by unfold Reg.LN_STATE Reg.LN_ACQ; omega
  unfold laneOff
  simp only
  show getF (State.reg (State.setReg _ _ _) _) _ = _
  rw [reg_setReg_other _ _ _ _ hr]
  split
  · rw [reg_put, if_neg ha]; rfl
  · rfl
theorem lanesOff_state (x : Fin 16) : s.lanesOff.laneState x = 0 := by
  have : ∀ (l : List (Fin 16)) (s : State), (x ∈ l ∨ s.laneState x = 0) → (l.foldl (fun s x => s.laneOff x) s).laneState x = 0 := by
    intro l
    induction l with
    | nil => intro s h; simpa using h
    | cons y l ih =>
      intro s h
      rw [List.foldl_cons]
      apply ih
      by_cases hy : x = y
      · right; rw [hy]; exact laneOff_state s y
      · rcases h with h | h
        · rcases List.mem_cons.1 h with h | h
          · exact absurd h hy
          · exact .inl h
        · right; rw [laneOff_state_other _ _ _ hy, h]
  exact this _ s (.inl (List.mem_finRange x))

end State
end Sys2Proof.Machine

namespace Sys2Proof.Machine.State
variable (s : State)

/-! ## Self-test -/

/-- The registers of the self-test block. -/
def inBist (a : Nat) : Prop := 0x500000 ≤ a ∧ a < 0x600000

theorem inBist_result (k : Nat) : inBist (Reg.BIST_RESULT k) := by unfold inBist Reg.BIST_RESULT; omega
theorem inBist_rec (k : Nat) : inBist (Reg.BIST_REC k) := by unfold inBist Reg.BIST_REC; omega

variable {P : Nat → Prop}

theorem keeps_sliceResult (k r us seg : Nat) (h : ∀ k, ¬P (Reg.BIST_RESULT k)) : Keeps P s (s.sliceResult k r us seg) := by
  unfold sliceResult
  exact (Keeps.of_regs (t := s.modBist _) rfl).trans (Keeps.setReg _ _ _ (h k))
theorem keeps_sliceUnrun (r k : Nat) (h : ∀ k, ¬P (Reg.BIST_RESULT k)) : Keeps P s (s.sliceUnrun r k) := s.keeps_sliceResult _ _ _ _ h
theorem keeps_leftOut (h : ∀ k, ¬P (Reg.BIST_RESULT k)) : Keeps P s s.leftOut :=
  Keeps.foldl _ (fun s _ _ => s.keeps_sliceUnrun _ _ h) _
theorem keeps_bistLatch (h : ¬P Reg.BIST_STATUS) : Keeps P s s.bistLatch := by
  unfold bistLatch
  exact (Keeps.of_regs (t := s.modBist _) rfl).trans (Keeps.putFlag _ _ _ _ h)
theorem keeps_setPhase (p : Nat) (h : ¬P Reg.BIST_STATUS) : Keeps P s (s.setPhase p) :=
  (Keeps.put s _ _ _ h).trans (Keeps.putFlag _ _ _ _ h)
theorem keeps_bistPower (h : ¬P Reg.BIST_STATUS) : Keeps P s s.bistPower := by
  unfold bistPower
  split
  · exact (Keeps.put s _ _ _ h).trans (Keeps.putFlag _ _ _ _ h)
  · exact Keeps.refl s

/-- Everything but the registers and the controller of the self-test is as before. -/
def untested (s : State) : State := { s with regs := [], bist := State.reset.bist }

theorem untested_setReg (a : Nat) (v : Word) : (s.setReg a v).untested = s.untested := (rfl)
theorem untested_put (a : Nat) (f : Fld) (v : Nat) : (s.put a f v).untested = s.untested := (rfl)
theorem untested_putFlag (a : Nat) (f : Fld) (v : Bool) : (s.putFlag a f v).untested = s.untested := (rfl)
theorem untested_modBist (f : Bist → Bist) : (s.modBist f).untested = s.untested := (rfl)
theorem untested_sliceResult (k r us seg : Nat) : (s.sliceResult k r us seg).untested = s.untested := by
  unfold sliceResult; rw [untested_setReg, untested_modBist]
theorem untested_foldl {α : Type} {f : State → α → State} (h : ∀ s x, (f s x).untested = s.untested) (l : List α) (s : State) :
    (l.foldl f s).untested = s.untested := by
  induction l generalizing s with
  | nil => rfl
  | cons x l ih => rw [List.foldl_cons, ih, h]
theorem untested_leftOut : s.leftOut.untested = s.untested := untested_foldl (fun s _ => untested_sliceResult s _ _ _ _) _ _
theorem untested_bistLatch : s.bistLatch.untested = s.untested := by unfold bistLatch; rw [untested_putFlag, untested_modBist]
theorem untested_setPhase (p : Nat) : (s.setPhase p).untested = s.untested := by unfold setPhase; rw [untested_putFlag, untested_put]
theorem untested_bistPower : s.bistPower.untested = s.untested := by
  unfold bistPower; split
  · rw [untested_putFlag, untested_put]
  · rfl
theorem pw_of_untested {x y : State} (h : y.untested = x.untested) : y.pw = x.pw := (congrArg State.pw h :)
theorem bsp_of_untested {x y : State} (h : y.untested = x.untested) : y.bsp = x.bsp := (congrArg State.bsp h :)

theorem setPhase_phase (p : Nat) (h : p < 4) : (s.setPhase p).bistPhase = p := by
  unfold setPhase bistPhase
  rw [putFlag_eq, get_put_field _ _ _ _ _ (by decide) (by decide), get_put_same _ _ _ _ (by decide)]
  exact Nat.mod_eq_of_lt (by show _ < 2 ^ 2; omega)
theorem bistPower_phase : s.bistPower.bistPhase = s.bistPhase := by
  unfold bistPower; split
  · unfold bistPhase
    rw [putFlag_eq, get_put_field _ _ _ _ _ (by decide) (by decide), get_put_field _ _ _ _ _ (by decide) (by decide)]
  · rfl
theorem bistPower_bist : s.bistPower.bist = s.bist := by unfold bistPower; split <;> rfl

/-- The full test with the bay in service: the queues, and what it leaves alone (R467). -/
theorem fullTestStart_queues (h : s.fenceMap.testBit 45 = false) :
    s.fullTestStart.bistPhase = 1 ∧
    s.fullTestStart.bist.memQ = 45 :: queueOrder (fun k => (s.pair Reg.BIST_UNFIN_LO Reg.BIST_UNFIN_HI).testBit k) (s.unfencedOf (List.range 17)) ∧
    s.fullTestStart.bist.logQ = queueOrder (fun k => (s.pair Reg.BIST_UNFIN_LO Reg.BIST_UNFIN_HI).testBit k)
      (s.unfencedOf ((List.range 28).map (17 + ·) ++ [46, 47])) ∧
    Keeps (fun a => ¬inBist a) s s.fullTestStart ∧ s.fullTestStart.untested = s.untested := by
  have hst : inBist Reg.BIST_STATUS := by unfold inBist; decide
  have hk : ∀ (P : Nat → Prop), ¬P Reg.BIST_STATUS → (∀ k, ¬P (Reg.BIST_RESULT k)) → Keeps P s s.bistLatch.leftOut := fun P a b =>
    (s.keeps_bistLatch a).trans (s.bistLatch.keeps_leftOut b)
  have hu : s.bistLatch.leftOut.untested = s.untested := (untested_leftOut _).trans (untested_bistLatch _)
  obtain ⟨y, hy⟩ : ∃ y, s.bistLatch.leftOut = y := ⟨_, rfl⟩
  rw [hy] at hk hu
  have hf : y.fenceMap = s.fenceMap := pair_congr
    (hk (fun a => a = Reg.BIST_FENCE_LO) (by decide) (fun k => by unfold Reg.BIST_RESULT Reg.BIST_FENCE_LO; omega) _ rfl)
    (hk (fun a => a = Reg.BIST_FENCE_HI) (by decide) (fun k => by unfold Reg.BIST_RESULT Reg.BIST_FENCE_HI; omega) _ rfl)
  have hn : y.pair Reg.BIST_UNFIN_LO Reg.BIST_UNFIN_HI = s.pair Reg.BIST_UNFIN_LO Reg.BIST_UNFIN_HI := pair_congr
    (hk (fun a => a = Reg.BIST_UNFIN_LO) (by decide) (fun k => by unfold Reg.BIST_RESULT Reg.BIST_UNFIN_LO; omega) _ rfl)
    (hk (fun a => a = Reg.BIST_UNFIN_HI) (by decide) (fun k => by unfold Reg.BIST_RESULT Reg.BIST_UNFIN_HI; omega) _ rfl)
  have hl : ∀ l, y.unfencedOf l = s.unfencedOf l := fun l => by unfold unfencedOf; rw [hf]
  have hq : s.fullTestStart = ((((y.modBist fun b => { b with
      memQ := 45 :: queueOrder (fun k => (s.pair Reg.BIST_UNFIN_LO Reg.BIST_UNFIN_HI).testBit k) (s.unfencedOf (List.range 17)),
      logQ := queueOrder (fun k => (s.pair Reg.BIST_UNFIN_LO Reg.BIST_UNFIN_HI).testBit k) (s.unfencedOf ((List.range 28).map (17 + ·) ++ [46, 47])) }).setPhase 1).put
        Reg.BIST_STATUS Fl.BIST_STATUS_REC_INTACT 0).put Reg.BIST_STATUS Fl.BIST_STATUS_DONE 0 |>.put Reg.BIST_STATUS Fl.BIST_STATUS_PEAK_10MW 0).bistPower := by
    unfold fullTestStart
    simp only [hy, hf, h, hn, hl, Bool.false_eq_true, if_false]
  rw [hq]
  obtain ⟨z, hz⟩ : ∃ z, y.modBist (fun b => { b with
      memQ := 45 :: queueOrder (fun k => (s.pair Reg.BIST_UNFIN_LO Reg.BIST_UNFIN_HI).testBit k) (s.unfencedOf (List.range 17)),
      logQ := queueOrder (fun k => (s.pair Reg.BIST_UNFIN_LO Reg.BIST_UNFIN_HI).testBit k) (s.unfencedOf ((List.range 28).map (17 + ·) ++ [46, 47])) }) = z := ⟨_, rfl⟩
  rw [hz]
  refine ⟨?_, ?_, ?_, ?_, ?_⟩
  · rw [bistPower_phase]
    have := setPhase_phase z 1 (by decide)
    unfold bistPhase at this ⊢
    rw [get_put_field _ _ _ _ _ (by decide) (by decide), get_put_field _ _ _ _ _ (by decide) (by decide),
      get_put_field _ _ _ _ _ (by decide) (by decide), this]
  · rw [bistPower_bist, ← hz]; rfl
  · rw [bistPower_bist, ← hz]; rfl
  · have k0 : Keeps (fun a => ¬inBist a) y z := by rw [← hz]; exact Keeps.of_regs rfl
    have k1 := hk (fun a => ¬inBist a) (fun h => h hst) (fun k h => h (inBist_result k))
    exact ((((((k1.trans k0).trans (z.keeps_setPhase 1 fun h => h hst)).trans (Keeps.put _ _ _ _ fun h => h hst)).trans
      (Keeps.put _ _ _ _ fun h => h hst)).trans (Keeps.put _ _ _ _ fun h => h hst)).trans (keeps_bistPower _ fun h => h hst))
  · rw [untested_bistPower, untested_put, untested_put, untested_put, untested_setPhase, ← hz, untested_modBist, hu]

end Sys2Proof.Machine.State

namespace Sys2Proof.Machine.State
variable (s : State) {P : Nat → Prop}

theorem keeps_setRetained (l : List Nat) (h : ∀ k, ¬P (Reg.BIST_REC k)) : Keeps P s (s.setRetained l) :=
  Keeps.foldl _ (fun s w _ => Keeps.setReg s _ _ (h w)) s

theorem keeps_recordToFlash (l : List Nat) : Keeps P s (s.recordToFlash l) := by
  unfold recordToFlash; split
  · exact Keeps.refl s
  · exact Keeps.of_regs rfl

theorem keeps_modBist (f : Bist → Bist) : Keeps P s (s.modBist f) := Keeps.of_regs rfl

/-- A record is written to registers of the self-test alone. -/
theorem keeps_writeRecord (f a : Bool) (h : ∀ a, inBist a → ¬P a) : Keeps P s (s.writeRecord f a) := by
  have b : ∀ r, 0x500000 ≤ r ∧ r < 0x600000 → ¬P r := fun r hr => h r hr
  unfold writeRecord
  obtain ⟨us, hus⟩ : ∃ us, (s.clk.ts - s.bist.start) / 500 = us := ⟨_, rfl⟩
  obtain ⟨l, hl⟩ : ∃ l, s.recordBytes f a us = l := ⟨_, rfl⟩
  rw [hus]; dsimp only; rw [hl]
  obtain ⟨x, hx⟩ : ∃ x, (s.setRetained l).put Reg.BIST_STATUS Fl.BIST_STATUS_REC_INTACT 1 = x := ⟨_, rfl⟩
  have k1 : Keeps P s x := hx ▸ (s.keeps_setRetained _ fun k => h _ (inBist_rec k)).trans (Keeps.put _ _ _ _ (b _ (by decide)))
  rw [hx]
  obtain ⟨y, hy⟩ : ∃ y, (x.setPair Reg.BIST_UNFIN_LO Reg.BIST_UNFIN_HI (unfinished x.bist.results)).setReg Reg.BIST_LAST_US
    (BitVec.ofNat 32 (min us (2 ^ 32 - 1))) = y := ⟨_, rfl⟩
  have k2 : Keeps P x y := hy ▸ (Keeps.setPair _ _ _ _ (b _ (by decide)) (b _ (by decide))).trans (Keeps.setReg _ _ _ (b _ (by decide)))
  rw [hy]
  obtain ⟨z, hz⟩ : ∃ z, ({ y.setReg Reg.BIST_OPTIME 0 with clk := { y.clk with opFrac := 0 } } : State) = z := ⟨_, rfl⟩
  have k3 : Keeps P y z := (Keeps.setReg y Reg.BIST_OPTIME 0 (b _ (by decide))).trans (Keeps.of_regs (by rw [← hz]))
  rw [hz]
  exact (((k1.trans k2).trans k3).trans ((z.keeps_modBist _).trans (Keeps.put _ _ _ _ (b _ (by decide))))).trans (keeps_recordToFlash _ _)

theorem keeps_abortRuns (h : ∀ a, inBist a → ¬P a) : Keeps P s s.abortRuns := by
  have b : ∀ r, 0x500000 ≤ r ∧ r < 0x600000 → ¬P r := fun r hr => h r hr
  have br : ∀ k, ¬P (Reg.BIST_RESULT k) := fun k => h _ (inBist_result k)
  unfold abortRuns
  simp only
  refine Keeps.trans ?_ (Keeps.of_regs rfl)
  refine Keeps.trans ?_ (Keeps.foldl _ (fun s k _ => s.keeps_sliceUnrun _ _ br) _)
  refine Keeps.foldl _ (fun s r _ => ?_) _
  refine Keeps.trans ?_ (Keeps.put _ _ _ _ (b _ (by decide)))
  exact (Keeps.of_regs (t := s.modBist _) rfl).trans (keeps_sliceResult _ _ _ _ _ br)

theorem flashPut_regs (a : Nat) (l : List Byte) : (s.flashPut a l).regs = s.regs := rfl

theorem keeps_recordDone (h : ¬P Reg.BSP_STATUS) : Keeps P s s.recordDone := by
  unfold recordDone
  refine Keeps.trans ?_ (Keeps.of_regs rfl)
  split
  · simp only
    refine Keeps.trans ?_ (Keeps.put _ _ _ _ h)
    refine Keeps.trans ?_ (Keeps.put _ _ _ _ h)
    refine Keeps.of_regs ?_
    rw [flashPut_regs, flashPut_regs]; split
    · rw [flashPut_regs]
    · rfl
  · exact (Keeps.of_regs (flashPut_regs s _ _)).trans (Keeps.put _ _ _ _ h)
  · exact Keeps.refl s

theorem flashAbandon_regs : s.flashAbandon.regs = s.regs := flashAbandon_field (·.regs) (fun _ _ _ => rfl) s

theorem keeps_recordFailed (h : ¬P Reg.BSP_STATUS) : Keeps P s s.recordFailed := by
  unfold recordFailed
  refine Keeps.trans (Keeps.trans ?_ (Keeps.put _ _ _ _ h)) (Keeps.of_regs rfl)
  exact Keeps.of_regs (flashAbandon_regs _)

theorem keeps_atTime (t : Nat) (h : ¬P Reg.BIST_OPTIME) : Keeps P s (s.atTime t) :=
  fun a ha => s.atTime_reg t a fun e => h (e ▸ ha)

/-! ## Fences -/

theorem fenceMap_congr {x y : State} (h1 : y.reg Reg.BIST_FENCE_LO = x.reg Reg.BIST_FENCE_LO) (h2 : y.reg Reg.BIST_FENCE_HI = x.reg Reg.BIST_FENCE_HI) :
    y.fenceMap = x.fenceMap := pair_congr h1 h2

theorem setFences_map (m : Nat) (h : m < 2 ^ 64) : (s.setFences m).fenceMap = m := by
  unfold setFences
  split
  · assumption
  · have : ∀ y : State, (y.bistEvent Fl.BIST_EVENT_FENCE_CHG).fenceMap = y.fenceMap := fun y =>
      fenceMap_congr ((reg_put y _ _ _ _).trans (if_neg (by decide))) ((reg_put y _ _ _ _).trans (if_neg (by decide)))
    rw [this]
    exact (pair_setPair s _ _ _ (by decide)).trans (Nat.mod_eq_of_lt h)

theorem fence_map (k : Nat) (h : k < 64) : (s.fence k).fenceMap = s.fenceMap ||| 2 ^ k := by
  have hb : s.fenceMap ||| 2 ^ k < 2 ^ 64 := Nat.or_lt_two_pow (pair_lt _ _ _) (Nat.pow_lt_pow_right (by decide) h)
  unfold fence
  split
  · rename_i hl
    apply Nat.eq_of_testBit_eq
    intro j
    rw [Nat.testBit_or, Nat.testBit_two_pow]
    by_cases hj : k = j
    · subst hj; simp [hl]
    · simp [hj]
  · have : ∀ y : State, (y.bistEvent Fl.BIST_EVENT_FAIL).fenceMap = y.fenceMap := fun y =>
      fenceMap_congr ((reg_put y _ _ _ _).trans (if_neg (by decide))) ((reg_put y _ _ _ _).trans (if_neg (by decide)))
    rw [this, setFences_map _ _ hb]
theorem keeps_fence (k : Nat) (h : ∀ a, inBist a → ¬P a) : Keeps P s (s.fence k) := by
  have b : ∀ r, 0x500000 ≤ r ∧ r < 0x600000 → ¬P r := fun r hr => h r hr
  unfold fence
  split
  · exact Keeps.refl s
  · refine Keeps.trans ?_ (Keeps.put _ _ _ _ (b _ (by decide)))
    unfold setFences; split
    · exact Keeps.refl s
    · exact (Keeps.setPair s _ _ _ (b _ (by decide)) (b _ (by decide))).trans (Keeps.put _ _ _ _ (b _ (by decide)))
theorem fence_untested (k : Nat) : (s.fence k).untested = s.untested := by
  unfold fence bistEvent setFences bistEvent setPair
  split
  · rfl
  · rw [untested_put]; split
    · rfl
    · rw [untested_put, untested_setReg, untested_setReg]

/-! ## Cascade link-up -/

theorem keeps_modCas (f : Cascade → Cascade) : Keeps P s (s.modCas f) := Keeps.of_regs rfl
theorem keeps_setCasState (v : Nat) (h : ¬P Reg.CAS_STATUS) : Keeps P s (s.setCasState v) := Keeps.put _ _ _ _ h
theorem keeps_casOff (h : ¬P Reg.CAS_STATUS) : Keeps P s s.casOff := by
  unfold casOff
  exact Keeps.trans ((Keeps.put s _ _ _ h).trans (Keeps.put _ _ _ _ h)) (Keeps.of_regs rfl)
theorem keeps_casStart (h : ¬P Reg.CAS_STATUS) : Keeps P s s.casStart := by
  unfold casStart
  split
  · exact Keeps.refl s
  · simp only
    refine Keeps.trans ?_ (keeps_modCas _ _)
    refine Keeps.trans ?_ (keeps_modCas _ _)
    refine Keeps.trans ?_ (Keeps.put _ _ _ _ h)
    exact (s.keeps_casOff h).trans (keeps_setCasState _ _ h)
/-- Everything but registers and the cascade port is as before. -/
def uncascaded (s : State) : State := { s with regs := [], cas := casReset }
theorem uncascaded_put (a : Nat) (f : Fld) (v : Nat) : (s.put a f v).uncascaded = s.uncascaded := (rfl)
theorem uncascaded_modCas (f : Cascade → Cascade) : (s.modCas f).uncascaded = s.uncascaded := (rfl)
theorem casOff_uncascaded : s.casOff.uncascaded = s.uncascaded := by
  unfold casOff setCasState; simp only; rw [uncascaded_modCas, uncascaded_put, uncascaded_put]
theorem casStart_uncascaded : s.casStart.uncascaded = s.uncascaded := by
  unfold casStart
  split
  · rfl
  · unfold setCasState modCasLane; simp only
    rw [uncascaded_modCas, uncascaded_modCas, uncascaded_put, uncascaded_put, casOff_uncascaded]

end Sys2Proof.Machine.State
end

