-- ==== Sys2Proof/Laws/Level.lean ====
section
/-! SUPPORT. What the service level rests on, and that the end of every command shows it. -/
namespace Sys2Proof.Machine.State

/-- What the service level rests on (R29). -/
theorem levelNow_congr {x y : State} (hc : y.chart = x.chart) (hp : ∀ p : Fin 4, y.reg (Reg.CP_STATE p) = x.reg (Reg.CP_STATE p))
    (hl : y.reg Reg.BIST_FENCE_LO = x.reg Reg.BIST_FENCE_LO) (hh : y.reg Reg.BIST_FENCE_HI = x.reg Reg.BIST_FENCE_HI)
    (hs : y.reg Reg.CAS_STATUS = x.reg Reg.CAS_STATUS)
    (h1 : y.get Reg.SYS_SVC Fl.SYS_SVC_HZ_OK = x.get Reg.SYS_SVC Fl.SYS_SVC_HZ_OK)
    (h2 : y.get Reg.SYS_SVC Fl.SYS_SVC_JENS_OK = x.get Reg.SYS_SVC Fl.SYS_SVC_JENS_OK) : y.levelNow = x.levelNow := by
  have e1 : y.anyPort = x.anyPort := by
    unfold anyPort inService portState get
    simp only [hp]
  have e2 : y.stsOk = x.stsOk := by unfold stsOk fenceMap pair; rw [hl, hh]
  have e3 : y.follower = x.follower := by unfold follower chainLength chainPos sec; rw [hc]
  have e4 : y.casUp = x.casUp := by unfold casUp casState get; rw [hs]
  have e5 : y.chartOk = x.chartOk := by unfold chartOk; rw [hc]
  have e6 : y.flag Reg.SYS_SVC Fl.SYS_SVC_HZ_OK = x.flag Reg.SYS_SVC Fl.SYS_SVC_HZ_OK := by unfold flag; rw [h1]
  have e7 : y.flag Reg.SYS_SVC Fl.SYS_SVC_JENS_OK = x.flag Reg.SYS_SVC Fl.SYS_SVC_JENS_OK := by unfold flag; rw [h2]
  unfold levelNow levelWith
  simp only [e1, e2, e3, e4, e5, e6, e7]

theorem levelNow_lt (x : State) : x.levelNow < 4 := by unfold levelNow levelWith; split <;> (try split) <;> omega

theorem cpState_above (p : Fin 4) : 0x100000 ≤ Reg.CP_STATE p ∧ Reg.CP_STATE p < 0x140000 := by unfold Reg.CP_STATE; omega

theorem serviceUpdate_level (x : State) : x.serviceUpdate.get Reg.SYS_SVC Fl.SYS_SVC_LEVEL = x.serviceUpdate.levelNow := by
  unfold serviceUpdate
  simp only
  generalize ((x.putFlag Reg.SYS_SVC Fl.SYS_SVC_CHART_OK x.chartOk).putFlag Reg.SYS_SVC Fl.SYS_SVC_PORT_OK _).putFlag Reg.SYS_SVC Fl.SYS_SVC_STS_OK _ = y
  have h3 := levelNow_lt y
  have hr : ∀ a, a ≠ Reg.SYS_SVC → (y.put Reg.SYS_SVC Fl.SYS_SVC_LEVEL y.levelNow).reg a = y.reg a := fun a ha => by rw [reg_put]; simp [ha]
  rw [get_put_same _ _ _ _ (by decide), levelNow_congr (y := y.put Reg.SYS_SVC Fl.SYS_SVC_LEVEL y.levelNow) (x := y) rfl ?_ ?_ ?_ ?_ ?_ ?_]
  · exact Nat.mod_eq_of_lt (by simpa using h3)
  · intro p; have := cpState_above p; exact hr _ (by intro h; rw [h] at this; exact absurd this (by decide))
  · exact hr _ (by decide)
  · exact hr _ (by decide)
  · exact hr _ (by decide)
  · exact get_put_field _ _ _ _ _ (by decide) (by decide)
  · exact get_put_field _ _ _ _ _ (by decide) (by decide)

theorem levelShown_serviceUpdate (x : State) : x.serviceUpdate.levelShown = true := by
  simp [levelShown, serviceUpdate_level]

theorem levelShown_settle (x : State) : x.settle.levelShown = true := by
  unfold settle
  simp only
  split
  · next h => simp_all [levelShown]
  · split <;> exact levelShown_serviceUpdate _

theorem levelShown_congr {x y : State} (hc : y.chart = x.chart) (hp : y.pw = x.pw) (h : ∀ a, fires a = false → y.reg a = x.reg a)
    (hx : x.levelShown = true) : y.levelShown = true := by
  have e1 : y.levelNow = x.levelNow := by
    refine levelNow_congr hc (fun p => h _ ?_) (h _ (by decide)) (h _ (by decide)) (h _ (by decide)) ?_ ?_
    · have := cpState_above p
      simp only [fires, decide_eq_false_iff_not]; omega
    · simp [get, h Reg.SYS_SVC (by decide)]
    · simp [get, h Reg.SYS_SVC (by decide)]
  have e2 : y.alive = x.alive := by simp [alive, hp]
  have e3 : y.get Reg.SYS_SVC Fl.SYS_SVC_LEVEL = x.get Reg.SYS_SVC Fl.SYS_SVC_LEVEL := by simp [get, h Reg.SYS_SVC (by decide)]
  simpa [levelShown, e1, e2, e3] using hx

theorem levelShown_ended (s e : State) : (s.ended e).levelShown = true := by
  have hf := fired_fireRisen s e.settle
  have hu : ∀ x : State, x.unfired.chart = x.chart ∧ x.unfired.pw = x.pw := fun _ => ⟨rfl, rfl⟩
  refine levelShown_congr (x := e.settle) ?_ ?_ hf.reg (levelShown_settle e)
  · show (State.fireRisen s e.settle).chart = _
    rw [← (hu _).1, hf.unfired, (hu _).1]
  · show (State.fireRisen s e.settle).pw = _
    rw [← (hu _).2, hf.unfired, (hu _).2]

theorem clearVpend_reg (x : State) (a : Nat) (h : fires a = false) : x.clearVpend.reg a = x.reg a := by
  unfold clearVpend
  have hk : ∀ (l : List Nat) (y : State), (l.foldl (fun s k => s.setReg (Reg.EVT_VPEND k) 0) y).reg a = y.reg a := by
    intro l
    induction l with
    | nil => intro y; rfl
    | cons k l ih =>
      intro y
      rw [List.foldl_cons, ih, reg_setReg_other]
      intro he
      rw [he] at h
      simp only [fires, decide_eq_false_iff_not] at h
      unfold Reg.EVT_VPEND at h; omega
  exact hk _ _
theorem clearVpend_unregistered (x : State) : x.clearVpend.unregistered = x.unregistered := by
  unfold clearVpend
  have hk : ∀ (l : List Nat) (y : State), (l.foldl (fun s k => s.setReg (Reg.EVT_VPEND k) 0) y).unregistered = y.unregistered := by
    intro l
    induction l with
    | nil => intro y; rfl
    | cons k l ih => intro y; rw [List.foldl_cons, ih]; rfl
  exact hk _ _

theorem clearVpend_levelShown (x : State) (h : x.levelShown = true) : x.clearVpend.levelShown = true := by
  have hu := clearVpend_unregistered x
  generalize hy : x.clearVpend = y at hu ⊢
  have hr : ∀ a, fires a = false → y.reg a = x.reg a := fun a ha => by rw [← hy]; exact clearVpend_reg x a ha
  have h1 : y.chart = x.chart := (congrArg State.chart hu :)
  have h2 : y.pw = x.pw := (congrArg State.pw hu :)
  exact levelShown_congr h1 h2 hr h

theorem levelShown_endedLoss (s e : State) (l : Bool) : (s.endedLoss e l).levelShown = true := by
  unfold endedLoss
  split
  · have h := clearVpend_levelShown _ (levelShown_settle e)
    generalize e.settle.clearVpend = y at h ⊢
    exact h
  · exact levelShown_ended s e

theorem finish_shown (s e : State) : ∃ t, finish s e = .next t ∧ t.levelShown = true ∧ t.calm = true := ⟨_, rfl, levelShown_ended s e, rfl⟩
theorem finishLoss_shown (s e : State) (l : Bool) : ∃ t, finishLoss s e l = .next t ∧ t.levelShown = true ∧ t.calm = true := by
  have hc : (s.endedLoss e l).calm = true := by unfold endedLoss; split <;> rfl
  exact ⟨_, rfl, levelShown_endedLoss s e l, hc⟩
end Sys2Proof.Machine.State
end

