-- ==== Sys2Proof/Laws/Link.lean ====
section
/-! SUPPORT. What the operations of the Horizon link change on Nahar, and that those of Jens leave Nahar's registers alone. -/
namespace Sys2Proof.Machine.State
variable (s : State)

theorem put_hz' (a : Nat) (f : Fld) (v : Nat) : (s.put a f v).hz = s.hz := rfl
theorem readReturns_hz (p : Path) (w : Word) : (s.readReturns p w).hz = s.hz := by cases p <;> rfl
theorem readReturns_regs (p : Path) (w : Word) : (s.readReturns p w).regs = s.regs := by cases p <;> rfl
theorem modHz_reg (f : HzNahar → HzNahar) (a : Nat) : (s.modHz f).reg a = s.reg a := rfl

theorem relayDown_hz (r : RelayReq) : (s.relayDown r).hz = s.hz := by
  unfold relayDown; split
  · exact readReturns_hz _ _ _
  · rfl
theorem relayDown_regs (r : RelayReq) : (s.relayDown r).regs = s.regs := by
  unfold relayDown; split
  · exact readReturns_regs _ _ _
  · rfl
theorem foldl_relayDown_hz (l : List RelayReq) : (l.foldl relayDown s).hz = s.hz := by
  induction l generalizing s with
  | nil => rfl
  | cons r l ih => rw [List.foldl_cons, ih, relayDown_hz]
theorem foldl_relayDown_regs (l : List RelayReq) : (l.foldl relayDown s).regs = s.regs := by
  induction l generalizing s with
  | nil => rfl
  | cons r l ih => rw [List.foldl_cons, ih, relayDown_regs]

theorem relayEnd_hz (r : Relay) : (s.relayEnd r none).hz = { s.hz with relay := none, relayRx := none } := by
  unfold relayEnd; simp only
  split
  · rw [readReturns_hz]; rfl
  · rfl
  · rfl
theorem relayEnd_regs (r : Relay) : (s.relayEnd r none).regs = s.regs := by
  unfold relayEnd; simp only
  split
  · rw [readReturns_regs]; rfl
  · rfl
  · rfl
theorem relayFailCounts_reg (r : Relay) (a : Nat) (h1 : a ≠ Reg.HZ_RELAY_ERR) (h2 : a ≠ Reg.HZ_EVENT) : (s.relayFailCounts r).reg a = s.reg a := by
  unfold relayFailCounts; simp only [reg_put, reg_bump, h1, h2, if_false]
theorem relayFailCounts_hz (r : Relay) : (s.relayFailCounts r).hz = s.hz := by unfold relayFailCounts; rfl

theorem relayFails_hz : ∃ l, s.relayFails.hz = { s.hz with relay := none, relayRx := l } := by
  unfold relayFails
  split
  · rw [relayEnd_hz, relayFailCounts_hz]; exact ⟨_, rfl⟩
  · rename_i h; refine ⟨s.hz.relayRx, ?_⟩; rw [← h]
theorem relayFails_reg (a : Nat) (h1 : a ≠ Reg.HZ_RELAY_ERR) (h2 : a ≠ Reg.HZ_EVENT) : s.relayFails.reg a = s.reg a := by
  unfold relayFails
  split
  · rw [reg_congr (relayEnd_regs _ _) a]; exact relayFailCounts_reg s _ a h1 h2
  · rfl

/-- R178, R184: nothing waits on the relay any more. -/
theorem relayAbort_hz : s.relayAbort.hz = { s.hz with relayWait := [], relay := none, relayRx := none } := by
  obtain ⟨l, hl⟩ := s.relayFails_hz
  have h1 := foldl_relayDown_hz s.relayFails s.relayFails.hz.relayWait
  unfold relayAbort
  simp only
  generalize s.relayFails.hz.relayWait.foldl relayDown s.relayFails = z at h1
  unfold modHz
  simp only
  rw [h1, hl]
theorem relayAbort_reg (a : Nat) (h1 : a ≠ Reg.HZ_RELAY_ERR) (h2 : a ≠ Reg.HZ_EVENT) : s.relayAbort.reg a = s.reg a := by
  unfold relayAbort
  simp only
  rw [modHz_reg, reg_congr (foldl_relayDown_regs _ _) a]
  exact s.relayFails_reg a h1 h2

theorem linkDown_hz (v : Nat) : (s.linkDown v).hz =
    { s.hz with
      relayWait := [], relay := none, relayRx := none, gateQ := [], stageQ := [],
      sentQ := [], second := none, badRun := 0, zevHigh := none, attn := false, staged := [] } := by
  have h := relayAbort_hz ((s.setHzState v).put Reg.SYS_SVC Fl.SYS_SVC_HZ_OK 0)
  unfold linkDown
  simp only
  generalize ((s.setHzState v).put Reg.SYS_SVC Fl.SYS_SVC_HZ_OK 0).relayAbort = z at h
  unfold modHz
  simp only
  rw [h]; rfl
theorem linkDown_reg (v a : Nat) (h1 : a ≠ Reg.HZ_RELAY_ERR) (h2 : a ≠ Reg.HZ_EVENT) (h3 : a ≠ Reg.HZ_STATUS) (h4 : a ≠ Reg.SYS_SVC) :
    (s.linkDown v).reg a = s.reg a := by
  unfold linkDown
  simp only
  rw [modHz_reg, relayAbort_reg _ _ h1 h2, reg_put, if_neg h4]
  unfold setHzState; rw [reg_put, if_neg h3]
theorem linkDown_state (v : Nat) (h : v < 8) : (s.linkDown v).hzState = v ∧ (s.linkDown v).get Reg.SYS_SVC Fl.SYS_SVC_HZ_OK = 0 := by
  unfold linkDown setHzState hzState
  simp only
  constructor
  · rw [get_of_reg _ (modHz_reg _ _ _), get_of_reg _ (relayAbort_reg _ _ (by decide) (by decide)), get_put_other _ _ _ _ _ _ (by decide),
      get_put_same _ _ _ _ (by decide)]
    exact Nat.mod_eq_of_lt h
  · rw [get_of_reg _ (modHz_reg _ _ _), get_of_reg _ (relayAbort_reg _ _ (by decide) (by decide)), get_put_same _ _ _ _ (by decide)]; rfl

theorem raise_hz (i : Nat) : (s.raise i).hz = s.hz := (congrArg State.hz (raise_unreacted s i) :)

/-- R184: the link is lost. -/
theorem naharLoss_hz : s.naharLoss.hz = { (s.linkDown 0).hz with lost := true } := by
  unfold naharLoss
  simp only
  split
  · rw [raise_hz]; rfl
  · rfl
theorem naharLoss_gets : s.naharLoss.hzState = 0 ∧ s.naharLoss.get Reg.SYS_SVC Fl.SYS_SVC_HZ_OK = 0 ∧
    s.naharLoss.get Reg.HZ_EVENT Fl.HZ_EVENT_LOSS = 1 := by
  have hk : ∀ (y : State) a f, a ∉ Reg.FCU_CNT 16 :: latchRegs → (if y.chartOk then y.raise 16 else y).get a f = y.get a f := by
    intro y a f h; split
    · exact get_of_reg _ (raise_reg _ _ _ h)
    · rfl
  obtain ⟨a1, a2⟩ := s.linkDown_state 0 (by decide)
  unfold naharLoss hzState
  simp only
  refine ⟨?_, ?_, ?_⟩
  · rw [hk _ _ _ (by decide), get_bump_other _ _ _ _ _ (by decide), get_put_other _ _ _ _ _ _ (by decide)]; exact a1
  · rw [hk _ _ _ (by decide), get_bump_other _ _ _ _ _ (by decide), get_put_other _ _ _ _ _ _ (by decide)]; exact a2
  · rw [hk _ _ _ (by decide), get_bump_other _ _ _ _ _ (by decide), get_put_same _ _ _ _ (by decide)]; rfl
theorem naharLoss_reg (a : Nat) (h : a ∉ [Reg.HZ_RELAY_ERR, Reg.HZ_EVENT, Reg.HZ_STATUS, Reg.SYS_SVC, Reg.HZ_LOSS, Reg.FCU_CNT 16] ++ latchRegs) :
    s.naharLoss.reg a = s.reg a := by
  simp only [List.mem_append, List.mem_cons, List.not_mem_nil, or_false, not_or] at h
  obtain ⟨⟨h1, h2, h3, h4, h5, h6⟩, h7⟩ := h
  have hk : ∀ (y : State), (if y.chartOk then y.raise 16 else y).reg a = y.reg a := by
    intro y; split
    · exact raise_reg _ _ _ (by simp only [List.mem_cons, not_or]; exact ⟨h6, h7⟩)
    · rfl
  unfold naharLoss
  simp only
  rw [hk, reg_bump, if_neg h5, reg_put, if_neg h2]
  exact linkDown_reg s 0 a h1 h2 h3 h4

/-- A flag of HZ_EVENT that the loss does not set stays. -/
theorem relayAbort_event (f : Fld) (h : fieldsApart Fl.HZ_EVENT_RELAY_TIMEOUT f = true) :
    s.relayAbort.get Reg.HZ_EVENT f = s.get Reg.HZ_EVENT f := by
  have k : s.relayFails.get Reg.HZ_EVENT f = s.get Reg.HZ_EVENT f := by
    unfold relayFails
    split
    · rw [get_congr (relayEnd_regs _ _)]
      unfold relayFailCounts
      simp only
      rw [get_put_field _ _ _ _ _ (by decide) h, get_put_other _ _ _ _ _ _ (by decide), get_bump_other _ _ _ _ _ (by decide)]
    · rfl
  unfold relayAbort
  simp only
  rw [get_of_reg _ (modHz_reg _ _ _), get_congr (foldl_relayDown_regs _ _)]
  exact k
theorem naharLoss_event (f : Fld) (h : fieldsApart Fl.HZ_EVENT_RELAY_TIMEOUT f = true) (k : fieldsApart Fl.HZ_EVENT_LOSS f = true) :
    s.naharLoss.get Reg.HZ_EVENT f = s.get Reg.HZ_EVENT f := by
  have hk : ∀ (y : State), (if y.chartOk then y.raise 16 else y).get Reg.HZ_EVENT f = y.get Reg.HZ_EVENT f := by
    intro y; split
    · exact get_of_reg _ (raise_reg _ _ _ (by decide))
    · rfl
  unfold naharLoss linkDown
  simp only
  rw [hk, get_bump_other _ _ _ _ _ (by decide), get_put_field _ _ _ _ _ (by decide) k, get_of_reg _ (modHz_reg _ _ _), get_of_reg _ (modHz_reg _ _ _),
    relayAbort_event _ _ h, get_put_other _ _ _ _ _ _ (by decide)]
  unfold setHzState
  rw [get_put_other _ _ _ _ _ _ (by decide)]

end Sys2Proof.Machine.State
end

