-- ==== Sys2Proof/Laws/PerInstr.lean ====
section
/-! SUPPORT. Statements made of every command, one lemma per constructor. -/

/-- The command ends in a next state, from every state. -/
def Sys2Proof.Laws.Answers.Statement (c : Sys2Proof.Instr) : Prop :=
  ∀ s : Sys2Proof.Machine.State, ∃ t, Sys2Proof.Machine.exec c s = .next t

namespace Sys2Proof.Laws.Answers

theorem registerWrite (p : Path) (bar : Bar) (off : Nat) (size : Nat) (val : BitVec 64) : Statement (.registerWrite p bar off size val) := fun _ => ⟨_, rfl⟩
theorem pairLowRead (p : Path) (off : Nat) : Statement (.pairLowRead p off) := fun _ => ⟨_, rfl⟩
theorem pairHighRead (p : Path) (off : Nat) : Statement (.pairHighRead p off) := fun _ => ⟨_, rfl⟩
theorem pairLowWrite (p : Path) (off : Nat) (val : Word) : Statement (.pairLowWrite p off val) := fun _ => ⟨_, rfl⟩
theorem pairHighWrite (p : Path) (off : Nat) (val : Word) : Statement (.pairHighWrite p off val) := fun _ => ⟨_, rfl⟩
theorem start (p : Path) (n : Fin 8) : Statement (.start p n) := fun _ => ⟨_, rfl⟩
theorem stop (p : Path) (n : Fin 8) : Statement (.stop p n) := fun _ => ⟨_, rfl⟩
theorem abort (p : Path) (n : Fin 8) : Statement (.abort p n) := fun _ => ⟨_, rfl⟩
theorem bringupComplete (n : Fin 8) (t : Nat) : Statement (.bringupComplete n t) := fun _ => ⟨_, rfl⟩
theorem bringupTimeout (n : Fin 8) (t : Nat) : Statement (.bringupTimeout n t) := fun _ => ⟨_, rfl⟩
theorem drainTimeout (n : Fin 8) (t : Nat) : Statement (.drainTimeout n t) := fun _ => ⟨_, rfl⟩
theorem fieldToHostBeat (idx : Nat) (mask : BitVec 64) (miri : BitVec 12) : Statement (.fieldToHostBeat idx mask miri) := fun _ => ⟨_, rfl⟩
theorem hostToFieldBeat (idx : Nat) (mask : BitVec 64) : Statement (.hostToFieldBeat idx mask) := fun _ => ⟨_, rfl⟩
theorem lepFix (n : Fin 8) (slot : Fin 16) (t : Nat) : Statement (.lepFix n slot t) := fun _ => ⟨_, rfl⟩
theorem transitClose (n : Fin 8) (slot : Fin 16) (t : Nat) : Statement (.transitClose n slot t) := fun _ => ⟨_, rfl⟩
theorem jobDispatch (u : Fin 3) (t : Nat) : Statement (.jobDispatch u t) := fun _ => ⟨_, rfl⟩
theorem jobComplete (u : Fin 3) (stall : Nat) (errs : List EccErr) : Statement (.jobComplete u stall errs) := fun _ => ⟨_, rfl⟩
theorem resultExists (n : Fin 8) (slot : Fin 16) (t : Nat) : Statement (.resultExists n slot t) := fun _ => ⟨_, rfl⟩
theorem verdictExists (n : Fin 8) : Statement (.verdictExists n) := fun _ => ⟨_, rfl⟩
theorem vhPowerOn : Statement (.vhPowerOn) := fun _ => ⟨_, rfl⟩
theorem vhBrownOut : Statement (.vhBrownOut) := fun _ => ⟨_, rfl⟩
theorem vhPowerLoss : Statement (.vhPowerLoss) := fun _ => ⟨_, rfl⟩
theorem railsPowerGood (refsel : Bool) (lead : Bool) (refclk : Bool) : Statement (.railsPowerGood refsel lead refclk) := fun _ => ⟨_, rfl⟩
theorem pllLock : Statement (.pllLock) := fun _ => ⟨_, rfl⟩
theorem pllLockLoss (t : Nat) : Statement (.pllLockLoss t) := fun _ => ⟨_, rfl⟩
theorem refclkLoss (sclkRuns : Bool) (t : Nat) : Statement (.refclkLoss sclkRuns t) := fun _ => ⟨_, rfl⟩
theorem sclkLoss (t : Nat) : Statement (.sclkLoss t) := fun _ => ⟨_, rfl⟩
theorem refclkReturn : Statement (.refclkReturn) := fun _ => ⟨_, rfl⟩
theorem railOutOfWindow (t : Nat) : Statement (.railOutOfWindow t) := fun _ => ⟨_, rfl⟩
theorem vhSample (mv : Nat) (t : Nat) : Statement (.vhSample mv t) := fun _ => ⟨_, rfl⟩
theorem tempSample (c : Int) (t : Nat) : Statement (.tempSample c t) := fun _ => ⟨_, rfl⟩
theorem vfSample (mv : Nat) (t : Nat) : Statement (.vfSample mv t) := fun _ => ⟨_, rfl⟩
theorem pwrSleep (p : Path) : Statement (.pwrSleep p) := fun _ => ⟨_, rfl⟩
theorem pwrPark (p : Path) : Statement (.pwrPark p) := fun _ => ⟨_, rfl⟩
theorem pwrWake (p : Path) : Statement (.pwrWake p) := fun _ => ⟨_, rfl⟩
theorem sleepExitComplete (t : Nat) : Statement (.sleepExitComplete t) := fun _ => ⟨_, rfl⟩
theorem parkSelftestStart (t : Nat) : Statement (.parkSelftestStart t) := fun _ => ⟨_, rfl⟩
theorem parkEntryComplete (t : Nat) : Statement (.parkEntryComplete t) := fun _ => ⟨_, rfl⟩
theorem parkEntryAborted (ok : Bool) (t : Nat) : Statement (.parkEntryAborted ok t) := fun _ => ⟨_, rfl⟩
theorem parkExitComplete (bad : List (Fin 17)) (t : Nat) : Statement (.parkExitComplete bad t) := fun _ => ⟨_, rfl⟩
theorem resetPin (t : Nat) : Statement (.resetPin t) := fun _ => ⟨_, rfl⟩
theorem sysResetCmd (p : Path) (val : Word) : Statement (.sysResetCmd p val) := fun _ => ⟨_, rfl⟩
theorem chipResetEnd : Statement (.chipResetEnd) := fun _ => ⟨_, rfl⟩
theorem vfPowerOn : Statement (.vfPowerOn) := fun _ => ⟨_, rfl⟩
theorem vfPowerLoss : Statement (.vfPowerLoss) := fun _ => ⟨_, rfl⟩
theorem perstAssert (t : Nat) : Statement (.perstAssert t) := fun _ => ⟨_, rfl⟩
theorem perstDeassert : Statement (.perstDeassert) := fun _ => ⟨_, rfl⟩
theorem pcieLinkTrainStart (t : Nat) : Statement (.pcieLinkTrainStart t) := fun _ => ⟨_, rfl⟩
theorem pcieLinkUp (speed : Nat) (width : Nat) (t : Nat) : Statement (.pcieLinkUp speed width t) := fun _ => ⟨_, rfl⟩
theorem pcieLinkDown (t : Nat) : Statement (.pcieLinkDown t) := fun _ => ⟨_, rfl⟩
theorem pcieHotReset (t : Nat) : Statement (.pcieHotReset t) := fun _ => ⟨_, rfl⟩
theorem pcieLinkDisable (t : Nat) : Statement (.pcieLinkDisable t) := fun _ => ⟨_, rfl⟩
theorem pcieFlr (t : Nat) : Statement (.pcieFlr t) := fun _ => ⟨_, rfl⟩
theorem pcieBmeClear (t : Nat) : Statement (.pcieBmeClear t) := fun _ => ⟨_, rfl⟩
theorem pcieD3hotEntry (t : Nat) : Statement (.pcieD3hotEntry t) := fun _ => ⟨_, rfl⟩
theorem pcieD0Entry : Statement (.pcieD0Entry) := fun _ => ⟨_, rfl⟩
theorem pciePoisonedWrite (space : Fin 3) (off : Nat) (be : Fin 16) : Statement (.pciePoisonedWrite space off be) := fun _ => ⟨_, rfl⟩
theorem pcieUnsupportedRequest : Statement (.pcieUnsupportedRequest) := fun _ => ⟨_, rfl⟩
theorem msixEnable (enable : Bool) (fmask : Bool) (master : Bool) : Statement (.msixEnable enable fmask master) := fun _ => ⟨_, rfl⟩
theorem hostlossRelease (p : Path) (val : Word) : Statement (.hostlossRelease p val) := fun _ => ⟨_, rfl⟩
theorem aelClear (p : Path) (target : Path) (val : Word) : Statement (.aelClear p target val) := fun _ => ⟨_, rfl⟩
theorem chtOpen (p : Path) : Statement (.chtOpen p) := fun _ => ⟨_, rfl⟩
theorem chtClose (p : Path) : Statement (.chtClose p) := fun _ => ⟨_, rfl⟩
theorem chtCommit (p : Path) (scope : Byte) : Statement (.chtCommit p scope) := fun _ => ⟨_, rfl⟩
theorem commitComplete (ecc : Option (Nat × Nat)) (t : Nat) : Statement (.commitComplete ecc t) := fun _ => ⟨_, rfl⟩
theorem chtDataWrite (p : Path) (val : Word) : Statement (.chtDataWrite p val) := fun _ => ⟨_, rfl⟩
theorem chtDataRead (p : Path) : Statement (.chtDataRead p) := fun _ => ⟨_, rfl⟩
theorem bar2Write (p : Path) (off : Nat) (data : List (Option Byte)) : Statement (.bar2Write p off data) := fun _ => ⟨_, rfl⟩
theorem bar2Read (p : Path) (off : Nat) (n : Nat) (ecc : Option Nat) : Statement (.bar2Read p off n ecc) := fun _ => ⟨_, rfl⟩
theorem weightHashDone (i : Fin 16) (t : Nat) : Statement (.weightHashDone i t) := fun _ => ⟨_, rfl⟩
theorem bootDirectoryRead (t : Nat) : Statement (.bootDirectoryRead t) := fun _ => ⟨_, rfl⟩
theorem bootFlashTimeout (t : Nat) : Statement (.bootFlashTimeout t) := fun _ => ⟨_, rfl⟩
theorem bootChartRead (t : Nat) : Statement (.bootChartRead t) := fun _ => ⟨_, rfl⟩
theorem offsetCalDone (x : Fin 13) (pass : Bool) (t : Nat) : Statement (.offsetCalDone x pass t) := fun _ => ⟨_, rfl⟩
theorem spiWrite (addr : Word) (words : List Word) : Statement (.spiWrite addr words) := fun _ => ⟨_, rfl⟩
theorem spiRead (addr : Word) (first : SpiWord) (rest : List SpiWord) : Statement (.spiRead addr first rest) := fun _ => ⟨_, rfl⟩
theorem spiReadComplete : Statement (.spiReadComplete) := fun _ => ⟨_, rfl⟩
theorem spiResult : Statement (.spiResult) := fun _ => ⟨_, rfl⟩
theorem spiStatus : Statement (.spiStatus) := fun _ => ⟨_, rfl⟩
theorem spiId : Statement (.spiId) := fun _ => ⟨_, rfl⟩
theorem spiBadCommand : Statement (.spiBadCommand) := fun _ => ⟨_, rfl⟩
theorem spiFrameEnd (write : Bool) (edges : Nat) : Statement (.spiFrameEnd write edges) := fun _ => ⟨_, rfl⟩
theorem spiWfifoDrain : Statement (.spiWfifoDrain) := fun _ => ⟨_, rfl⟩
theorem sspErrClear (p : Path) (val : Word) : Statement (.sspErrClear p val) := fun _ => ⟨_, rfl⟩
theorem bspRead (p : Path) : Statement (.bspRead p) := fun _ => ⟨_, rfl⟩
theorem bspErase4k (p : Path) : Statement (.bspErase4k p) := fun _ => ⟨_, rfl⟩
theorem bspProgram (p : Path) : Statement (.bspProgram p) := fun _ => ⟨_, rfl⟩
theorem bspOpComplete (t : Nat) : Statement (.bspOpComplete t) := fun _ => ⟨_, rfl⟩
theorem bspTimeout (t : Nat) : Statement (.bspTimeout t) := fun _ => ⟨_, rfl⟩
theorem hzTrainStart (t : Nat) : Statement (.hzTrainStart t) := fun _ => ⟨_, rfl⟩
theorem hzRetrain (p : Path) (val : Word) : Statement (.hzRetrain p val) := fun _ => ⟨_, rfl⟩
theorem hzJensLock (t : Nat) : Statement (.hzJensLock t) := fun _ => ⟨_, rfl⟩
theorem hzTrainUp (t : Nat) : Statement (.hzTrainUp t) := fun _ => ⟨_, rfl⟩
theorem hzTrainFail (step : Nat) (t : Nat) : Statement (.hzTrainFail step t) := fun _ => ⟨_, rfl⟩
theorem hzTrainWait (t : Nat) : Statement (.hzTrainWait t) := fun _ => ⟨_, rfl⟩
theorem hzPhaseMeasure (ps : Int) (code : Nat) : Statement (.hzPhaseMeasure ps code) := fun _ => ⟨_, rfl⟩
theorem hzShortRetrainDone (fail : Option Nat) (t : Nat) : Statement (.hzShortRetrainDone fail t) := fun _ => ⟨_, rfl⟩
theorem beatLossDetect : Statement (.beatLossDetect) := fun _ => ⟨_, rfl⟩
theorem relayTimeout : Statement (.relayTimeout) := fun _ => ⟨_, rfl⟩
theorem attnPoll : Statement (.attnPoll) := fun _ => ⟨_, rfl⟩
theorem fxWrite (p : Path) (addr : Nat) (val : Word) : Statement (.fxWrite p addr val) := fun _ => ⟨_, rfl⟩
theorem fxRead (p : Path) (addr : Nat) : Statement (.fxRead p addr) := fun _ => ⟨_, rfl⟩
theorem hzSerTxWrite (p : Path) (val : Word) : Statement (.hzSerTxWrite p val) := fun _ => ⟨_, rfl⟩
theorem hzSerTxwWrite (p : Path) (val : Word) : Statement (.hzSerTxwWrite p val) := fun _ => ⟨_, rfl⟩
theorem hzSerRxRead (p : Path) : Statement (.hzSerRxRead p) := fun _ => ⟨_, rfl⟩
theorem hzSerRxwRead (p : Path) : Statement (.hzSerRxwRead p) := fun _ => ⟨_, rfl⟩
theorem hzCntClear (p : Path) (val : Word) : Statement (.hzCntClear p val) := fun _ => ⟨_, rfl⟩
theorem pfiQuadEdge (c : Fin 4) (a : Bool) (b : Bool) (z : Bool) (t : Nat) : Statement (.pfiQuadEdge c a b z t) := fun _ => ⟨_, rfl⟩
theorem pfiToothEdge (c : Fin 4) (t : Nat) : Statement (.pfiToothEdge c t) := fun _ => ⟨_, rfl⟩
theorem pfiStandstill (c : Fin 4) (t : Nat) : Statement (.pfiStandstill c t) := fun _ => ⟨_, rfl⟩
theorem pfiErrClear (p : Path) (c : Fin 4) (val : Word) : Statement (.pfiErrClear p c val) := fun _ => ⟨_, rfl⟩
theorem emuRateUpdate (e : Fin 2) (t : Nat) : Statement (.emuRateUpdate e t) := fun _ => ⟨_, rfl⟩
theorem emuCountEmit (e : Fin 2) (t : Nat) : Statement (.emuCountEmit e t) := fun _ => ⟨_, rfl⟩
theorem emuResync (p : Path) (e : Fin 2) (val : Word) : Statement (.emuResync p e val) := fun _ => ⟨_, rfl⟩
theorem emuRatioWrite (p : Path) (e : Fin 2) (val : Word) : Statement (.emuRatioWrite p e val) := fun _ => ⟨_, rfl⟩
theorem gateFireDue (j : Fin 8) (t : Nat) : Statement (.gateFireDue j t) := fun _ => ⟨_, rfl⟩
theorem gatePeakEnd (j : Fin 8) (t : Nat) : Statement (.gatePeakEnd j t) := fun _ => ⟨_, rfl⟩
theorem gateHoldEnd (j : Fin 8) (t : Nat) : Statement (.gateHoldEnd j t) := fun _ => ⟨_, rfl⟩
theorem gateFlush (p : Path) (val : Word) : Statement (.gateFlush p val) := fun _ => ⟨_, rfl⟩
theorem overcurrent (k : Fin 4) (t : Nat) : Statement (.overcurrent k t) := fun _ => ⟨_, rfl⟩
theorem ocClear (p : Path) (k : Fin 4) (val : Word) (below : Bool) : Statement (.ocClear p k val below) := fun _ => ⟨_, rfl⟩
theorem fspMasterFrameStart : Statement (.fspMasterFrameStart) := fun _ => ⟨_, rfl⟩
theorem fspMasterWord (rx : Byte) : Statement (.fspMasterWord rx) := fun _ => ⟨_, rfl⟩
theorem fspCsGapTimeout : Statement (.fspCsGapTimeout) := fun _ => ⟨_, rfl⟩
theorem fspSlaveSelect : Statement (.fspSlaveSelect) := fun _ => ⟨_, rfl⟩
theorem fspSlaveWord (rx : Byte) : Statement (.fspSlaveWord rx) := fun _ => ⟨_, rfl⟩
theorem fspSlaveDeselect (bits : Fin 8) : Statement (.fspSlaveDeselect bits) := fun _ => ⟨_, rfl⟩
theorem fspErrClear (p : Path) (val : Word) : Statement (.fspErrClear p val) := fun _ => ⟨_, rfl⟩
theorem zlTxnDispatch (l : Fin 2) (slots : List (Bool × Bool)) (scan : BitVec 24) : Statement (.zlTxnDispatch l slots scan) := fun _ => ⟨_, rfl⟩
theorem zlReply (l : Fin 2) (delay : Nat) (periods : List Nat) (lows : List Nat) : Statement (.zlReply l delay periods lows) := fun _ => ⟨_, rfl⟩
theorem zlReplyTimeout (l : Fin 2) : Statement (.zlReplyTimeout l) := fun _ => ⟨_, rfl⟩
theorem zlAttention (l : Fin 2) (collided : Bool) (scan : BitVec 24) (t : Nat) : Statement (.zlAttention l collided scan t) := fun _ => ⟨_, rfl⟩
theorem zlSupervisePing (l : Fin 2) : Statement (.zlSupervisePing l) := fun _ => ⟨_, rfl⟩
theorem zlTxnStart (p : Path) (l : Fin 2) (val : Word) : Statement (.zlTxnStart p l val) := fun _ => ⟨_, rfl⟩
theorem zlDiscover (p : Path) (l : Fin 2) (val : Word) : Statement (.zlDiscover p l val) := fun _ => ⟨_, rfl⟩
theorem zlBindNew (p : Path) (l : Fin 2) (val : Word) : Statement (.zlBindNew p l val) := fun _ => ⟨_, rfl⟩
theorem zlStartReleaseEnd (l : Fin 2) : Statement (.zlStartReleaseEnd l) := fun _ => ⟨_, rfl⟩
theorem zlStuck (l : Fin 2) : Statement (.zlStuck l) := fun _ => ⟨_, rfl⟩
theorem zlReleased (l : Fin 2) : Statement (.zlReleased l) := fun _ => ⟨_, rfl⟩
theorem zlErrClear (p : Path) (l : Fin 2) (val : Word) : Statement (.zlErrClear p l val) := fun _ => ⟨_, rfl⟩
theorem lnPhaseLock (x : Fin 17) (t : Nat) : Statement (.lnPhaseLock x t) := fun _ => ⟨_, rfl⟩
theorem lnAcqDone (x : Fin 17) (ctle : Nat) (efm : Nat) (taps : Taps) (sat : Bool) (t : Nat) : Statement (.lnAcqDone x ctle efm taps sat t) := fun _ => ⟨_, rfl⟩
theorem lnAcqNoLock (x : Fin 17) (t : Nat) : Statement (.lnAcqNoLock x t) := fun _ => ⟨_, rfl⟩
theorem lnEfmWindowEnd (x : Fin 17) (efm : Nat) : Statement (.lnEfmWindowEnd x efm) := fun _ => ⟨_, rfl⟩
theorem lnEpochEnd (x : Fin 17) (acc : Taps) : Statement (.lnEpochEnd x acc) := fun _ => ⟨_, rfl⟩
theorem lnLockLoss (x : Fin 17) (t : Nat) : Statement (.lnLockLoss x t) := fun _ => ⟨_, rfl⟩
theorem lnReacqDone (x : Fin 17) (efm : Nat) (taps : Taps) (t : Nat) : Statement (.lnReacqDone x efm taps t) := fun _ => ⟨_, rfl⟩
theorem lnClockLoss (q : Fin 4) (t : Nat) : Statement (.lnClockLoss q t) := fun _ => ⟨_, rfl⟩
theorem lnSynLock (x : Fin 17) (t : Nat) : Statement (.lnSynLock x t) := fun _ => ⟨_, rfl⟩
theorem lnSynTimeout (x : Fin 17) (t : Nat) : Statement (.lnSynTimeout x t) := fun _ => ⟨_, rfl⟩
theorem lnSynLockLoss (x : Fin 16) (t : Nat) : Statement (.lnSynLockLoss x t) := fun _ => ⟨_, rfl⟩
theorem lnRecal (p : Path) (x : Fin 16) (val : Word) : Statement (.lnRecal p x val) := fun _ => ⟨_, rfl⟩
theorem lnCalDone (x : Fin 16) (pass : Bool) : Statement (.lnCalDone x pass) := fun _ => ⟨_, rfl⟩
theorem lnCntClear (p : Path) (x : Fin 16) (val : Word) : Statement (.lnCntClear p x val) := fun _ => ⟨_, rfl⟩
theorem lineMessage (q : Fin 4) (words : List Nat) (cv : List (Fin 3)) (t : Nat) : Statement (.lineMessage q words cv t) := fun _ => ⟨_, rfl⟩
theorem hcRespMessage (q : Fin 4) (words : List Nat) : Statement (.hcRespMessage q words) := fun _ => ⟨_, rfl⟩
theorem headEventMessage (q : Fin 4) (words : List Nat) : Statement (.headEventMessage q words) := fun _ => ⟨_, rfl⟩
theorem laneMarker (q : Fin 4) (r : Fin 3) (m : Option (Nat × Nat)) (skew : Nat) (t : Nat) : Statement (.laneMarker q r m skew t) := fun _ => ⟨_, rfl⟩
theorem trainingBlock (q : Fin 5) (r : Fin 3) (st : Nat) (prec : Bool) (laneId : Nat) (skew : Nat) (ok : Bool) : Statement (.trainingBlock q r st prec laneId skew ok) := fun _ => ⟨_, rfl⟩
theorem lineTimeout (q : Fin 4) (t : Nat) : Statement (.lineTimeout q t) := fun _ => ⟨_, rfl⟩
theorem hcRead (p : Path) (q : Fin 4) : Statement (.hcRead p q) := fun _ => ⟨_, rfl⟩
theorem hcWrite (p : Path) (q : Fin 4) : Statement (.hcWrite p q) := fun _ => ⟨_, rfl⟩
theorem hcTimeout (q : Fin 4) (t : Nat) : Statement (.hcTimeout q t) := fun _ => ⟨_, rfl⟩
theorem cpTrainingDone (q : Fin 4) (regs : List Word) (t : Nat) : Statement (.cpTrainingDone q regs t) := fun _ => ⟨_, rfl⟩
theorem cpTrainFail (q : Fin 4) (cause : Nat) (detail : Nat) (t : Nat) : Statement (.cpTrainFail q cause detail t) := fun _ => ⟨_, rfl⟩
theorem cpTrainRetry (q : Fin 4) (t : Nat) : Statement (.cpTrainRetry q t) := fun _ => ⟨_, rfl⟩
theorem cpRejoinTimeout (q : Fin 4) (t : Nat) : Statement (.cpRejoinTimeout q t) := fun _ => ⟨_, rfl⟩
theorem cpPortRejoin (q : Fin 4) (t : Nat) : Statement (.cpPortRejoin q t) := fun _ => ⟨_, rfl⟩
theorem cpPresence (q : Fin 4) (t : Nat) : Statement (.cpPresence q t) := fun _ => ⟨_, rfl⟩
theorem cpPresenceLoss (q : Fin 4) (t : Nat) : Statement (.cpPresenceLoss q t) := fun _ => ⟨_, rfl⟩
theorem cpRetrain (p : Path) (q : Fin 4) (val : Word) : Statement (.cpRetrain p q val) := fun _ => ⟨_, rfl⟩
theorem cpTrqRelease (q : Fin 4) (t : Nat) : Statement (.cpTrqRelease q t) := fun _ => ⟨_, rfl⟩
theorem cpCntClear (p : Path) (q : Fin 4) (val : Word) : Statement (.cpCntClear p q val) := fun _ => ⟨_, rfl⟩
theorem lineTriggerIssue (q : Fin 4) (t : Nat) : Statement (.lineTriggerIssue q t) := fun _ => ⟨_, rfl⟩
theorem lineTimerTick (n : Fin 8) (t : Nat) : Statement (.lineTimerTick n t) := fun _ => ⟨_, rfl⟩
theorem acqCntClear (p : Path) (n : Fin 8) (val : Word) : Statement (.acqCntClear p n val) := fun _ => ⟨_, rfl⟩
theorem ltgCntClear (p : Path) (q : Fin 4) (val : Word) : Statement (.ltgCntClear p q val) := fun _ => ⟨_, rfl⟩
theorem stsCntClear (p : Path) (val : Word) : Statement (.stsCntClear p val) := fun _ => ⟨_, rfl⟩
theorem engineCntClear (p : Path) (u : Fin 2) (val : Word) : Statement (.engineCntClear p u val) := fun _ => ⟨_, rfl⟩
theorem blockResetEnd (src : Nat) : Statement (.blockResetEnd src) := fun _ => ⟨_, rfl⟩
theorem pstCntClear (p : Path) (val : Word) : Statement (.pstCntClear p val) := fun _ => ⟨_, rfl⟩
theorem vrdCntClear (p : Path) (n : Fin 8) (val : Word) : Statement (.vrdCntClear p n val) := fun _ => ⟨_, rfl⟩
theorem vrdHitClear (p : Path) (val : Word) : Statement (.vrdHitClear p val) := fun _ => ⟨_, rfl⟩
theorem dlvObjectDeliver (t : Nat) (errs : List EccErr) : Statement (.dlvObjectDeliver t errs) := fun _ => ⟨_, rfl⟩
theorem dlvBpTimeout (r : Fin 128) (t : Nat) : Statement (.dlvBpTimeout r t) := fun _ => ⟨_, rfl⟩
theorem dlvConsWrite (p : Path) (r : Fin 128) (val : Word) : Statement (.dlvConsWrite p r val) := fun _ => ⟨_, rfl⟩
theorem dlvEnable (p : Path) (r : Fin 128) (val : Word) : Statement (.dlvEnable p r val) := fun _ => ⟨_, rfl⟩
theorem dlvDisable (p : Path) (r : Fin 128) (val : Word) : Statement (.dlvDisable p r val) := fun _ => ⟨_, rfl⟩
theorem dlvIrqTimer (r : Fin 128) (t : Nat) : Statement (.dlvIrqTimer r t) := fun _ => ⟨_, rfl⟩
theorem dlvCntClear (p : Path) (r : Fin 128) (val : Word) : Statement (.dlvCntClear p r val) := fun _ => ⟨_, rfl⟩
theorem evtMapWrite (p : Path) (src : Fin 256) (val : Word) : Statement (.evtMapWrite p src val) := fun _ => ⟨_, rfl⟩
theorem evtVmaskWrite (p : Path) (k : Fin 9) (val : Word) : Statement (.evtVmaskWrite p k val) := fun _ => ⟨_, rfl⟩
theorem fcuStatusClear (p : Path) (val : Word) : Statement (.fcuStatusClear p val) := fun _ => ⟨_, rfl⟩
theorem fcuSafeCmd (p : Path) (val : Word) : Statement (.fcuSafeCmd p val) := fun _ => ⟨_, rfl⟩
theorem fcuDebugHalt (p : Path) : Statement (.fcuDebugHalt p) := fun _ => ⟨_, rfl⟩
theorem fcuDebugResume (p : Path) : Statement (.fcuDebugResume p) := fun _ => ⟨_, rfl⟩
theorem fcuInjectGo (p : Path) (val : Word) : Statement (.fcuInjectGo p val) := fun _ => ⟨_, rfl⟩
theorem fcuInjectIntegrity (p : Path) (val : Word) : Statement (.fcuInjectIntegrity p val) := fun _ => ⟨_, rfl⟩
theorem collectorIntegrityFault (copy : Fin 3) (byte : Nat) (bits : Byte) (parity : Bool) : Statement (.collectorIntegrityFault copy byte bits parity) := fun _ => ⟨_, rfl⟩
theorem fcuCntClear (p : Path) (val : Word) : Statement (.fcuCntClear p val) := fun _ => ⟨_, rfl⟩
theorem wdtEnable (p : Path) : Statement (.wdtEnable p) := fun _ => ⟨_, rfl⟩
theorem wdtKeyArm (p : Path) : Statement (.wdtKeyArm p) := fun _ => ⟨_, rfl⟩
theorem wdtKeyServe (p : Path) : Statement (.wdtKeyServe p) := fun _ => ⟨_, rfl⟩
theorem wdtKeyBad (p : Path) (val : Word) : Statement (.wdtKeyBad p val) := fun _ => ⟨_, rfl⟩
theorem wdtExpiry (t : Nat) : Statement (.wdtExpiry t) := fun _ => ⟨_, rfl⟩
theorem wdtWarn (t : Nat) : Statement (.wdtWarn t) := fun _ => ⟨_, rfl⟩
theorem bistSliceStart (k : Fin 48) (t : Nat) : Statement (.bistSliceStart k t) := fun _ => ⟨_, rfl⟩
theorem bistSliceDone (k : Fin 48) (fail : Option (Nat × Nat)) (uncorr : Nat) (bay : Bool) (t : Nat) : Statement (.bistSliceDone k fail uncorr bay t) := fun _ => ⟨_, rfl⟩
theorem bistBudgetExpiry (k : Fin 48) : Statement (.bistBudgetExpiry k) := fun _ => ⟨_, rfl⟩
theorem bistRecordFlashDone (ok : Bool) (t : Nat) : Statement (.bistRecordFlashDone ok t) := fun _ => ⟨_, rfl⟩
theorem bistQuickSliceTimeout (k : Fin 48) : Statement (.bistQuickSliceTimeout k) := fun _ => ⟨_, rfl⟩
theorem bistRetest (p : Path) (val : Word) : Statement (.bistRetest p val) := fun _ => ⟨_, rfl⟩
theorem bistRetestDone (fail : Option (Nat × Nat)) (uncorr : Nat) (bay : Bool) : Statement (.bistRetestDone fail uncorr bay) := fun _ => ⟨_, rfl⟩
theorem casRelink (p : Path) (val : Word) : Statement (.casRelink p val) := fun _ => ⟨_, rfl⟩
theorem casRelinkTimer (t : Nat) : Statement (.casRelinkTimer t) := fun _ => ⟨_, rfl⟩
theorem casFrameReceived (words : List Nat) (rp : Nat) (t : Nat) : Statement (.casFrameReceived words rp t) := fun _ => ⟨_, rfl⟩
theorem casFrameReturned (words : List Nat) (ring : Nat) (rp0 : Nat) (t : Nat) : Statement (.casFrameReturned words ring rp0 t) := fun _ => ⟨_, rfl⟩
theorem casSampleApply (c : Fin 4) (t : Nat) : Statement (.casSampleApply c t) := fun _ => ⟨_, rfl⟩
theorem casMessageApply (t : Nat) : Statement (.casMessageApply t) := fun _ => ⟨_, rfl⟩
theorem casLinkupTimeout (t : Nat) : Statement (.casLinkupTimeout t) := fun _ => ⟨_, rfl⟩
theorem casCntClear (p : Path) (val : Word) : Statement (.casCntClear p val) := fun _ => ⟨_, rfl⟩
theorem missingBeat (toJens : Bool) (idx : Nat) : Statement (.missingBeat toJens idx) := fun _ => ⟨_, rfl⟩
theorem isnsSample (k : Fin 4) (uv : Nat) : Statement (.isnsSample k uv) := fun _ => ⟨_, rfl⟩
theorem zlGlitch (l : Fin 2) : Statement (.zlGlitch l) := fun _ => ⟨_, rfl⟩
theorem unexpectedMessage (q : Fin 4) : Statement (.unexpectedMessage q) := fun _ => ⟨_, rfl⟩
theorem idleErr (q : Fin 4) : Statement (.idleErr q) := fun _ => ⟨_, rfl⟩

end Sys2Proof.Laws.Answers
end

