-- ==== Sys2Proof/Laws/Ports.lean ====
section
/-! SUPPORT. Camera lanes and ports act on their own registers and those of acquisition alone: the registers below 0x100000 stay as they
are. -/
namespace Sys2Proof.Machine

/-- The registers of the system, Chart, fault collector, host paths and link are as before. -/
abbrev Low (s t : State) : Prop := Keeps (fun a => a < 0x100000) s t

namespace State
variable (s : State)

theorem low_put (a : Nat) (f : Fld) (v : Nat) (h : 0x100000 ≤ a) : Low s (s.put a f v) := Keeps.put _ _ _ _ (by omega)
theorem low_putFlag (a : Nat) (f : Fld) (v : Bool) (h : 0x100000 ≤ a) : Low s (s.putFlag a f v) := Keeps.putFlag _ _ _ _ (by omega)
theorem low_setReg (a : Nat) (v : Word) (h : 0x100000 ≤ a) : Low s (s.setReg a v) := Keeps.setReg _ _ _ (by omega)
theorem low_bump (a : Nat) (f : Fld) (h : 0x100000 ≤ a) : Low s (s.bump a f) := Keeps.bump _ _ _ (by omega)
theorem low_wrapBy (a : Nat) (f : Fld) (n : Nat) (h : 0x100000 ≤ a) : Low s (s.wrapBy a f n) := Keeps.wrapBy _ _ _ _ (by omega)
theorem low_modPort (q : Fin 4) (g : Port → Port) : Low s (s.modPort q g) := Keeps.of_regs rfl
theorem low_modLane (x : Fin 16) (g : Lane → Lane) : Low s (s.modLane x g) := Keeps.of_regs rfl
theorem low_modTransit (n tid : Nat) (g : Transit → Transit) : Low s (s.modTransit n tid g) := Keeps.of_regs rfl
theorem low_modCap (n tid p : Nat) (g : Capture → Capture) : Low s (s.modCap n tid p g) := Keeps.of_regs rfl

theorem cp_high (p r : Nat) : 0x100000 ≤ 0x100000 + r + 0x10000 * (p % 4) := by omega
theorem cpState_high (p : Nat) : 0x100000 ≤ Reg.CP_STATE p := by unfold Reg.CP_STATE; omega
theorem cpEvent_high (p : Nat) : 0x100000 ≤ Reg.CP_EVENT p := by unfold Reg.CP_EVENT; omega
theorem lnState_high (x : Nat) : 0x100000 ≤ Reg.LN_STATE x := by unfold Reg.LN_STATE; omega

theorem low_cpEvent (p : Fin 4) (f : Fld) : Low s (s.cpEvent p f) := s.low_put _ _ _ (cpEvent_high p)
theorem low_cpError (p : Fin 4) (off : Nat) (f : Fld) (h : 0x100000 ≤ off) : Low s (s.cpError p off f) := by
  unfold cpError; split
  · exact Keeps.refl s
  · exact (s.low_bump _ _ h).trans (low_cpEvent _ _ _)
theorem low_cpCount (p : Fin 4) (off : Nat) (f : Fld) (h : 0x100000 ≤ off) : Low s (s.cpCount p off f) := by
  unfold cpCount; split
  · exact Keeps.refl s
  · exact s.low_bump _ _ h
theorem low_acqEvent (n : Nat) (f : Fld) : Low s (s.acqEvent n f) := s.low_put _ _ _ (by unfold Reg.ACQ_FN_EVENT; omega)
theorem low_degrade (n tid : Nat) : Low s (s.degrade n tid) := by
  unfold degrade
  split
  · split
    · exact Keeps.refl s
    · exact ((s.low_modTransit n tid _).trans (low_bump _ _ _ (by unfold Reg.ACQ_FN_CNT1; omega))).trans (low_acqEvent _ _ _)
  · exact Keeps.refl s
theorem low_rowMissing (n tid p k ch : Nat) : Low s (s.rowMissing n tid p k ch) := (s.low_modCap n tid p _).trans (low_degrade _ _ _)
theorem low_missingRows (p : Fin 4) (a : Awaited) (c : Bool) : Low s (s.missingRows p a c) := by
  unfold missingRows
  refine Keeps.foldl _ (fun s ch _ => Keeps.trans ?_ (low_rowMissing _ _ _ _ _ _)) _
  split
  · exact low_cpError _ _ _ _ (by unfold Reg.CP_LINE_ERR; omega)
  · exact Keeps.refl s
theorem low_dropQueue (p : Fin 4) : Low s (s.dropQueue p) := by
  unfold dropQueue
  exact ((s.low_modPort p _).trans (low_put _ _ _ _ (by unfold Reg.CP_TRQ; omega))).trans (Keeps.foldl _ (fun s a _ => low_missingRows s p a true) _)
theorem low_laneOff (x : Fin 16) : Low s (s.laneOff x) := by
  unfold laneOff
  refine Keeps.trans (Keeps.trans (t := if s.laneState x = 2 then s.put (Reg.LN_ACQ x) Fl.LN_ACQ_RESULT 4 else s) ?_
    (low_setReg _ _ _ (lnState_high x))) (low_modLane _ _ _)
  split
  · exact s.low_put _ _ _ (by unfold Reg.LN_ACQ; omega)
  · exact Keeps.refl s
theorem low_portLanesOff (p : Fin 4) : Low s (s.portLanesOff p) := Keeps.foldl _ (fun s _ _ => low_laneOff s _) _
theorem low_portIdle (p : Fin 4) : Low s (s.portIdle p) := by
  unfold portIdle
  have h := cpState_high p
  exact ((((((low_dropQueue s p).trans (low_portLanesOff _ p)).trans (low_modPort _ p _)).trans (low_put _ _ _ _ h)).trans
    (low_put _ _ _ _ h)).trans (low_put _ _ _ _ h)).trans (low_put _ _ _ _ h)
theorem low_portsIdle (n : Nat) : Low s (s.portsIdle n) := Keeps.foldl _ (fun s _ _ => low_portIdle s _) _
theorem low_setTaps (x : Nat) (t : Taps) : Low s (s.setTaps x t) :=
  (s.low_setReg _ _ (by unfold Reg.LN_TAPS0; omega)).trans (low_setReg _ _ _ (by unfold Reg.LN_TAPS1; omega))
theorem low_laneFreshEq (x : Nat) : Low s (s.laneFreshEq x) := (s.low_setTaps x _).trans (low_put _ _ _ _ (lnState_high x))
theorem low_laneAcquire (x : Fin 16) : Low s (s.laneAcquire x) := by
  unfold laneAcquire; split
  · exact Keeps.refl s
  · exact (((s.low_laneOff x).trans (low_laneFreshEq _ _)).trans (low_put _ _ _ _ (lnState_high x))).trans (low_modLane _ _ _)
theorem low_laneSettle (x : Fin 16) : Low s (s.laneSettle x) := by
  unfold laneSettle; split
  · exact Keeps.refl s
  · exact (((s.low_laneOff x).trans (low_put _ _ _ _ (lnState_high x))).trans (low_bump _ _ _ (by unfold Reg.LN_SYN; omega))).trans (low_modLane _ _ _)
theorem low_startAttempt (p : Fin 4) : Low s (s.startAttempt p) := by
  unfold startAttempt
  have h := cpState_high p
  refine Keeps.trans ?_ (Keeps.foldl _ (fun s r _ => low_laneAcquire s _) _)
  refine Keeps.trans ?_ (low_laneSettle _ _)
  refine Keeps.trans ?_ (low_portLanesOff _ _)
  refine Keeps.trans ?_ (low_put _ _ _ _ (by unfold Reg.CP_TRAIN; omega))
  refine Keeps.trans ?_ (low_modPort _ _ _)
  refine Keeps.trans ?_ (low_put _ _ _ _ h)
  exact ((low_put _ _ _ _ h).trans (low_put _ _ _ _ h)).trans ((low_put _ _ _ _ h).trans (low_put _ _ _ _ h))
theorem low_startTraining (p : Fin 4) : Low s (s.startTraining p) := (s.low_modPort p _).trans (low_startAttempt _ _)
theorem low_startPorts (n : Nat) : Low s (s.startPorts n) := Keeps.foldl _ (fun s p _ => by
  split
  · exact low_startTraining _ _
  · exact Keeps.refl _) _

theorem setFnState_state (n v : Nat) (h : v < 8) : (s.setFnState n v).fnState n = v := by
  unfold setFnState
  split
  · assumption
  · show State.get _ _ _ = v
    have hne : Reg.SYS_FN_STATE n ≠ Reg.SYS_FN_EVENT := by unfold Reg.SYS_FN_STATE Reg.SYS_FN_EVENT; omega
    rw [setBit_eq, get_put_other _ _ _ _ _ _ hne, get_put_same _ _ _ _ (by decide)]
    exact Nat.mod_eq_of_lt h
theorem setFnState_get (n v : Nat) (f : Fld) (h : fieldsApart Fl.SYS_FN_STATE_STATE f = true) :
    (s.setFnState n v).get (Reg.SYS_FN_STATE n) f = s.get (Reg.SYS_FN_STATE n) f := by
  unfold setFnState
  split
  · rfl
  · have hne : Reg.SYS_FN_STATE n ≠ Reg.SYS_FN_EVENT := by unfold Reg.SYS_FN_STATE Reg.SYS_FN_EVENT; omega
    rw [setBit_eq, get_put_other _ _ _ _ _ _ hne, get_put_field _ _ _ _ _ (by decide) h]
theorem setFnState_unregistered (n v : Nat) : (s.setFnState n v).unregistered = s.unregistered := by
  unfold setFnState; split <;> simp
theorem fnState_low (n : Nat) : Reg.SYS_FN_STATE n < 0x100000 := by unfold Reg.SYS_FN_STATE; omega

/-- A function that reaches STOPPED keeps the causes its register shows. -/
theorem fnStop_state (n : Nat) : (s.fnStop n).fnState n = 0 := by
  unfold fnStop fnState
  rw [get_of_reg _ ((low_portsIdle _ n) _ (fnState_low n))]
  exact setFnState_state _ _ _ (by decide)
theorem fnStop_get (n : Nat) (f : Fld) (h : fieldsApart Fl.SYS_FN_STATE_STATE f = true) :
    (s.fnStop n).get (Reg.SYS_FN_STATE n) f = s.get (Reg.SYS_FN_STATE n) f := by
  unfold fnStop
  rw [get_of_reg _ ((low_portsIdle _ n) _ (fnState_low n))]
  exact setFnState_get _ _ _ _ h

end State
end Sys2Proof.Machine
end

