-- ==== Sys2Proof/Laws/Transits.lean ====
section
/-! SUPPORT. Which transits are open: what leaves the open transits as they are, and what the close of one takes out. -/
namespace Sys2Proof.Machine.State
variable (s : State)

/-- Function and Transit ID of every open transit. -/
def tkeys (s : State) : List (Nat × Nat) := s.transits.map fun t => (t.fn, t.tid)

theorem tkeys_congr {x y : State} (h : y.transits = x.transits) : y.tkeys = x.tkeys := by unfold tkeys; rw [h]

theorem tkeys_modTransit (n tid : Nat) (g : Transit → Transit) (h : ∀ t, (g t).fn = t.fn ∧ (g t).tid = t.tid) : (s.modTransit n tid g).tkeys = s.tkeys := by
  unfold tkeys modTransit
  simp only [List.map_map]
  apply List.map_congr_left
  intro t _
  simp only [Function.comp]
  split
  · rw [(h t).1, (h t).2]
  · rfl

theorem transits_foldl {α : Type} {f : State → α → State} (h : ∀ s x, (f s x).transits = s.transits) (l : List α) (s : State) :
    (l.foldl f s).transits = s.transits := by
  induction l generalizing s with
  | nil => rfl
  | cons x l ih => rw [List.foldl_cons, ih, h]

theorem transits_setReg (a : Nat) (v : Word) : (s.setReg a v).transits = s.transits := rfl
theorem transits_put (a : Nat) (f : Fld) (v : Nat) : (s.put a f v).transits = s.transits := rfl
theorem transits_bump (a : Nat) (f : Fld) : (s.bump a f).transits = s.transits := rfl
theorem transits_wrapBy (a : Nat) (f : Fld) (n : Nat) : (s.wrapBy a f n).transits = s.transits := rfl
theorem transits_modRing (r : Nat) (f : Ring → Ring) : (s.modRing r f).transits = s.transits := rfl
theorem transits_modBand (n k i : Nat) (f : Band → Band) : (s.modBand n k i f).transits = s.transits := rfl
theorem transits_holdUpdate (r : Nat) : (s.holdUpdate r).transits = s.transits := by
  unfold holdUpdate; simp only; rw [transits_put, transits_put, transits_put]
theorem transits_fireVector (v : Nat) : (s.fireVector v).transits = s.transits :=
  (congrArg State.transits (fired_fireVector s v).unfired :)
theorem transits_fireRing (r : Nat) : (s.fireRing r).transits = s.transits := by
  unfold fireRing; rw [transits_fireVector, transits_modRing]
theorem transits_fireEnough (r : Nat) (b : Bool) : (s.fireEnough r b).transits = s.transits := by
  unfold fireEnough; split
  · exact transits_fireRing _ _
  · rfl
theorem transits_writeHost (a : Nat) (l : List Byte) : (s.writeHost a l).transits = s.transits := rfl
theorem transits_publishOne (r : Nat) (x : Placed) (o : DlvObj) : (s.publishOne r x o).transits = s.transits := by
  unfold publishOne
  simp only
  rw [transits_fireEnough, transits_modRing]
  have h1 : ∀ y : State, (if x.void then y.bump (Reg.DLV_CNT_VOID r) Fl.DLV_CNT_VOID_COUNT else y.wrapBy (Reg.DLV_CNT_OBJ r) Fl.DLV_CNT_OBJ_COUNT 1).transits = y.transits := by
    intro y; split
    · exact transits_bump _ _ _
    · exact transits_wrapBy _ _ _ _
  rw [h1, transits_setReg, transits_writeHost]
  have h3 : (match o.image, o.pos with
    | true, none => s.free 32
    | true, some v => (s, v)
    | false, _ => (s, ((s.anyTransit? o.fn o.tid).bind (·.lep)).getD 0)).1.transits = s.transits := by split <;> rfl
  split
  · split
    · exact h3
    · rw [transits_writeHost]; exact h3
  · exact h3
theorem transits_publishReady (r n : Nat) : (s.publishReady r n).transits = s.transits := by
  induction n generalizing s with
  | zero => rfl
  | succ n ih =>
    unfold publishReady
    split
    · split
      · split
        · rfl
        · rw [ih, transits_publishOne]
      · rfl
    · rfl
theorem transits_publish (r : Nat) : (s.publish r).transits = s.transits := transits_publishReady _ _ _
theorem transits_decideRing (t : Transit) (ok : Bool) (r : Nat) : (s.decideRing t ok r).transits = s.transits := by
  unfold decideRing; simp only; rw [transits_publish, transits_holdUpdate, transits_modRing]
theorem transits_dlvRelease : s.dlvRelease.transits = s.transits := by
  unfold dlvRelease
  refine transits_foldl (fun s b => ?_) _ _
  split
  · rfl
  · refine transits_foldl (fun s x => ?_) _ _
    split
    · exact transits_modBand _ _ _ _ _
    · rfl
theorem transits_enqueue (o : DlvObj) : (enqueue s o).transits = s.transits := by
  unfold enqueue; split
  · exact transits_bump _ _ _
  · rfl

theorem tkeys_decideTransit (n tid : Nat) : (s.decideTransit n tid).tkeys = s.tkeys := by
  unfold decideTransit
  split
  · rfl
  · split
    · rfl
    · simp only
      rw [tkeys_congr (transits_dlvRelease _), tkeys_congr (transits_foldl (fun s r => transits_decideRing s _ _ _) _ _)]
      split
      · exact tkeys_modTransit _ _ _ _ fun _ => ⟨rfl, rfl⟩
      · exact tkeys_modTransit _ _ _ _ fun _ => ⟨rfl, rfl⟩
theorem tkeys_degrade (n tid : Nat) : (s.degrade n tid).tkeys = s.tkeys := by
  unfold degrade
  split
  · split
    · rfl
    · unfold acqEvent
      rw [tkeys_congr (transits_put _ _ _ _), tkeys_congr (transits_bump _ _ _)]
      exact tkeys_modTransit _ _ _ _ fun _ => ⟨rfl, rfl⟩
  · rfl

theorem transits_abandonJobs (n tid : Nat) : (s.abandonJobs n tid).transits = s.transits := rfl

theorem tkeys_filter (l : List Transit) (n tid : Nat) :
    (l.filter fun x => !(x.fn == n && x.tid == tid)).map (fun t => (t.fn, t.tid)) = (l.map fun t => (t.fn, t.tid)).filter (· != (n, tid)) := by
  induction l with
  | nil => rfl
  | cons t l ih =>
    have e : (!(t.fn == n && t.tid == tid)) = ((t.fn, t.tid) != (n, tid)) := by
      rw [Bool.eq_iff_iff]; simp [Prod.ext_iff, Decidable.imp_iff_not_or]
    rw [List.map_cons, List.filter_cons, List.filter_cons, e]
    cases h : ((t.fn, t.tid) != (n, tid))
    · exact ih
    · simp only [if_true, List.map_cons, ih]

theorem tkeys_closeBegin (n tid : Nat) (b : Bool) : (s.closeBegin n tid b).tkeys = s.tkeys := by
  have h1 : (if (b || s.flag Reg.PCX_HOSTLOSS Fl.PCX_HOSTLOSS_FIELD_HELD) = true then s.degrade n tid else s).tkeys = s.tkeys := by
    split
    · exact tkeys_degrade _ _ _
    · rfl
  have h2 : ∀ y : State, y.tkeys = s.tkeys → (if b = true then y.abandonJobs n tid else y).tkeys = s.tkeys := by
    intro y hy; split
    · exact (tkeys_congr (transits_abandonJobs y n tid)).trans hy
    · exact hy
  unfold closeBegin
  refine h2 _ ?_
  generalize (if (b || s.flag Reg.PCX_HOSTLOSS Fl.PCX_HOSTLOSS_FIELD_HELD) = true then s.degrade n tid else s) = y at h1
  split
  · split
    · exact (tkeys_modTransit (y.free 32).1 n tid (fun t => { t with lep := some (y.free 32).2 }) fun _ => ⟨rfl, rfl⟩).trans h1
    · exact h1
  · exact h1

theorem tkeys_closeEnd (n tid : Nat) (b : Bool) (t : Transit) : (s.closeEnd n tid b t).tkeys = s.tkeys.filter (· != (n, tid)) := by
  unfold closeEnd acqEvent
  simp only
  rw [tkeys_congr (transits_dlvRelease _), tkeys_congr (transits_put _ _ _ _), tkeys_congr (transits_wrapBy _ _ _ _),
    tkeys_congr (transits_put _ _ _ _), tkeys_congr (transits_setReg _ _ _)]
  unfold tkeys
  simp only
  rw [tkeys_filter, transits_foldl transits_enqueue]
  split
  · rw [transits_bump]
  · rfl

/-- A transit that closes is open no more, and every other stays open. -/
theorem tkeys_closeTransit (n tid : Nat) (b : Bool) : (s.closeTransit n tid b).tkeys = s.tkeys.filter (· != (n, tid)) := by
  unfold closeTransit
  simp only
  have hz := (tkeys_decideTransit (s.closeBegin n tid b) n tid).trans (tkeys_closeBegin s n tid b)
  generalize (s.closeBegin n tid b).decideTransit n tid = z at hz
  split
  · rename_i hn
    rw [hz, List.filter_eq_self.2]
    intro a ha
    rw [← hz] at ha
    unfold tkeys at ha
    obtain ⟨t, ht, rfl⟩ := List.mem_map.1 ha
    have := List.find?_eq_none.1 hn t ht
    simp only [Bool.and_eq_true, beq_iff_eq, not_and] at this
    simp only [bne_iff_ne, ne_eq, Prod.mk.injEq, not_and]
    exact this
  · rw [tkeys_closeEnd, hz]

/-- When every transit of a function has been closed, none is open. -/
theorem openOf_closeAll (n : Nat) (b : Bool) : ((s.openOf n).foldl (fun s t => s.closeTransit n t.tid b) s).openOf n = [] := by
  have key : ∀ (l : List Transit) (s : State), (∀ k ∈ s.tkeys, k.1 = n → ∃ t ∈ l, t.tid = k.2) →
      ∀ k ∈ (l.foldl (fun s t => s.closeTransit n t.tid b) s).tkeys, k.1 ≠ n := by
    intro l
    induction l with
    | nil => intro s h k hk e; obtain ⟨t, ht, -⟩ := h k hk e; cases ht
    | cons t l ih =>
      intro s h
      rw [List.foldl_cons]
      apply ih
      intro k hk e
      rw [tkeys_closeTransit] at hk
      obtain ⟨h1, h2⟩ := List.mem_filter.1 hk
      obtain ⟨u, hu, hv⟩ := h k h1 e
      rcases List.mem_cons.1 hu with rfl | hu
      · exfalso
        simp only [bne_iff_ne, ne_eq] at h2
        exact h2 (Prod.ext e hv.symm)
      · exact ⟨u, hu, hv⟩
  have h0 := key (s.openOf n) s (by
    intro k hk e
    obtain ⟨t, ht, rfl⟩ := List.mem_map.1 hk
    exact ⟨t, List.mem_filter.2 ⟨ht, by simpa using e⟩, rfl⟩)
  unfold openOf at h0 ⊢
  rw [List.filter_eq_nil_iff]
  intro t ht hf
  exact h0 (t.fn, t.tid) (List.mem_map.2 ⟨t, ht, rfl⟩) (by simpa using hf)

end Sys2Proof.Machine.State

namespace Sys2Proof.Machine.State
variable (s : State)

theorem openOf_nil (n : Nat) : s.openOf n = [] ↔ ∀ k ∈ s.tkeys, k.1 ≠ n := by
  unfold openOf tkeys
  rw [List.filter_eq_nil_iff]
  simp

theorem tkeys_foldl {α : Type} {f : State → α → State} (h : ∀ s x, (f s x).tkeys = s.tkeys) (l : List α) (s : State) :
    (l.foldl f s).tkeys = s.tkeys := by
  induction l generalizing s with
  | nil => rfl
  | cons x l ih => rw [List.foldl_cons, ih, h]

theorem tkeys_modCap (n tid p : Nat) (g : Capture → Capture) : (s.modCap n tid p g).tkeys = s.tkeys :=
  tkeys_modTransit _ _ _ _ fun _ => ⟨rfl, rfl⟩
theorem transits_cpError (p : Fin 4) (off : Nat) (f : Fld) : (s.cpError p off f).transits = s.transits := by
  unfold cpError cpEvent; split
  · rfl
  · rw [transits_put, transits_bump]
theorem tkeys_missingRows (p : Fin 4) (a : Awaited) (c : Bool) : (s.missingRows p a c).tkeys = s.tkeys := by
  unfold missingRows
  refine tkeys_foldl (fun s ch => ?_) _ _
  unfold rowMissing
  rw [tkeys_degrade, tkeys_modCap]
  split
  · exact tkeys_congr (transits_cpError _ _ _ _)
  · rfl
theorem transits_modPort (q : Fin 4) (g : Port → Port) : (s.modPort q g).transits = s.transits := rfl
theorem transits_modLane (x : Fin 16) (g : Lane → Lane) : (s.modLane x g).transits = s.transits := rfl
theorem tkeys_dropQueue (p : Fin 4) : (s.dropQueue p).tkeys = s.tkeys := by
  unfold dropQueue
  simp only
  rw [tkeys_foldl (fun s a => tkeys_missingRows s p a true), tkeys_congr (transits_put _ _ _ _), tkeys_congr (transits_modPort _ _ _)]
theorem transits_laneOff (x : Fin 16) : (s.laneOff x).transits = s.transits := by
  unfold laneOff; simp only; rw [transits_modLane, transits_setReg]; split
  · rw [transits_put]
  · rfl
theorem tkeys_portIdle (p : Fin 4) : (s.portIdle p).tkeys = s.tkeys := by
  unfold portIdle setStep setPortState
  simp only
  rw [tkeys_congr (transits_put _ _ _ _), tkeys_congr (transits_put _ _ _ _), tkeys_congr (transits_put _ _ _ _), tkeys_congr (transits_put _ _ _ _),
    tkeys_congr (transits_modPort _ _ _)]
  unfold portLanesOff
  rw [tkeys_congr (transits_foldl (fun s _ => transits_laneOff s _) _ _), tkeys_dropQueue]
theorem transits_setFnState (n v : Nat) : (s.setFnState n v).transits = s.transits := (transits_of_unregistered (s.setFnState_unregistered n v))
theorem tkeys_fnStop (n : Nat) : (s.fnStop n).tkeys = s.tkeys := by
  unfold fnStop portsIdle
  rw [tkeys_foldl (fun s p => tkeys_portIdle s _), tkeys_congr (transits_setFnState _ _ _)]

/-- R25: what stops a function at once leaves it STOPPED with its cause and none of its transits open. -/
theorem stopNow_state (n c : Nat) (h : c < 8) : (s.stopNow n c).fnState n = 0 ∧
    (s.stopNow n c).get (Reg.SYS_FN_STATE n) Fl.SYS_FN_STATE_LAST_STOP_CAUSE = c ∧ (s.stopNow n c).openOf n = [] := by
  unfold stopNow setCause
  refine ⟨fnStop_state _ _, ?_, ?_⟩
  · rw [fnStop_get _ _ _ (by decide), get_put_same _ _ _ _ (by decide)]
    exact Nat.mod_eq_of_lt (Nat.lt_of_lt_of_le h (by decide))
  · rw [openOf_nil, tkeys_fnStop, tkeys_congr (transits_put _ _ _ _), ← openOf_nil]
    exact openOf_closeAll _ _ _

end Sys2Proof.Machine.State
end

