-- ==== Sys2Proof/WellFormed.lean ====
section
/-! DEFINITION. Well-formed commands: an operand that the row's event bounds lies within its bounds. Every command has its meaning whether it
is well formed or not. -/
namespace Sys2Proof

/-- Size in bytes of a BAR (Table 4-2). -/
def barSize : Bar → Nat
  | .bar0 => 0x1000000
  | .bar4 => 0x4000

def wordsOk (w : Nat) (l : List Nat) : Bool := l.all fun x => decide (x < 2 ^ w)
def eccOk (l : List EccErr) : Bool := l.all fun e => decide (e.mem < 3)

/-- The check of a command. -/
def Instr.wf : Instr → Bool
  | .registerWrite _ bar off size _ => decide (1 ≤ size ∧ size ≤ 8 ∧ off + size ≤ barSize bar)
  | .pairLowRead _ off => Machine.pairLow off
  | .pairHighRead _ off => Machine.pairHigh off
  | .pairLowWrite _ off _ => Machine.writePairLow off
  | .pairHighWrite _ off _ => Machine.writePairHigh off
  -- Table 4-15
  | .pcieLinkUp speed width _ => decide (1 ≤ speed ∧ speed ≤ 4) && [1, 2, 4, 8].contains width
  -- samples fall at multiples of 1 ms, 100 us and 10 ms (R528)
  | .vhSample mv t => decide (mv < 2 ^ 16 ∧ t % 500000 = 0)
  | .tempSample _ t => decide (t % 50000 = 0)
  | .vfSample mv t => decide (mv < 2 ^ 16 ∧ t % 5000000 = 0)
  | .bar2Write _ off data => !data.isEmpty && decide (off + data.length ≤ 0x2000000)
  | .bar2Read _ off n _ => decide (0 < n ∧ off + n ≤ 0x2000000)
  | .fxWrite _ a _ => decide (a < 0x10000)
  | .fxRead _ a => decide (a < 0x10000)
  | .hzTrainFail step _ => decide (step < 16)
  | .hzShortRetrainDone fail _ => decide (fail.getD 0 < 16)
  | .zlTxnDispatch _ slots _ => decide (slots.length ≤ 48)
  | .lnAcqDone _ ctle efm _ _ _ => decide (ctle < 16 ∧ efm < 256)
  | .lnEfmWindowEnd _ efm => decide (efm < 256)
  | .lnReacqDone _ efm _ _ => decide (efm < 256)
  | .lineMessage _ words _ _ => wordsOk 16 words
  | .hcRespMessage _ words => wordsOk 16 words
  | .headEventMessage _ words => wordsOk 16 words
  -- causes of Table 10-9
  | .cpTrainFail _ cause _ _ => decide (1 ≤ cause ∧ cause ≤ 10)
  | .jobComplete _ _ errs => eccOk errs
  | .dlvObjectDeliver _ errs => eccOk errs
  | .blockResetEnd src => decide (src < 64)
  | .collectorIntegrityFault copy byte _ _ => decide (byte < if copy.val = 2 then 8 else 24)
  | .casFrameReceived words _ _ => wordsOk 16 words
  | .casFrameReturned words _ _ _ => wordsOk 16 words
  | .start .. | .stop .. | .abort .. | .bringupComplete .. | .bringupTimeout .. | .drainTimeout .. | .fieldToHostBeat .. | .hostToFieldBeat ..
  | .lepFix .. | .transitClose .. | .jobDispatch .. | .resultExists .. | .verdictExists .. | .vhPowerOn .. | .vhBrownOut .. | .vhPowerLoss ..
  | .railsPowerGood .. | .pllLock .. | .pllLockLoss .. | .refclkLoss .. | .sclkLoss .. | .refclkReturn .. | .railOutOfWindow .. | .pwrSleep ..
  | .pwrPark .. | .pwrWake .. | .sleepExitComplete .. | .parkSelftestStart .. | .parkEntryComplete .. | .parkEntryAborted ..
  | .parkExitComplete .. | .resetPin .. | .sysResetCmd .. | .chipResetEnd .. | .vfPowerOn .. | .vfPowerLoss .. | .perstAssert ..
  | .perstDeassert .. | .pcieLinkTrainStart .. | .pcieLinkDown .. | .pcieHotReset .. | .pcieLinkDisable .. | .pcieFlr .. | .pcieBmeClear ..
  | .pcieD3hotEntry .. | .pcieD0Entry .. | .pciePoisonedWrite .. | .pcieUnsupportedRequest .. | .msixEnable .. | .hostlossRelease ..
  | .aelClear .. | .chtOpen .. | .chtClose .. | .chtCommit .. | .commitComplete .. | .chtDataWrite .. | .chtDataRead .. | .weightHashDone ..
  | .bootDirectoryRead .. | .bootFlashTimeout .. | .bootChartRead .. | .offsetCalDone .. | .spiWrite .. | .spiRead .. | .spiReadComplete ..
  | .spiResult .. | .spiStatus .. | .spiId .. | .spiBadCommand .. | .spiFrameEnd .. | .spiWfifoDrain .. | .sspErrClear .. | .bspRead ..
  | .bspErase4k .. | .bspProgram .. | .bspOpComplete .. | .bspTimeout .. | .hzTrainStart .. | .hzRetrain .. | .hzJensLock .. | .hzTrainUp ..
  | .hzTrainWait .. | .hzPhaseMeasure .. | .beatLossDetect .. | .relayTimeout .. | .attnPoll .. | .hzSerTxWrite .. | .hzSerTxwWrite ..
  | .hzSerRxRead .. | .hzSerRxwRead .. | .hzCntClear .. | .pfiQuadEdge .. | .pfiToothEdge .. | .pfiStandstill .. | .pfiErrClear ..
  | .emuRateUpdate .. | .emuCountEmit .. | .emuResync .. | .emuRatioWrite .. | .gateFireDue .. | .gatePeakEnd .. | .gateHoldEnd ..
  | .gateFlush .. | .overcurrent .. | .ocClear .. | .fspMasterFrameStart .. | .fspMasterWord .. | .fspCsGapTimeout .. | .fspSlaveSelect ..
  | .fspSlaveWord .. | .fspSlaveDeselect .. | .fspErrClear .. | .zlReply .. | .zlReplyTimeout .. | .zlAttention .. | .zlSupervisePing ..
  | .zlTxnStart .. | .zlDiscover .. | .zlBindNew .. | .zlStartReleaseEnd .. | .zlStuck .. | .zlReleased .. | .zlErrClear .. | .lnPhaseLock ..
  | .lnAcqNoLock .. | .lnEpochEnd .. | .lnLockLoss .. | .lnClockLoss .. | .lnSynLock .. | .lnSynTimeout .. | .lnSynLockLoss .. | .lnRecal ..
  | .lnCalDone .. | .lnCntClear .. | .laneMarker .. | .trainingBlock .. | .lineTimeout .. | .hcRead .. | .hcWrite .. | .hcTimeout ..
  | .cpTrainingDone .. | .cpTrainRetry .. | .cpRejoinTimeout .. | .cpPortRejoin .. | .cpPresence .. | .cpPresenceLoss .. | .cpRetrain ..
  | .cpTrqRelease .. | .cpCntClear .. | .lineTriggerIssue .. | .lineTimerTick .. | .acqCntClear .. | .ltgCntClear .. | .stsCntClear ..
  | .engineCntClear .. | .pstCntClear .. | .vrdCntClear .. | .vrdHitClear .. | .dlvBpTimeout .. | .dlvConsWrite .. | .dlvEnable ..
  | .dlvDisable .. | .dlvIrqTimer .. | .dlvCntClear .. | .evtMapWrite .. | .evtVmaskWrite .. | .fcuStatusClear .. | .fcuSafeCmd ..
  | .fcuDebugHalt .. | .fcuDebugResume .. | .fcuInjectGo .. | .fcuInjectIntegrity .. | .fcuCntClear .. | .wdtEnable .. | .wdtKeyArm ..
  | .wdtKeyServe .. | .wdtKeyBad .. | .wdtExpiry .. | .wdtWarn .. | .bistSliceStart .. | .bistSliceDone .. | .bistBudgetExpiry ..
  | .bistRecordFlashDone .. | .bistQuickSliceTimeout .. | .bistRetest .. | .bistRetestDone .. | .casRelink .. | .casRelinkTimer ..
  | .casSampleApply .. | .casMessageApply .. | .casLinkupTimeout .. | .casCntClear .. | .missingBeat .. | .isnsSample .. | .zlGlitch ..
  | .unexpectedMessage .. | .idleErr .. => true

end Sys2Proof
end

