-- ==== Sys2Proof/Tests/Slice0.lean ====
section
/-! SUPPORT. The model's own tests: an ill-formed command for each check of WellFormed; for each statement with hypotheses a witness that meets
them, clause by clause; and single steps against what the spec says. -/
set_option Elab.async false
namespace Sys2Proof.Machine.Tests
open Sys2Proof.Machine.State

/-! ## Small states -/

/-- Fields of Nahar's registers set to values. -/
def withRegs (l : List (Nat × Fld × Nat)) (s : State) : State := l.foldl (fun s x => s.put x.1 x.2.1 x.2.2) s

/-- Fields of Jens's registers set to values. -/
def withField (l : List (Nat × Fld × Nat)) (s : State) : State := l.foldl (fun s x => s.jput x.1 x.2.1 x.2.2) s

/-- The device in RUN with SCLK running and Jens powered, nothing else done since reset. -/
def live : State :=
  ({ reset with
     pw := { reset.pw with level1 := true, bootStep := 13, strapped := true, vf := true }
     clk := { reset.clk with sclk := true } } : State).put Reg.PWR_STATE Fl.PWR_STATE_STATE 2

/-- The same with Horizon UP and Jens trained. -/
def up : State :=
  withField [(Reg.MIR_STATE, Fl.MIR_STATE_FAILSAFE, 0), (Reg.EMU_STATUS 0, Fl.EMU_STATUS_FROZEN, 0), (Reg.EMU_STATUS 1, Fl.EMU_STATUS_FROZEN, 0)]
    { live.put Reg.HZ_STATUS Fl.HZ_STATUS_STATE 5 with jens := { live.jens with fsUntrained := false } }

/-- The same with the PCI Express link up and Bus Master Enable set. -/
def hosted : State := ({ live with pcie := { live.pcie with linkUp := true, perst := false } } : State).put Reg.PCX_LINK Fl.PCX_LINK_BME 1

/-- A run of `n` bytes, zero but where the list says otherwise. -/
def bytesAt (n : Nat) (l : List (Nat × Nat)) : List Nat := (List.range n).map fun i => ((l.find? fun x => x.1 == i).map (·.2)).getD 0

/-- A committed Chart of sections (type, instance, bytes). -/
def chartOf (l : List (Nat × Nat × List (Nat × Nat))) : Option Chart :=
  some ⟨0, 0, false, l.map fun x => ⟨x.1, x.2.1, 0, 256, 0, bytesAt 256 x.2.2⟩⟩

/-- Function 0 in a state. -/
def fn0 (k : Nat) (s : State) : State := s.put (Reg.SYS_FN_STATE 0) Fl.SYS_FN_STATE_STATE k

/-! ## Ill-formed commands are refused by the check, one for each check of WellFormed -/

theorem test_wf_register_write : (Instr.registerWrite .spi .bar0 0x0 0 0).wf = false ∧ (Instr.registerWrite .spi .bar0 0x0 9 0).wf = false ∧
    (Instr.registerWrite .spi .bar0 0xFFFFFD 4 0).wf = false ∧ (Instr.registerWrite .pcie .bar4 0x3FFD 4 0).wf = false ∧
    (Instr.registerWrite .pcie .bar4 0x3FFC 4 0).wf = true := by decide
theorem test_wf_pairs : (Instr.pairLowRead .spi 0x0).wf = false ∧ (Instr.pairHighRead .spi 0x0).wf = false ∧
    (Instr.pairLowWrite .spi 0x0 0).wf = false ∧ (Instr.pairHighWrite .spi 0x0 0).wf = false := by decide
theorem test_wf_link_up : (Instr.pcieLinkUp 0 1 0).wf = false ∧ (Instr.pcieLinkUp 5 1 0).wf = false ∧ (Instr.pcieLinkUp 4 3 0).wf = false ∧
    (Instr.pcieLinkUp 4 8 0).wf = true := by decide
theorem test_wf_samples : (Instr.vhSample 0x10000 500000).wf = false ∧ (Instr.vhSample 0 1).wf = false ∧ (Instr.tempSample 0 49999).wf = false ∧
    (Instr.vfSample 0x10000 5000000).wf = false ∧ (Instr.vfSample 0 500000).wf = false := by decide
theorem test_wf_bar2 : (Instr.bar2Write .spi 0 []).wf = false ∧ (Instr.bar2Write .spi 0x2000000 [none]).wf = false ∧
    (Instr.bar2Read .spi 0 0 none).wf = false ∧ (Instr.bar2Read .spi 0x1FFFFFF 2 none).wf = false := by decide
theorem test_wf_field_window : (Instr.fxWrite .spi 0x10000 0).wf = false ∧ (Instr.fxRead .spi 0x10000).wf = false := by decide
theorem test_wf_training_steps : (Instr.hzTrainFail 16 0).wf = false ∧ (Instr.hzShortRetrainDone (some 16) 0).wf = false ∧
    (Instr.cpTrainFail 0 0 0 0).wf = false ∧ (Instr.cpTrainFail 0 11 0 0).wf = false ∧ (Instr.cpTrainFail 0 10 0 0).wf = true := by decide
theorem test_wf_search_slots : (Instr.zlTxnDispatch 0 (List.replicate 49 (true, true)) 0).wf = false := by decide
theorem test_wf_lanes : (Instr.lnAcqDone 0 16 0 ⟨0, 0, 0, 0, 0, 0⟩ false 0).wf = false ∧
    (Instr.lnAcqDone 0 0 256 ⟨0, 0, 0, 0, 0, 0⟩ false 0).wf = false ∧ (Instr.lnEfmWindowEnd 0 256).wf = false ∧
    (Instr.lnReacqDone 0 256 ⟨0, 0, 0, 0, 0, 0⟩ 0).wf = false := by decide
theorem test_wf_messages : (Instr.lineMessage 0 [0x10000] [] 0).wf = false ∧ (Instr.hcRespMessage 0 [0x10000]).wf = false ∧
    (Instr.headEventMessage 0 [0x10000]).wf = false ∧ (Instr.casFrameReceived [0x10000] 0 0).wf = false ∧
    (Instr.casFrameReturned [0x10000] 0 0 0).wf = false := by decide
theorem test_wf_memory_errors : (Instr.jobComplete 0 0 [⟨3, 0, 0, true⟩]).wf = false ∧ (Instr.dlvObjectDeliver 0 [⟨3, 0, 0, true⟩]).wf = false := by
  decide
theorem test_wf_collector : (Instr.blockResetEnd 64).wf = false ∧ (Instr.collectorIntegrityFault 2 8 0 false).wf = false ∧
    (Instr.collectorIntegrityFault 0 24 0 false).wf = false ∧ (Instr.collectorIntegrityFault 0 23 0 false).wf = true := by decide

/-! ## Witnesses: the machine, registers, counts, watchdog, reset, power -/

theorem witness_EmptyQueueLetsTimePass : (reset.pending = [] ∧ reset.calm = true ∧ reset.clk.sclk = false) ∧
    (live.pending = [] ∧ live.calm = true ∧ live.clk.sclk = true) := by decide

theorem witness_EndOfCommandFrame : live.calm = true := by decide

/-- What WriteTakesEachFieldByCode asks of a state and an offset, where the register is one of the table's. -/
def plainWrite (s : State) (p : Path) (off : Nat) : Bool :=
  s.reaches p && s.calm && s.answersAt off && plainOffset off && !settles off && !fires off && !s.effectOnly off &&
    (barReg off).any fun d => decide (d.fields.Pairwise fun f g => f.fld.lsb + f.fld.width ≤ g.fld.lsb ∨ g.fld.lsb + g.fld.width ≤ f.fld.lsb) &&
      d.fields.all fun f => decide (f.fld.lsb + f.fld.width ≤ 32)

theorem witness_WriteTakesEachFieldByCode_w1c : plainWrite live .spi Reg.HZ_EVENT = true ∧
    (∀ (x : State) (v w : Word), x.busEffect .spi Reg.HZ_EVENT v w = x) ∧
    (∀ w : Word, live.clampBus Reg.HZ_EVENT (dropBus Reg.HZ_EVENT w) = w) :=
  ⟨by decide, fun _ _ _ => rfl, fun _ => rfl⟩
theorem witness_WriteTakesEachFieldByCode_rws : plainWrite live .spi (Reg.DLV_WIN_SIZE 0) = true ∧
    live.refuses (live.busOwners (Reg.DLV_WIN_SIZE 0)) .rws = false ∧
    (∀ (x : State) (v w : Word), x.busEffect .spi (Reg.DLV_WIN_SIZE 0) v w = x) ∧
    (∀ w : Word, live.clampBus (Reg.DLV_WIN_SIZE 0) (dropBus (Reg.DLV_WIN_SIZE 0) w) = w) := by
  refine ⟨by decide, by decide, fun x _ _ => ?_, fun _ => rfl⟩
  by_cases h : x.isSafe = true <;> simp [busEffect, h] <;> rfl
/-- A function of the Chart accepts ring 0 and is ARMED: the ring refuses its RWS fields. -/
def ringOwned : State := fn0 2 { live with chart := chartOf [(0x10, 0, [(0x20, 1)])] }

theorem witness_WriteTakesEachFieldByCode_refused : plainWrite ringOwned .spi (Reg.DLV_WIN_SIZE 0) = true ∧
    ringOwned.refuses (ringOwned.busOwners (Reg.DLV_WIN_SIZE 0)) .rws = true ∧
    (∀ w : Word, ringOwned.clampBus (Reg.DLV_WIN_SIZE 0) (dropBus (Reg.DLV_WIN_SIZE 0) w) = w) := ⟨by decide, by decide, fun _ => rfl⟩

theorem witness_PairsPassThroughThePath :
    (hosted.reaches .pcie = true ∧ hosted.calm = true ∧ hosted.busReason Reg.SYS_TS_LO 4 = none ∧ inFx Reg.SYS_TS_LO = false ∧
      pairLow Reg.SYS_TS_LO = true ∧ pairHigh Reg.SYS_TS_LO = false) ∧
    (hosted.busReason Reg.SYS_TS_HI 4 = none ∧ inFx Reg.SYS_TS_HI = false ∧ pairHigh Reg.SYS_TS_HI = true) ∧
    (hosted.busReason (Reg.DLV_DESC_BASE_LO 127) 4 = none ∧ inFx (Reg.DLV_DESC_BASE_LO 127) = false ∧
      writePairLow (Reg.DLV_DESC_BASE_LO 127) = true) := by decide

theorem witness_PairHighWriteTakesTheShadow :
    let s := live.shadowLow .spi 0x12345678
    (s.reaches .spi = true ∧ s.calm = true ∧ s.isPark = false ∧ s.refuses (s.busOwners 0x40000C) .rws = false ∧
      (s.pathOf .spi).shadow = some 0x12345678) ∧ (live.pathOf .spi).shadow = none := by decide

theorem witness_CountsClear : live.reaches .spi = true ∧ live.calm = true ∧ live.isPark = false ∧ live.isSafe = false ∧ getF 1 ⟨0, 1⟩ = 1 ∧
    live.laneRole 0 ≠ 2 ∧ live.laneRole 0 ≠ 3 := by decide

/-- The watchdog runs with a timeout of 10 ms and a warning 4 ms before it; the sequence is armed where `armed` says so. -/
def dog (armed : Nat) : State :=
  { withRegs [(Reg.WDT_CTRL, Fl.WDT_CTRL_ENABLE, 1), (Reg.WDT_STATUS, Fl.WDT_STATUS_ARMED, armed)] live with wdtTimeout := 10, wdtWarn := 4 }
def dogAsleep : State := (dog 0).put Reg.PWR_STATE Fl.PWR_STATE_STATE 3

theorem witness_WatchdogRuns :
    (live.reaches .spi = true ∧ live.calm = true ∧ live.isPark = false ∧ live.wdtOn = false) ∧
    ((dog 0).reaches .spi = true ∧ (dog 0).calm = true ∧ (dog 0).isPark = false ∧ (dog 0).wdtOn = true ∧
      (dog 0).flag Reg.WDT_STATUS Fl.WDT_STATUS_ARMED = false) ∧
    ((dog 1).reaches .spi = true ∧ (dog 1).calm = true ∧ (dog 1).isPark = false ∧ (dog 1).wdtOn = true ∧
      (dog 1).flag Reg.WDT_STATUS Fl.WDT_STATUS_ARMED = true) ∧
    -- a wrong key in RUN, the serving key unarmed among them, and in SLEEP
    (¬(getF 0xC3 Fl.WDT_KEY_KEY = 0x5A ∧ (dog 0).flag Reg.WDT_STATUS Fl.WDT_STATUS_ARMED = false) ∧
      ¬(getF 0xC3 Fl.WDT_KEY_KEY = 0xC3 ∧ (dog 0).flag Reg.WDT_STATUS Fl.WDT_STATUS_ARMED = true) ∧ (dog 0).wakes = false ∧
      (dog 0).pw.held = false) ∧
    (dogAsleep.reaches .spi = true ∧ dogAsleep.calm = true ∧ dogAsleep.isPark = false ∧ dogAsleep.wdtOn = true ∧ dogAsleep.isSleep = true) ∧
    -- the cycle in which the count reaches the timeout, and the one before
    ((dog 0).clocked = true ∧ ((dog 0).atTime 5000000).wdtDue = true ∧ ((dog 0).atTime 4999999).wdtDue = false) ∧
    (dogAsleep.clocked = true ∧ (dogAsleep.atTime 5000000).wdtDue = true) ∧
    ((dog 0).wdtWarn ≠ 0 ∧ (dog 0).wdtWarned = false ∧ ((dog 0).wdtTimeout - (dog 0).wdtWarn) * 500000 ≤ (dog 0).wdtCount + (3000000 - (dog 0).clk.ts)) := by
  decide

theorem witness_ChipResetBegins : live.calm = true ∧ live.reaches .spi = true ∧ live.pw.held = false ∧ live.pw.off = false ∧
    live.pw.vh = .good ∧ hosted.calm = true ∧ hosted.reaches .pcie = true ∧ (0x2640C0DF : Word) ≠ 0x2640C0DE := by decide

/-- Power states of the boot: OFF, the supply between its thresholds, chip reset held, and step 3 with REFCLK running. -/
def offState : State := { reset with pw := { reset.pw with vh := .below160, off := true, held := true, rails := false, bootStep := 0 } }
def betweenState : State := { reset with pw := { reset.pw with vh := .between, held := true } }
def heldState : State := { reset with pw := { reset.pw with held := true } }
def refclkState : State :=
  ({ reset with pw := { reset.pw with strapped := true, bootStep := 3 } } : State).put Reg.CLK_STATUS Fl.CLK_STATUS_REFCLK_OK 1

theorem witness_PowerUpRunsInOrder : live.calm = true ∧ (offState.calm = true ∧ offState.pw.vh = .below160) ∧
    (betweenState.calm = true ∧ betweenState.pw.vh = .between) ∧
    (reset.calm = true ∧ reset.pw.off = false ∧ reset.pw.vh = .good ∧ reset.pw.level1 = false ∧ reset.pw.bootStep < 3 ∧
      reset.pw.strapped = false ∧ reset.pw.held = false) ∧
    (heldState.calm = true ∧ heldState.pw.held = true ∧ heldState.pw.vh = .good ∧ heldState.pw.rails = true ∧ heldState.pw.strapped = false) ∧
    (refclkState.calm = true ∧ refclkState.pw.held = false ∧ refclkState.pw.off = false ∧ refclkState.pw.level1 = false ∧
      refclkState.pw.bootStep = 3 ∧ refclkState.flag Reg.CLK_STATUS Fl.CLK_STATUS_REFCLK_OK = true ∧
      refclkState.flag Reg.CLK_STATUS Fl.CLK_STATUS_BYPASS = false) := by decide

def locked : State := (live.put Reg.CLK_STATUS Fl.CLK_STATUS_PLL_LOCK 1).put Reg.CLK_STATUS Fl.CLK_STATUS_REFCLK_OK 1
def safe : State := ({ live with pw := { live.pw with safeCause := 5 } } : State).put Reg.PWR_STATE Fl.PWR_STATE_STATE 5

theorem witness_ClockAndRailLosses :
    (locked.alive = true ∧ locked.flag Reg.CLK_STATUS Fl.CLK_STATUS_REFCLK_OK = true ∧ locked.flag Reg.CLK_STATUS Fl.CLK_STATUS_PLL_LOCK = true ∧ locked.chartOk = false ∧ locked.isSafe = false ∧
      locked.pw.rails = true) ∧
    (({ locked with chart := chartOf [] } : State).alive = true ∧ ({ locked with chart := chartOf [] } : State).chartOk = true ∧
      ({ locked with chart := chartOf [] } : State).flag Reg.CLK_STATUS Fl.CLK_STATUS_REFCLK_OK = true ∧
      ({ locked with chart := chartOf [] } : State).flag Reg.CLK_STATUS Fl.CLK_STATUS_PLL_LOCK = true) ∧
    (safe.alive = true ∧ safe.isSafe = true) := by decide

theorem witness_BootStepsBack : (reset.pw.off = false ∧ reset.pw.held = false ∧ reset.pw.level1 = false ∧ reset.pw.rails = true) ∧
    (let s : State := { reset with pw := { reset.pw with strapped := true } }
     s.pw.off = false ∧ s.pw.held = false ∧ s.pw.level1 = false ∧ s.pw.rails = true ∧ s.pw.strapped = true ∧ s.pw.bootStep < 3) := by decide

theorem witness_SamplesAreEvaluated : (live.clocked = true ∧ live.clk.ts ≤ 500000 ∧ 500000 % 500000 = 0 ∧ 50000 % 50000 = 0) ∧
    supplyBad (min 9000 8191) = true ∧ supplyBad (min 3300 8191) = false ∧
    (up.clocked = true ∧ up.clk.ts ≤ 5000000 ∧ 5000000 % 5000000 = 0 ∧ (up.hzUp || up.hzKeep) = true) ∧ (live.hzUp || live.hzKeep) = false := by
  decide

def asleep : State := live.put Reg.PWR_STATE Fl.PWR_STATE_STATE 3
def parkedState : State := live.put Reg.PWR_STATE Fl.PWR_STATE_STATE 4

theorem witness_PowerCommandsAreTaken :
    (live.reaches .spi = true ∧ live.isSafe = false ∧ live.commitBusy = false ∧ live.retestSlice = none ∧ live.isRun = true ∧
      live.parkEntry = false ∧ live.parkExit = false ∧ live.allStopped = true ∧ live.wakes = false) ∧
    (let s := fn0 2 live; s.reaches .spi = true ∧ s.isSafe = false ∧ s.commitBusy = false ∧ s.retestSlice = none ∧ s.allStopped = false) ∧
    (asleep.reaches .spi = true ∧ asleep.isSafe = false ∧ asleep.commitBusy = false ∧ asleep.retestSlice = none ∧ asleep.isSleep = true) ∧
    (parkedState.reaches .spi = true ∧ parkedState.isSafe = false ∧ parkedState.commitBusy = false ∧ parkedState.retestSlice = none ∧
      parkedState.isPark = true) ∧
    (let s : State := { live with commit := some ⟨0, 0, false, []⟩ }.put Reg.CHT_STATUS Fl.CHT_STATUS_BUSY 1
     s.reaches .spi = true ∧ s.isSafe = false ∧ s.commitBusy = true) := by decide

/-- PARK entry at a step of Table 2-7. -/
def entering (step : Nat) (wake : Bool) : State :=
  ({ live with pw := { live.pw with parkStep := step, wakeHeld := wake } } : State).put Reg.PWR_STATE Fl.PWR_STATE_PHASE 1

theorem witness_SleepAndParkSequences :
    (let s : State := { asleep with pw := { asleep.pw with woken := true } }; s.acts = true ∧ s.isSleep = true ∧ s.pw.woken = true) ∧
    ((entering 1 false).acts = true ∧ (entering 1 false).parkEntry = true ∧ (entering 1 false).pw.parkStep = 1 ∧
      (entering 1 false).pw.wakeHeld = false ∧ (entering 1 false).fenceMap.testBit 45 = false) ∧
    ((entering 5 true).acts = true ∧ (entering 5 true).parkEntry = true ∧ (entering 5 true).pw.parkStep = 5) ∧
    ((entering 3 true).acts = true ∧ (entering 3 true).parkEntry = true ∧ (entering 3 true).pw.wakeHeld = true ∧
      (entering 3 true).pw.parkStep < 4) ∧
    (let s := parkedState.put Reg.PWR_STATE Fl.PWR_STATE_PHASE 2; s.acts = true ∧ s.isPark = true ∧ s.parkExit = true) := by decide

theorem witness_FunctionCommandsAreTaken :
    (live.reaches .spi = true ∧ live.isSafe = false ∧ live.isPark = false) ∧
    ((fn0 0 live).parked = false ∧ (fn0 0 live).commitBusy = false ∧ (fn0 0 live).retestSlice = none ∧ (fn0 0 live).fnState 0 = 0) ∧
    ((fn0 0 asleep).reaches .spi = true ∧ (fn0 0 asleep).isSafe = false ∧ (fn0 0 asleep).isPark = false ∧ (fn0 0 asleep).parked = true) ∧
    ∀ k, k ∈ [1, 2, 3, 4] → (fn0 k live).reaches .spi = true ∧ (fn0 k live).isSafe = false ∧ (fn0 k live).isPark = false ∧
      (fn0 k live).fnState 0 = k := by decide

/-- A Chart with function 0 on no port, its line timer of 100 cycles a line open at the sources given; IDLE or DRAINING since 0. -/
def timerChart (trigger source : Nat) : Option Chart := chartOf [(0x10, 0, [(7, 0xFF), (8, 0xFF), (2, trigger), (3, source), (0x10, 100), (0x18, 1), (0x1A, 1)])]
def bringing (trigger source : Nat) : State := fn0 1 { live with chart := timerChart trigger source }
/-- The function cannot come up: its required service level 3 is not met. -/
def stuckUp : State := fn0 1 { live with chart := chartOf [(0x10, 0, [(7, 0xFF), (8, 0xFF), (0, 3), (0x18, 1), (0x1A, 1)])] }
def draining : State := fn0 4 { live with chart := timerChart 0 0 }

theorem witness_BringUpAndDrainEnd :
    ((bringing 0 3).acts = true ∧ ((bringing 0 3).atTime 7).fnState 0 = 1 ∧ ((bringing 0 3).atTime 7).unmetNow 0 = [] ∧
      ((bringing 0 3).atTime 7).fnLineTimer 0 = false) ∧
    ((bringing 0x10 3).acts = true ∧ ((bringing 0x10 3).atTime 7).fnState 0 = 1 ∧ ((bringing 0x10 3).atTime 7).unmetNow 0 = [] ∧
      ((bringing 0x10 3).atTime 7).fnLineTimer 0 = true ∧ ((bringing 0x10 3).atTime 7).fnOpenSource 0 ≠ 2) ∧
    (let x := stuckUp.atTime 500000
     stuckUp.acts = true ∧ x.fnState 0 = 1 ∧ (x.fnRun 0).start + x.bringupLimit 0 ≤ x.clk.ts ∧
       firstUnmet ((x.unmetUpdate 0).fnRun 0).unmet = some 4) ∧
    (draining.acts = true ∧ (draining.atTime 500000).fnState 0 = 4 ∧
      ((draining.atTime 500000).fnRun 0).drain + (draining.atTime 500000).drainLimit 0 ≤ (draining.atTime 500000).clk.ts ∧
      (draining.atTime 499999).clk.ts < ((draining.atTime 499999).fnRun 0).drain + (draining.atTime 499999).drainLimit 0) := by decide

/-! ## Witnesses: Horizon's training, Jens -/

theorem witness_LinkTrainingRuns :
    (live.clocked = true ∧ live.mayTrain = true) ∧
    ((live.put Reg.HZ_STATUS Fl.HZ_STATUS_STATE 1).clocked = true ∧ (live.put Reg.HZ_STATUS Fl.HZ_STATUS_STATE 1).hzState = 1 ∧
      (live.put Reg.HZ_STATUS Fl.HZ_STATUS_STATE 1).pw.vf = true) ∧
    ∀ k, k ∈ [2, 4] → (live.put Reg.HZ_STATUS Fl.HZ_STATUS_STATE k).clocked = true ∧ 2 ≤ (live.put Reg.HZ_STATUS Fl.HZ_STATUS_STATE k).hzState ∧
      (live.put Reg.HZ_STATUS Fl.HZ_STATUS_STATE k).hzState ≤ 4 := by decide

theorem witness_LinkGoesDown :
    (up.clocked = true ∧ up.hzState = 5 ∧ (-1500 : Int).natAbs ≤ 1500 ∧ 1500 < (1501 : Int).natAbs ∧ 63 < 64) ∧
    (live.reaches .spi = true ∧ live.isSafe = false ∧ live.isPark = false ∧ live.allStopped = true ∧ getF 2 Fl.HZ_CTRL_RETRAIN = 1) := by decide

/-- A firing of GLS 0 that is due, and one of GLS 1 deferred until `d`. -/
def due0 : Firing := ⟨5, 0, 10, 128, 4, 0, 0, true, true, none⟩
def deferred1 (d : Nat) : Firing := ⟨6, 1, 10, 128, 4, 0, 0, false, true, some d⟩
/-- Jens with firings, what GLS 0 and 1 run, and MAX_DEFERRAL_US of pair 0. -/
def gates (l : List Firing) (a0 a1 : Option Active) (defer : Nat) : State :=
  withField [(Reg.GHS_CFG 0, Fl.GHS_CFG_MAX_DEFERRAL_US, defer)]
    { up with jens := { up.jens with firings := l, active := (up.jens.active.set 0 a0).set 1 a1 } }
def peak (n : Nat) : Option Active := some ⟨6, n, 2000, 128, false⟩

theorem witness_DueFiringsStart :
    ((gates [due0] none none 1).pw.vf = true ∧ ((gates [due0] none none 1).atTime 100).nextDue 0 = some due0 ∧
      ((gates [due0] none none 1).atTime 100).active 1 = none ∧ ((gates [due0] none none 1).atTime 100).active 0 = none) ∧
    -- the partner's peak lasts as long as the deferral allows, and one cycle longer
    (let x := (gates [due0] none (peak 600) 1).atTime 100
     x.nextDue 0 = some due0 ∧ x.active 1 = peak 600 ∧ x.clk.jts < 600 ∧ 600 - x.clk.jts ≤ x.deferLimit 0) ∧
    (let x := (gates [due0] none (peak 601) 1).atTime 100
     x.nextDue 0 = some due0 ∧ x.active 1 = peak 601 ∧ x.clk.jts < 601 ∧ x.deferLimit 0 < 601 - x.clk.jts) ∧
    -- an odd GLS waits while its partner has a due firing; here it has none
    (let x := (gates [{ due0 with gls := 1 }] none none 1).atTime 100
     x.nextDue 1 = some { due0 with gls := 1 } ∧ x.nextDue (glsPartner 1) = none) := by decide

theorem witness_FiringPhasesEnd :
    (let s := gates [] (peak 100) none 1; let x := s.atTime 100
     s.pw.vf = true ∧ x.active 0 = peak 100 ∧ 100 ≤ x.clk.jts ∧ (x.jens.firings.filter fun f => f.gls == glsPartner 0 && f.deadline.isSome) = []) ∧
    (let s := gates [deferred1 100] (peak 100) none 1; let x := s.atTime 100
     x.active 0 = peak 100 ∧ (x.jens.firings.filter fun f => f.gls == glsPartner 0 && f.deadline.isSome) = [deferred1 100]) ∧
    (let s := gates [deferred1 99] (peak 100) none 1; let x := s.atTime 100
     x.active 0 = peak 100 ∧ (x.jens.firings.filter fun f => f.gls == glsPartner 0 && f.deadline.isSome) = [deferred1 99] ∧ 99 < 100) ∧
    (let s := gates [] (some ⟨6, 100, 2000, 128, true⟩) none 1; let x := s.atTime 2100
     x.active 0 = some ⟨6, 100, 2000, 128, true⟩ ∧ 100 + 2000 ≤ x.clk.jts) ∧
    (let s := withField [(Reg.GHS_SENSE 0, Fl.GHS_SENSE_ISNS_LIMIT_MA, 999), (Reg.GHS_SENSE 0, Fl.GHS_SENSE_ISNS_SCALE, 1000)] up
     let x := s.atTime 0
     s.pw.vf = true ∧ x.jget (Reg.GHS_SENSE 0) Fl.GHS_SENSE_ISNS_LIMIT_MA ≠ 0 ∧
       x.jget (Reg.GHS_SENSE 0) Fl.GHS_SENSE_ISNS_LIMIT_MA < x.jget (Reg.GHS_SENSE 0) Fl.GHS_SENSE_ISNS_SCALE ∧ x.jens.blankEnd[0] ≤ x.clk.jts) ∧
    (up.reachesField .spi = true ∧ getF 1 Fl.GHS_CTRL_OC_CLEAR = 1) ∧
    ((gates [due0] none none 1).reachesField .spi = true ∧ due0 ∈ (gates [due0] none none 1).jens.firings ∧
      (getF 1 Fl.GATE_FLUSH_GLS).testBit due0.gls.val = true ∧ due0.recorded = true) := by decide

/-- Channel 0 in a mode, with a reference kind and what Jens keeps of it. -/
def channel (mode kind : Nat) (x : Pfi) : State :=
  (withField [(Reg.PFI_CFG 0, Fl.PFI_CFG_MODE, mode), (Reg.PFI_CFG 0, Fl.PFI_CFG_REF_KIND, kind), (Reg.PFI_STAT 0, Fl.PFI_STAT_STANDSTILL, 0)]
    up).setPfi 0 x
def quad : State := channel 1 0 pfiReset
/-- A tone wheel with a missing tooth, its period 1 000 cycles. -/
def tone : State := channel 2 1 { pfiReset with lastEdge := some 0, tp := some 12000, edges := 3 }

theorem witness_PositionIsCounted :
    quad.pw.vf = true ∧ (quad.atTime 9).pfiMode 0 = 1 ∧
    (quadIndex true false + 4 - quadIndex ((quad.atTime 9).pfi 0).a ((quad.atTime 9).pfi 0).b) % 4 = 1 ∧
    (quadIndex true true + 4 - quadIndex ((quad.atTime 9).pfi 0).a ((quad.atTime 9).pfi 0).b) % 4 = 2 ∧
    (quadIndex false true + 4 - quadIndex ((quad.atTime 9).pfi 0).a ((quad.atTime 9).pfi 0).b) % 4 = 3 ∧
    quadIndex false false = quadIndex ((quad.atTime 9).pfi 0).a ((quad.atTime 9).pfi 0).b ∧ (up.atTime 9).pfiMode 0 ≠ 1 ∧
    ((channel 2 1 pfiReset).pw.vf = true ∧ ((channel 2 1 pfiReset).atTime 9).pfiMode 0 = 2 ∧ (((channel 2 1 pfiReset).atTime 9).pfi 0).tp = none) ∧
    (tone.pw.vf = true ∧ (tone.atTime 9).pfiMode 0 = 2 ∧ ((tone.atTime 9).pfi 0).tp = some 12000 ∧ (tone.atTime 9).pfiRefKind 0 ≠ 4) ∧
    -- spans of 1, of 2 at its first cycle, and of neither
    (tone.atTime 1499).toothSpan 0 12000 = 1 ∧ (tone.atTime 1500).toothSpan 0 12000 = 2 ∧ (tone.atTime 2500).toothSpan 0 12000 = 3 ∧
    (let s := channel 1 0 { pfiReset with lastCount := some 0 }
     s.pw.vf = true ∧ (s.atTime (2 ^ 24)).pfiStandstill 0 = false ∧ 2 ^ 24 ≤ (s.atTime (2 ^ 24)).pfiElapsed 0 ∧
       (s.atTime (2 ^ 24 - 1)).pfiElapsed 0 < 2 ^ 24) := by decide

/-- An emulator at a target, an output count, a rate and a phase. -/
def emulator (target out rate : Int) (phase : Nat) : State := up.setEmu 0 ⟨target, 0, out, rate, 0, phase, 0⟩

theorem witness_EmulatorsFollowTheirTarget :
    (up.pw.vf = true ∧ 500 % 500 = 0 ∧ up.clk.ts ≤ 500 ∧ ((up.atTime 500).emuUpdate 0).emuFrozen 0 = false ∧
      ((up.atTime 500).emuUpdate 0).emuM 0 ≠ 0) ∧
    ((withField [(Reg.EMU_STATUS 0, Fl.EMU_STATUS_FROZEN, 1)] up).pw.vf = true ∧
      (((withField [(Reg.EMU_STATUS 0, Fl.EMU_STATUS_FROZEN, 1)] up).atTime 500).emuUpdate 0).emuFrozen 0 = true) ∧
    -- a count forwards that just reaches the target, and one that would pass it
    (let y := (emulator 256 0 500000000 (2 ^ 32 - 1)).atTime 1 |>.emuUpdate 0
     y.emuFrozen 0 = false ∧ 2 ^ 32 ≤ y.emuRun 0 ∧ 0 < (y.emu 0).rate ∧ (y.emu 0).out + 1 ≤ (y.emu 0).target.fdiv 256) ∧
    (let y := (emulator 255 0 500000000 (2 ^ 32 - 1)).atTime 1 |>.emuUpdate 0
     2 ^ 32 ≤ y.emuRun 0 ∧ 0 < (y.emu 0).rate ∧ (y.emu 0).target.fdiv 256 < (y.emu 0).out + 1) ∧
    -- the same backwards
    (let y := (emulator (-256) 0 (-500000000) (2 ^ 32 - 1)).atTime 1 |>.emuUpdate 0
     y.emuFrozen 0 = false ∧ 2 ^ 32 ≤ y.emuRun 0 ∧ (y.emu 0).rate < 0 ∧ (y.emu 0).target ≤ 256 * ((y.emu 0).out - 1)) ∧
    (let y := (emulator (-255) 0 (-500000000) (2 ^ 32 - 1)).atTime 1 |>.emuUpdate 0
     2 ^ 32 ≤ y.emuRun 0 ∧ (y.emu 0).rate < 0 ∧ 256 * ((y.emu 0).out - 1) < (y.emu 0).target) := by decide

theorem witness_EmulatorRegistersAct : up.reachesField .spi = true ∧ (∀ n ∈ up.jensOwners (Reg.EMU_RATIO 0), up.fnStopped n = true) ∧
    getF 0x100 Fl.EMU_CTRL_RESYNC = 1 := by decide

/-- The field serial port in a role, running a frame or not. -/
def serial (role : Nat) (active : Bool) (len : Nat) (rx : List Byte) (f : Fsp) : State :=
  withField [(Reg.FSP_CFG, Fl.FSP_CFG_ROLE, role), (Reg.FSP_FRAME, Fl.FSP_FRAME_FRAME_LEN, len), (Reg.FSP_STATUS, Fl.FSP_STATUS_ACTIVE, ofBool active)]
    { up with jens := { up.jens with serRx := rx, fsp := f } }
/-- The latched FSP_FRAME of a frame of `n` words. -/
def frameOf (n : Nat) : Word := putF 0 Fl.FSP_FRAME_FRAME_LEN n

theorem witness_FieldSerialFramesRun :
    (live.pw.vf = true ∧ live.failsafe = true) ∧
    (let s := serial 1 false 0 [7] ⟨0, 0, 0, 0, false, false⟩; s.pw.vf = true ∧ s.fspRole = 1 ∧ s.fspActive = false ∧ s.failsafe = false ∧ s.jens.serRx ≠ []) ∧
    (let s := serial 1 false 1 [7] ⟨0, 0, 0, 0, false, false⟩; s.fspRole = 1 ∧ s.fspActive = false ∧ s.failsafe = false ∧ 1 ≤ s.jens.serRx.length ∧
      s.jens.serTx.length + 1 ≤ 64) ∧
    (let s := serial 1 true 1 [7] ⟨0, frameOf 1, 1, 0, false, false⟩
     s.fspRole = 1 ∧ s.fspActive = true ∧ s.jens.serRx = [7] ∧ s.fspRx = false ∧ s.fspLen ≠ 0 ∧ s.jens.fsp.wordsLeft ≤ 1) ∧
    (let s := serial 1 true 2 [7, 8] ⟨0, frameOf 2, 2, 0, false, false⟩
     s.fspRole = 1 ∧ s.fspActive = true ∧ s.jens.serRx = [7, 8] ∧ s.fspRx = false ∧ s.fspLen ≠ 0 ∧ 1 < s.jens.fsp.wordsLeft) ∧
    (let s := serial 1 true 0 [] ⟨0, 0, 0, 0, false, false⟩; s.fspRole = 1 ∧ s.fspActive = true ∧ s.fspLen = 0 ∧ s.jens.serRx = []) ∧
    (let s := serial 2 false 0 [7] ⟨0, 0, 0, 0, false, false⟩; s.pw.vf = true ∧ s.fspRole = 2 ∧ s.fspActive = false) ∧
    (let s := serial 2 true 0 [7] ⟨0, 0, 0, 7, true, false⟩
     s.fspRole = 2 ∧ s.fspActive = true ∧ s.failsafe = false ∧ s.jens.fsp.deaf = false ∧ s.jens.fsp.fromFifo = true) ∧
    (let s := serial 2 true 0 [] ⟨0, 0, 0, 7, false, false⟩
     s.fspRole = 2 ∧ s.fspActive = true ∧ s.failsafe = false ∧ s.jens.fsp.deaf = false ∧ s.jens.fsp.fromFifo = false) ∧
    (up.reachesField .spi = true ∧ getF 1 ⟨0, 1⟩ = 1) := by decide

/-- Line 0 in a state, with what it runs. -/
def line (st : Nat) (z : ZlLine) : State :=
  withField [(Reg.ZL_STATUS 0, Fl.ZL_STATUS_STATE, st)] { up with jens := { up.jens with zl := up.jens.zl.set 0 z } }
/-- The periods and low widths of a frame, at a CAL period of 36 000 cycles. -/
def periodsOf (nibbles : List Nat) : List Nat := 36000 :: nibbles.map fun n => (12 + 3 * n) * 500
/-- ZLl_TXN_CMD of a PING of address 3, and of the broadcast. -/
def pingCmd : Word := putF 0 Fl.ZL_TXN_CMD_ADDR 3
def castCmd : Word := putF (putF 0 Fl.ZL_TXN_CMD_ADDR 0xFF) Fl.ZL_TXN_CMD_CMD 4

theorem witness_HostTransactionsRun :
    -- accepted, and refused with a command that does not exist
    (let s := line 3 zlReset
     s.reachesField .spi = true ∧ getF (putF pingCmd Fl.ZL_TXN_CMD_START 1) Fl.ZL_TXN_CMD_START = 1 ∧ s.jflag (Reg.ZL_STATUS 0) Fl.ZL_STATUS_TXN_BUSY = false ∧
       s.zlState 0 = 3 ∧ getF pingCmd Fl.ZL_TXN_CMD_CMD ≤ 4 ∧ getF pingCmd Fl.ZL_TXN_CMD_ADDR ≤ 23 ∧
       getF pingCmd Fl.ZL_TXN_CMD_LEN = zlSendLen (getF pingCmd Fl.ZL_TXN_CMD_CMD) ∧ ¬ getF (putF 0 Fl.ZL_TXN_CMD_CMD 5) Fl.ZL_TXN_CMD_CMD ≤ 4) ∧
    -- dispatched: a sweep, a host transaction to one node and to all, a supervision PING
    (let s := line 3 { zlReset with sweep := [1, 2] }; s.pw.vf = true ∧ s.zlRunning 0 = true ∧ (s.zl 0).txn = none ∧ (s.zl 0).sweep = [1, 2]) ∧
    (let s := line 3 { zlReset with hostDue := some 0, txnCmd := pingCmd }
     s.zlRunning 0 = true ∧ (s.zl 0).txn = none ∧ (s.zl 0).sweep = [] ∧ (s.zl 0).scanDue = false ∧ (s.zl 0).discovery = none ∧
       (s.zl 0).hostDue = some 0 ∧ s.zlTxnAddr 0 ≠ 0xFF) ∧
    (let s := line 3 { zlReset with hostDue := some 0, txnCmd := castCmd }
     s.zlRunning 0 = true ∧ (s.zl 0).txn = none ∧ (s.zl 0).hostDue = some 0 ∧ s.zlTxnAddr 0 = 0xFF) ∧
    (let s := line 3 { zlReset with pingDue := some 4 }; s.zlRunning 0 = true ∧ (s.zl 0).hostDue = none ∧ (s.zl 0).pingDue = some 4) ∧
    -- the reply of a node to a PING, at either end of its time
    (let s := line 3 { zlReset with txn := some (.host 0), txnCmd := pingCmd }
     s.pw.vf = true ∧ (s.zl 0).txn = some (.host 0) ∧ zlDecode (periodsOf (zlFrame 3 0 [9])) [1000, 4000] = .frame ⟨3, 0, [9]⟩ ∧ s.zlTxnAddr 0 = 3 ∧
       s.zlTxnCmd 0 = 0 ∧ [9].length = zlReplyLen 0 ∧ 6000 ≤ 6000 ∧ 30000 ≤ 30000) ∧
    (let s := line 3 { zlReset with txn := some (.host 1), txnCmd := pingCmd }; s.pw.vf = true ∧ (s.zl 0).txn = some (.host 1)) := by decide

theorem witness_LinesChangeState :
    (let s := line 3 { zlReset with listed := [⟨3, 1, 77⟩] }
     s.reachesField .spi = true ∧ s.allStopped = true ∧ s.zlRunning 0 = true ∧ getF (putF 0 Fl.ZL_CTRL_DISCOVER 1) Fl.ZL_CTRL_DISCOVER = 1 ∧
       getF (putF 0 Fl.ZL_CTRL_DISCOVER 1) Fl.ZL_CTRL_BIND_NEW = 0 ∧ (s.zl 0).discovery = none ∧
       ∀ n ∈ (s.zl 0).listed, ∀ m ∈ (s.zl 0).listed, m.addr % 24 = n.addr % 24 → m = n) ∧
    (let s := line 2 { zlReset with discovery := some true }; s.zlRunning 0 = true ∧ (s.zl 0).discovery ≠ none) ∧
    (let s := fn0 3 (line 3 zlReset)
     s.reachesField .spi = true ∧ s.zlRunning 0 = true ∧ s.allStopped = false ∧ getF (s.shadowReg (Reg.ZL_CTRL 0)) Fl.ZL_CTRL_DISCOVER = 0 ∧
       getF (putF 0 Fl.ZL_CTRL_BIND_NEW 1) Fl.ZL_CTRL_BIND_NEW = 1 ∧ getF (putF 0 Fl.ZL_CTRL_BIND_NEW 1) Fl.ZL_CTRL_DISCOVER = 0) ∧
    (let s := line 1 zlReset; s.pw.vf = true ∧ s.zlState 0 = 1) ∧
    (let s := line 3 { zlReset with txn := some (.host 0) }; s.pw.vf = true ∧ s.zlRunning 0 = true ∧ (s.zl 0).txn = some (.host 0)) ∧
    (let s := line 4 zlReset; s.pw.vf = true ∧ s.zlState 0 = 4) ∧
    (let s := line 3 zlReset; s.pw.vf = true ∧ s.zlRunning 0 = true ∧ (s.zl 0).txn = none ∧ (0x800001 : BitVec 24) ≠ 0 ∧ s.failsafe = false) ∧
    (let s := withField [(Reg.ZL_CTRL 0, Fl.ZL_CTRL_SUPERVISE_MS, 1), (Reg.ZL_NODE_HI 0 23, Fl.ZL_NODE_HI_VALID, 1)] (line 3 { zlReset with nextPing := 24 })
     s.pw.vf = true ∧ s.zlRunning 0 = true ∧ s.jget (Reg.ZL_CTRL 0) Fl.ZL_CTRL_SUPERVISE_MS ≠ 0 ∧
       ((s.boundAddrs 0).filter ((s.zl 0).nextPing ≤ ·) ++ (s.boundAddrs 0).filter (· < (s.zl 0).nextPing)).head? = some 23) := by decide

/-! ## Witnesses: beats, the relay, serial bytes -/

/-- Jens has taken seven bad beats in a row. -/
def jensBad : State := { up with jens := { up.jens with badRun := 7 } }
/-- Nahar has taken seven bad beats in a row. -/
def naharBad : State := { up with hz := { up.hz with badRun := 7 } }

theorem witness_BadBeatsAreCounted :
    (up.beatComes 0 = true ∧ up.pw.vf = true ∧ up.jensUp = true ∧ up.jens.badRun ≠ 7 ∧ up.hzState = 5 ∧ up.hz.badRun ≠ 7) ∧
    (jensBad.beatComes 0 = true ∧ jensBad.pw.vf = true ∧ jensBad.jensUp = true ∧ jensBad.jens.fsKeep = false ∧ jensBad.jens.badRun = 7) ∧
    (naharBad.beatComes 0 = true ∧ naharBad.hzState ≠ 0 ∧ naharBad.hzState = 5 ∧ naharBad.hz.badRun = 7) ∧
    -- a beat spoiled on its way
    (let x := up.atTime (beatTime 0)
     (x.takeHostBeat 0).2.any (fun w => beatBad 0 (w ^^^ 1)) = true) := by decide +kernel

theorem witness_IntactBeatsAreTaken :
    up.beatComes 1 = true ∧ up.pw.vf = true ∧ 4 ≤ up.hzState ∧
    (let x := up.atTime (beatTime 1)
     (x.takeHostBeat 1).2.any (fun w => !beatBad 1 (w ^^^ 0) && !beatTraining (w ^^^ 0)) = true ∧
       ((x.miriPins 5).takeFieldBeat 1).2.any (fun w => !beatBad 1 (w ^^^ 0) && !beatTraining (w ^^^ 0)) = true) := by decide +kernel

def shortState : State :=
  withRegs [(Reg.PWR_STATE, Fl.PWR_STATE_STATE, 4), (Reg.PWR_STATE, Fl.PWR_STATE_PHASE, 2), (Reg.HZ_STATUS, Fl.HZ_STATUS_STATE, 6)] up

theorem witness_TrainingEndsInService :
    (let s := live.put Reg.HZ_STATUS Fl.HZ_STATUS_STATE 4; s.clocked = true ∧ s.pw.vf = true ∧ 2 ≤ s.hzState ∧ s.hzState ≤ 4) ∧
    (let s := live.put Reg.HZ_STATUS Fl.HZ_STATUS_STATE 2; s.clocked = true ∧ s.pw.vf = true ∧ 2 ≤ s.hzState ∧ s.hzState ≤ 4) ∧
    (shortState.clocked = true ∧ shortState.hzState = 6 ∧ shortState.isPark = true ∧ shortState.parkExit = true ∧ shortState.pw.vf = true ∧
      shortState.jensUp = true ∧ shortState.jens.fsDetector = false ∧ 15 < 16) := by decide

/-- A relay transaction that reads MIR_ATTN for the service SPI, in its first or second attempt. -/
def relayOf (attempt : Nat) : Relay := ⟨.read, some .spi, Reg.MIR_ATTN, 0, true, [], false, attempt⟩
def relaying (attempt : Nat) : State := { up with hz := { up.hz with relay := some (relayOf attempt) } }

/-- A RUNNING function owns emulator 0. -/
def emuOwned : State := fn0 3 { up with chart := chartOf [(0x10, 0, [(0x0C, 1)])] }

theorem witness_FieldAccessesAreRelayed :
    (Reg.PFI_CFG 0 < 0x10000 ∧ Reg.PFI_CFG 0 % 4 = 0 ∧ 0xFFFC < 0x10000 ∧ 0xFFFC % 4 = 0) ∧
    (live.reaches .spi = true ∧ live.isPark = false ∧ live.hzState ≠ 5) ∧
    (up.reaches .spi = true ∧ up.isPark = false ∧ up.hzState = 5 ∧ up.hz.relay = none ∧ up.hz.relayWait = [] ∧
      up.fxRelayed 0xFFFC 1 = some 1 ∧ fxAssigned Reg.MIR_ATTN = true ∧ up.hz.attn = false) ∧
    (emuOwned.reaches .spi = true ∧ emuOwned.isPark = false ∧ emuOwned.hzState = 5 ∧ emuOwned.fxRelayed (Reg.EMU_SLEW 0) 1 = none) ∧
    ((relaying 0).reaches .spi = true ∧ (relaying 0).hz.relay ≠ none ∧ (relaying 0).fxRelayed 0xFFFC 1 = some 1) ∧
    ((relaying 0).clocked = true ∧ (relaying 0).hz.relay = some (relayOf 0) ∧ (relayOf 0).path ≠ none) ∧
    ((relaying 1).clocked = true ∧ (relaying 1).hz.relay = some (relayOf 1) ∧ (relayOf 1).attempt ≠ 0 ∧ (relaying 1).hz.relayWait = []) ∧
    (let s : State := { up with hz := { up.hz with attn := true } }
     s.clocked = true ∧ s.hzState = 5 ∧ s.hz.attn = true ∧ s.hz.relayWait = [] ∧ s.hz.relay = none) := by decide

def filled (n m : Nat) : State := { live with hz := { live.hz with serTx := List.replicate n 1, serRx := List.replicate m 2 } }

theorem witness_SerialBytesAreQueued :
    (∀ s ∈ [filled 60 4, filled 61 3, filled 63 1, filled 64 0], s.reaches .spi = true ∧ s.isPark = false) ∧
    (filled 60 4).hz.serTx.length ≤ 60 ∧ 60 < (filled 61 3).hz.serTx.length ∧ (filled 63 1).hz.serTx.length < 64 ∧
    64 ≤ (filled 64 0).hz.serTx.length ∧ (filled 60 4).hz.serRx = [2, 2, 2, 2] ∧ (filled 61 3).hz.serRx.length < 4 ∧
    (filled 63 1).hz.serRx = [2] ∧ (filled 64 0).hz.serRx = [] := by decide

/-! ## Witnesses: transits, jobs, verdicts -/

/-- A transit of function 0, with tag 7 in slot 0, and a capture of it on port 0. -/
def transit7 : Transit :=
  { fn := 0, slot := 0, tid := 7, lepAt := none, lep := some 0, tepAt := none, tep := none, degraded := false, reversed := false, late := false,
    noGate := false, caps := [], jobs := [], sums := [], result := none, verdict := none, issue := 0, decided := false, accepts := [], closed := false }
def capture0 : Capture :=
  { port := 0, trim := 0, next := 3, started := true, first := true, barred := false, ended := false, jnext := 0, trigs := [], late := [], miss := [],
    dec := 0 }

/-- Function 0 on port 0 with one line a count and no program or verdict; its trigger and open source as given. -/
def fnChart (trigger source : Nat) : Option Chart :=
  chartOf [(0x10, 0, [(1, 1), (2, trigger), (3, source), (6, 16), (7, 0xFF), (8, 0xFF), (0x10, 100)]), (0x03, 0, [(1, 1), (2, 64), (8, 1), (0x0A, 1)])]

/-- Function 0 RUNNING with a transit open. -/
def running (trigger source : Nat) (l : List Transit) : State := fn0 3 { up with chart := fnChart trigger source, transits := l }

/-- The LEP waits for the samples about cycle 50. -/
def waiting : State :=
  let s := running 0 3 [{ transit7 with lep := none, lepAt := some 50 }]
  { s with hz := { s.hz with samples := s.hz.samples.set 0 [⟨3, 256⟩, ⟨2, 0⟩] } }

/-- Three counts past the LEP, line 3 of port 0 is due. -/
def dueLine (port : Nat) (c : Capture) : State :=
  let s := (running 0 3 [{ transit7 with caps := [c] }]).put (Reg.CP_STATE 0) Fl.CP_STATE_STATE port
  { s with hz := { s.hz with hwm := s.hz.hwm.set 0 768 } }

theorem witness_TransitsRunTheirCourse :
    (let x := waiting.atTime 90; let tr : Transit := { transit7 with lep := none, lepAt := some 50 }
     waiting.acts = true ∧ x.slotOf? 0 0 = some tr ∧ x.transit? 0 7 = some tr ∧ x.fnLineTimer 0 = false ∧
       bracket 50 x.hz.samples[fin4 (x.fnChan 0)] = some (⟨2, 0⟩, ⟨3, 256⟩)) ∧
    (let s := running 0 3 [transit7]; let x := s.atTime 90
     s.acts = true ∧ x.slotOf? 0 0 = some transit7 ∧ x.mayClose transit7 = true ∧ s.fnState 0 = 3 ∧ (x.openOf 0).all (·.tid == 7) = true) ∧
    (let s := fn0 4 (running 0 3 [transit7, { transit7 with tid := 8, slot := 1 }]); let x := s.atTime 90
     x.slotOf? 0 0 = some transit7 ∧ x.mayClose transit7 = true ∧ (x.openOf 0).all (·.tid == 7) = false) ∧
    (let s := dueLine 4 capture0; let x := s.atTime 90; let tr : Transit := { transit7 with caps := [capture0] }
     s.acts = true ∧ x.portFn 0 = some 0 ∧ x.openOf 0 = [tr] ∧ capOn tr 0 = some capture0 ∧ x.spanOpen tr capture0 = true ∧
       x.lineDue tr capture0 3 = true ∧ x.lineDue tr capture0 4 = false ∧ x.inService 0 = true ∧ x.resettling 0 = false) ∧
    (let s := dueLine 3 { capture0 with barred := true }; let x := s.atTime 90
     let c : Capture := { capture0 with barred := true }; let tr : Transit := { transit7 with caps := [c] }
     x.openOf 0 = [tr] ∧ capOn tr 0 = some c ∧ x.spanOpen tr c = true ∧ x.lineDue tr c 3 = true ∧ x.inService 0 = false) ∧
    (let s := running 0x10 3 []; let x := s.atTime 100
     s.acts = true ∧ x.fnLineTimer 0 = true ∧ s.fnState 0 = 3 ∧ (s.fnRun 0).lastTick + u32 (s.fnSec 0) 0x10 ≤ x.clk.ts ∧ x.fnOpenSource 0 ≠ 2 ∧
       ¬ (s.fnRun 0).lastTick + u32 (s.fnSec 0) 0x10 ≤ (s.atTime 99).clk.ts) := by decide

/-- Function 0 with a program of one global-average step over the decimated band of port 0, and with a verdict table of no rule. -/
def jobChart : Option Chart :=
  chartOf [(0x10, 0, [(1, 1), (3, 3), (6, 16), (7, 0), (8, 0)]), (0x11, 0, [(0, 0xFF), (2, 1), (8, 4), (9, 0x80), (10, 0xFF)]), (0x13, 0, []),
    (0x03, 0, [(1, 1), (2, 64), (8, 1), (0x0A, 1)])]
/-- Stripe 0 of the transit is complete in that band. -/
def jobState : State :=
  fn0 3 { up with
    chart := jobChart
    transits := [transit7]
    bands := [⟨0, 1, 0, 0, 4096, 64, 1, [⟨0, 0, 7, 0, [], true, false, [.step 0], 0⟩]⟩] }
def jobRunning : State := { jobState with running := jobState.running.set 2 (some ⟨0, 7, 0, 0, 0, false⟩) }
/-- Its result exists. -/
def resultState : State := { jobState with transits := [{ transit7 with result := some 40 }] }

theorem witness_JobsAndVerdictsComplete :
    (let x := jobState.atTime 90
     jobState.acts = true ∧ jobState.running[2] = none ∧ x.unitFenced 2 = false ∧ x.dispatchHeld = false ∧ jobState.isRun = true ∧
       x.firstJob (x.readyJobs 2) = some (transit7, 0)) ∧
    (jobRunning.acts = true ∧ jobRunning.running[2] = some ⟨0, 7, 0, 0, 0, false⟩ ∧ jobRunning.anyTransit? 0 7 = some transit7) ∧
    (let s := running 0 3 [transit7]; let x := s.atTime 90
     x.slotOf? 0 0 = some transit7 ∧ x.transit? 0 7 = some transit7 ∧ transit7.result = none ∧ x.resultReady transit7 = true) ∧
    (let x := jobState.atTime 90; x.slotOf? 0 0 = some transit7 ∧ x.transit? 0 7 = some transit7 ∧ x.resultReady transit7 = false) ∧
    (let tr : Transit := { transit7 with result := some 40 }
     resultState.acts = true ∧ resultState.nextVerdict 0 = some tr ∧ resultState.fnVerdict 0 = some 0 ∧ resultState.anyTransit? 0 7 = some tr) := by
  decide

/-! ## Witnesses: the host attachment, Charts, memories, boot, service SPI, flash -/

def poweredDown : State := { live with pw := { live.pw with vf := false } }
def linking : State := { live with pcie := { live.pcie with training := true, perst := false } }

theorem witness_HostAttachmentFollowsItsPins :
    poweredDown.pw.vf = false ∧ live.pw.vf = true ∧
    (let s : State := { live with pcie := { live.pcie with perst := false } }
     s.alive = true ∧ 6 ≤ s.pw.bootStep ∧ s.pcie.perst = false ∧ s.pcie.linkUp = false) ∧
    (linking.alive = true ∧ linking.pcie.training = true ∧ linking.pcie.perst = false ∧ 1 ≤ 4 ∧ 8 ∈ [1, 2, 4, 8]) ∧
    (let s := withRegs [(Reg.PCX_LINK, Fl.PCX_LINK_SPEED, 1), (Reg.PCX_LINK, Fl.PCX_LINK_WIDTH, 1)] linking
     s.alive = true ∧ s.pcie.training = true ∧ s.get Reg.PCX_LINK Fl.PCX_LINK_SPEED ≠ 0 ∧ s.get Reg.PCX_LINK Fl.PCX_LINK_SPEED ≠ 4 ∧
       s.get Reg.PCX_LINK Fl.PCX_LINK_WIDTH ≠ 0 ∧ s.get Reg.PCX_LINK Fl.PCX_LINK_WIDTH ≠ 8) ∧
    (let s := hosted.put Reg.PCX_LINK Fl.PCX_LINK_DSTATE 3; s.pcie.linkUp = true ∧ s.inD3 = true) ∧
    (hosted.reaches .pcie = true ∧ hosted.clocked = true ∧ hosted.pcie.linkUp = true ∧ hosted.alive = true) := by decide

theorem witness_HostLossEndsService :
    (∀ k ∈ [1, 2, 3, 4, 5, 6, 7], ∃ c, (c, k) ∈ hostTaken 9) ∧
    (let s := fn0 3 hosted
     s.clocked = true ∧ s.isSafe = false ∧ s.bme = true ∧ s.pcie.perst = false ∧ s.pcie.linkUp = true ∧ s.inD3 = false ∧ s.fnState 0 = 3 ∧
       s.flag Reg.PCX_HOSTLOSS Fl.PCX_HOSTLOSS_ACTIVE = false) ∧
    (let s : State := { hosted with chart := chartOf [(0x05, 0, [])] }; s.clocked = true ∧ s.bme = true ∧ (s.atTime 9).surpriseFailsafe = true) ∧
    (hosted.reaches .spi = true ∧ hosted.isPark = false ∧ getF 1 ⟨0, 1⟩ = 1) := by
  refine ⟨fun k h => ?_, by decide, by decide, by decide⟩
  simp only [List.mem_cons, List.not_mem_nil, or_false] at h
  rcases h with rfl | rfl | rfl | rfl | rfl | rfl | rfl <;> exact ⟨_, by simp [hostTaken]; rfl⟩

/-! A Chart image of three sections: GLOBAL, CLOCK and FAULT (Table 3-3). -/

def le16 (v : Nat) : List Nat := [v % 256, v / 256 % 256]
def le32 (v : Nat) : List Nat := le16 v ++ le16 (v / 65536)
def globalBytes : List Nat := bytesAt 16 [(0, 1), (2, 1)]
def clockBytes : List Nat := bytesAt 8 [(1, 1), (2, 1)]
/-- Source 2 reacts as Table 15-1 has it. -/
def faultBytes : List Nat := bytesAt 64 [(2, 5)]
def tableOf (l : List (Nat × Nat × List Nat)) : List Nat := l.flatMap fun x => [x.1, 0, 0, 0] ++ le32 x.2.1 ++ le32 x.2.2.length ++ le32 (crc32 x.2.2)
def imageTable : List Nat := tableOf [(1, 0x70, globalBytes), (2, 0x80, clockBytes), (7, 0x90, faultBytes)]
def imageHead : List Nat := bytesAt 0x3C [(0, 0x4C), (1, 0x51), (2, 0x43), (3, 0x48), (4, 1), (0x10, 0xD0), (0x14, 3)]
def image : List Nat := imageHead ++ le32 (crc32 (imageHead ++ imageTable)) ++ imageTable ++ globalBytes ++ clockBytes ++ bytesAt 8 [] ++ faultBytes
/-- A memory that holds bytes from an address on. -/
def memoryOf (a : Nat) (l : List Nat) : Memory := ⟨0, l.zipIdx.map fun x => (a + x.2, BitVec.ofNat 8 x.1)⟩

def opened (p : Path) : State := live.chtOpen p
/-- A COMMIT of the image runs, and of a store in which it is spoiled. -/
def committing (l : List Nat) : State :=
  { withRegs [(Reg.CHT_STATUS, Fl.CHT_STATUS_BUSY, 1), (Reg.SYS_STRAP, Fl.SYS_STRAP_LEAD, 1)] live with cht := memoryOf 0 l, commit := some ⟨0, 0, false, []⟩ }
def committed (l : List Nat) : State := { ((committing l).atTime 9).put Reg.CHT_STATUS Fl.CHT_STATUS_BUSY 0 with commit := none }

/-- SHA-256 of no bytes (FIPS 180-4), as a WEIGHTS-REF section names it for an empty region. -/
def emptyDigest : List Nat :=
  [0xe3, 0xb0, 0xc4, 0x42, 0x98, 0xfc, 0x1c, 0x14, 0x9a, 0xfb, 0xf4, 0xc8, 0x99, 0x6f, 0xb9, 0x24, 0x27, 0xae, 0x41, 0xe4, 0x64, 0x9b, 0x93, 0x4c,
    0xa4, 0x95, 0x99, 0x1b, 0x78, 0x52, 0xb8, 0x55]
/-- An IDLE function waits for region 0. -/
def hashing (digest : List Nat) : State :=
  fn0 1 { live with chart := some ⟨0, 0, false, [⟨0x10, 0, 0, 64, 0, bytesAt 64 [(8, 0xFF)]⟩, ⟨0x11, 0, 0, 8, 0, bytesAt 8 []⟩,
    ⟨0x12, 0, 0, 40, 0, bytesAt 8 [] ++ digest⟩]⟩ }

theorem witness_ChartsAreCommitted :
    (live.reaches .spi = true ∧ live.isPark = false ∧ live.sessionOpen = false ∧ live.sessionOf .spi = false ∧
      live.commitRefused (live.sessionOther .spi) 0 = none ∧ live.storeRefuses .spi [0] = true) ∧
    ((opened .spi).reaches .spi = true ∧ (opened .spi).isPark = false ∧ (opened .spi).sessionOpen = true ∧ (opened .spi).sessionOf .spi = true ∧
      ∀ i ∈ List.range 4, (opened .spi).storeRefuses .spi [(opened .spi).chtAddr + i] = false) ∧
    ((fn0 3 live).commitRefused ((fn0 3 live).sessionOther .spi) 0 = some (4, 1)) ∧
    ((committing []).reaches .spi = true ∧ (committing []).isPark = false ∧ (committing []).commit = some ⟨0, 0, false, []⟩ ∧
      (committing image).commit = some ⟨0, 0, false, []⟩) ∧
    (let s := hashing emptyDigest
     s.reaches .spi = true ∧ s.isPark = false ∧ s.isSafe = false ∧ s.hashedFor 0 ≠ [] ∧ s.wrefVerified 0 = false ∧ s.hasSec 0x12 0 = true ∧
       sha256 (s.wrefBytes 0) = s.wrefDigest 0) ∧
    (let s := hashing []; s.hashedFor 0 ≠ [] ∧ s.wrefVerified 0 = false ∧ s.hasSec 0x12 0 = true ∧ sha256 (s.wrefBytes 0) ≠ s.wrefDigest 0) := by
  decide +kernel

/-- An image without its magic number fails; this one passes where the enforce fuse is blank. -/
theorem witness_ChartsAreCommitted_fails :
    (committed [0]).commitFail (committed [0]).storeChart ⟨0, 0, false, []⟩ (some (2, 0)) = some ⟨6, 0xFF, 0, some 0⟩ := by decide +kernel
set_option maxRecDepth 100000 in
theorem witness_ChartsAreCommitted_passes (h : Config.enforce = false) :
    (committed image).commitFail (committed image).storeChart ⟨0, 0, false, []⟩ none = none := by
  have h2 : ∀ n ∈ [2, 3, 4, 6, 7, 8], (committed image).stageFail (committed image).storeChart ⟨0, 0, false, []⟩ n = none := by decide +kernel
  have h5 : (committed image).stageFail (committed image).storeChart ⟨0, 0, false, []⟩ 5 = none := by
    simp only [stageFail, h]
    decide +kernel
  simp [commitFail, stages, h2, h5]

theorem witness_MemoriesAreReachedThroughBar2 :
    (live.reaches .spi = true ∧ hosted.reaches .pcie = true) ∧
    -- the last byte of the stripe store and the first of the weight store; a byte between two memories; a byte of the read-only line buffers
    bar2Memory 0xFFFFFF = some (stsId, 0xFFFFFF) ∧ bar2Memory 0x1000000 = some (wsId, 0) ∧ bar2Memory 0x19A0000 = none ∧
    live.bar2WriteReason .spi 0xFFFFFF = none ∧ live.bar2WriteReason .spi 0x1000000 = none ∧ live.bar2WriteReason .spi 0x1800000 ≠ none ∧
    live.bar2ReadReason 0x1000000 = none ∧ live.bar2ReadReason 0x19A0000 ≠ none := by decide

def booting (step : Nat) : State := ({ live with pw := { live.pw with bootStep := step } } : State).put Reg.PWR_STATE Fl.PWR_STATE_STATE 1
/-- A flash directory with one Chart slot at 0x1000. -/
def directoryHead : List Nat := bytesAt 0x7C [(0, 0x4C), (1, 0x51), (2, 0x46), (3, 0x44), (4, 1), (6, 1), (0x10, 1), (0x15, 0x10), (0x19, 0x10)]
def directory : List Nat := directoryHead ++ le32 (crc32 directoryHead)
def flashed (step : Nat) : State :=
  let s := booting step
  { s with bsp := { s.bsp with flash := ⟨0, (memoryOf 0 directory).cells ++ (memoryOf 0x1000 image).cells⟩ } }

set_option maxRecDepth 100000 in
theorem witness_BootReadsFlash :
    ((flashed 5).alive = true ∧ (flashed 5).isBoot = true ∧ (flashed 5).pw.bootStep = 5 ∧ (flashed 5).dirValid = true ∧
      ((flashed 5).dirEntries.all (·.1 != 1)) = false ∧ (flashed 5).chartSlot = some (0, 0x1000, 0xD0)) ∧
    (let s : State := { booting 5 with bsp := { (booting 5).bsp with flash := memoryOf 0 (bytesAt 0x80 []) } }
     s.alive = true ∧ s.isBoot = true ∧ s.pw.bootStep = 5 ∧ s.dirValid = false) ∧
    (let s : State := { flashed 6 with bsp := { (flashed 6).bsp with slot := some (0x1000, 0xD0) } }
     s.alive = true ∧ s.isBoot = true ∧ s.pw.bootStep = 6 ∧ s.bsp.slot = some (0x1000, 0xD0) ∧ s.commitRefused false 0 = none) ∧
    (let s : State := { (flashed 6).put Reg.BIST_FENCE_LO ⟨16, 1⟩ 1 with bsp := { (flashed 6).bsp with slot := some (0x1000, 0xD0) } }
     s.alive = true ∧ s.isBoot = true ∧ s.pw.bootStep = 6 ∧ s.commitRefused false 0 ≠ none) ∧
    (let s : State := { booting 10 with bist := { (booting 10).bist with calDone := List.range 12 } }
     s.alive = true ∧ s.isBoot = true ∧ s.pw.bootStep = 10 ∧ s.bistPhase = 0 ∧ s.bist.calDone.contains 12 = false ∧ 12 ≤ s.bist.calDone.length ∧
       s.bsp.record = none) ∧
    ((booting 10).bistPhase = 0 ∧ (booting 10).bist.calDone.contains 0 = false ∧ (booting 10).bist.calDone.length < 12) := by decide +kernel

theorem witness_ServiceSpiFramesAreAnswered :
    live.clocked = true ∧
    (let s : State := { live with spi := { live.spi with wfifo := [(0x20000000, 1), (2, 3)] } }
     s.clocked = true ∧ s.spi.wfifo ≠ [] ∧ s.spiHeld = false) ∧
    (spiSpace 0xFFFFFC = .bar0 0xFFFFFC ∧ 0xFFFFFC % 4 = 0 ∧ spiSpace 0x21FFFFFC = .bar2 0x1FFFFFC ∧ 0x1FFFFFC % 4 = 0 ∧
      spiRefusal 0x1000000 true = some (⟨3, 0x1000000, true, 0xF⟩, .unassigned) ∧ spiRefusal 2 true = some (⟨0, 2, true, 0xF⟩, .size)) ∧
    (live.spi.wfifo = [] ∧ live.spiHeld = false ∧ live.spi.late = [] ∧ (live.spiFetch Reg.SYS_ID false).2.isSome = true) ∧
    (let s : State := { live with spi := { live.spi with late := [⟨Reg.SYS_ID, true, false⟩] } }
     s.clocked = true ∧ s.spi.late ≠ [] ∧ s.spi.relayed = false ∧ s.spi.wfifo = [] ∧ s.spiHeld = false ∧ (s.spiFetch Reg.SYS_ID false).2.isSome = true) := by
  decide

def flashAt (addr len : Nat) : State := withRegs [(Reg.BSP_ADDR, Fl.BSP_ADDR_ADDR, addr), (Reg.BSP_LEN, Fl.BSP_LEN_LEN, len)] live
def flashing (op : FlashOp) : State := { live with bsp := { live.bsp with op := some op } }

theorem witness_FlashOperationsRun :
    (let s := flashAt 0x1000 256
     s.reaches .spi = true ∧ s.isPark = false ∧ s.isSafe = false ∧ s.bsp.op = none ∧ (∀ k ∈ [1, 2, 3], s.flashRefused k 0x1000 256 = false ∧
       flashRange k 0x1000 256 = false)) ∧
    ((flashAt 0x1001 256).flashRefused 3 0x1001 256 = true ∧ flashRange 1 0x1000 257 = true ∧ flashRange 1 0xFFFF01 256 = true ∧
      flashRange 1 0xFFFF00 256 = false ∧ flashRange 2 0x1001 0 = true) ∧
    ∀ k ∈ [1, 2, 3], (flashing ⟨k, 0x1000, 256, []⟩).clocked = true ∧ (flashing ⟨k, 0x1000, 256, []⟩).bsp.op = some ⟨k, 0x1000, 256, []⟩ := by decide

/-! ## Witnesses: lanes, ports, the cascade -/

/-- Port 0 with a function in a state; MODE 0 takes RX2 as a forwarded clock. -/
def port0 (mode fn : Nat) : State :=
  fn0 fn { up with chart := chartOf [(0x10, 0, [(1, 1), (3, 3), (6, 16), (7, 0xFF), (8, 0xFF)]), (0x03, 0, [(0, mode), (1, 1), (2, 4), (8, 1),
    (0x0A, 1)]), (0x04, 0, [(1, 2)])] }
/-- Lane `x` of it in a state, with LOCK and what it tries. -/
def laneIn (x : Fin 16) (st lock : Nat) (l : Lane) : State :=
  withRegs [(Reg.LN_STATE x, Fl.LN_STATE_STATE, st), (Reg.LN_STATE x, Fl.LN_STATE_LOCK, lock)] ((port0 0 3).modLane x fun _ => l)

theorem witness_LanesAcquireAndAreLost :
    (live.acts = true) ∧
    (let s := laneIn 0 2 0 laneReset; s.acts = true ∧ s.laneState (0 : Fin 16) = 2 ∧ s.laneLocked (0 : Fin 16) = false ∧ s.laneRole (0 : Fin 16) = 1) ∧
    (let s := laneIn 2 2 0 laneReset; s.laneState (2 : Fin 16) = 2 ∧ s.laneLocked (2 : Fin 16) = false ∧ s.laneRole (2 : Fin 16) = 2) ∧
    (let s := laneIn 0 4 0 laneReset; s.laneState (0 : Fin 16) = 4 ∧ s.laneRole (0 : Fin 16) = 1) ∧
    (let s := laneIn 2 4 0 laneReset; s.laneState (2 : Fin 16) = 4 ∧ s.laneRole (2 : Fin 16) = 2) ∧
    -- the EFM at both ends of its two ranges
    (let s := laneIn 0 2 1 laneReset
     s.laneState (0 : Fin 16) = 2 ∧ s.laneLocked (0 : Fin 16) = true ∧ s.laneRole (0 : Fin 16) = 1 ∧ 15 < 16 ∧ 16 ≤ 255 ∧ 255 < 256) ∧
    (let s := laneIn 0 3 1 laneReset; s.laneRole (0 : Fin 16) = 1 ∧ s.laneState (0 : Fin 16) = 3) ∧
    (let s := laneIn 0 5 1 laneReset; s.laneState (0 : Fin 16) = 5) ∧
    (let s := (laneIn 0 3 1 laneReset).setLaneState 2 3
     (2 : Fin 16) = laneNo 0 2 ∧ s.laneRole (2 : Fin 16) = 2 ∧ s.laneState (2 : Fin 16) = 3 ∧ s.laneRole (laneNo 0 0) = 1 ∧ s.laneState (laneNo 0 0) = 3) := by
  decide +kernel

def trial7 : Taps := ⟨7, 0, 0, 0, 0, 128⟩

theorem witness_LanesAdaptAndCalibrate :
    -- a measure-only epoch; a trial kept with REVERT to spare, and reverted one below it; BASE is 100, REVERT 2
    (let s := laneIn 0 3 1 ⟨none, false, false, 0, 0⟩
     s.acts = true ∧ s.laneState (0 : Fin 16) = 3 ∧ s.laneRole (0 : Fin 16) = 1 ∧ (s.lane 0).fresh = false ∧ (s.lane 0).trial = none) ∧
    (let s := withRegs [(Reg.LN_EFM 0, Fl.LN_EFM_BASE, 100), (Reg.LN_EFM_LOW 0, Fl.LN_EFM_LOW_THRESHOLD, 99)] (laneIn 0 3 1 ⟨some trial7, false, false, 0, 0⟩)
     (s.lane 0).trial = some trial7 ∧ trial7.clamp = trial7 ∧ (s.lane 0).fresh = false ∧ s.laneRevert (0 : Fin 16) = 2 ∧
       s.get (Reg.LN_EFM 0) Fl.LN_EFM_BASE ≤ 98 + s.laneRevert (0 : Fin 16) ∧ 97 + s.laneRevert (0 : Fin 16) < s.get (Reg.LN_EFM 0) Fl.LN_EFM_BASE ∧
       s.get (Reg.LN_EFM_LOW 0) Fl.LN_EFM_LOW_THRESHOLD ≤ 100 ∧ 98 < s.get (Reg.LN_EFM_LOW 0) Fl.LN_EFM_LOW_THRESHOLD) ∧
    (let s := laneIn 0 3 1 ⟨none, false, true, 0, 0⟩; (s.lane 0).fresh = true) ∧
    -- an epoch that proposes a change, which a tap at its end does not take
    (let s := (laneIn 0 3 1 ⟨none, false, false, 0, 0⟩).setTaps (0 : Fin 16) ⟨63, 0, 0, 0, 0, 128⟩; let acc : Taps := ⟨4096, 0, 0, 0, 0, 0⟩
     acc.propose ≠ Taps.zero ∧ (s.lane 0).forced = false ∧ s.flag (Reg.LN_CTRL 0) Fl.LN_CTRL_ADAPT_HOLD = false ∧
       ((s.laneTaps (0 : Fin 16)).add acc.propose).clamp ≠ (s.laneTaps (0 : Fin 16)).add acc.propose ∧
       (⟨4095, 0, 0, 0, 0, 0⟩ : Taps).propose = Taps.zero) ∧
    (let s := laneIn 3 6 0 laneReset; s.laneState (3 : Fin 16) = 6) ∧
    (let s := laneIn 3 3 1 laneReset; s.laneState (3 : Fin 16) = 3 ∧ s.laneRole (3 : Fin 16) = 3) ∧
    (let s := laneIn 0 0 0 laneReset
     s.reaches .spi = true ∧ s.isPark = false ∧ getF (putF 0 Fl.LN_CAL_RECAL 1) Fl.LN_CAL_RECAL = 1 ∧ s.laneRole (0 : Fin 16) ≠ 3 ∧ s.laneState (0 : Fin 16) = 0) ∧
    (let s := laneIn 0 1 0 laneReset; s.laneState (0 : Fin 16) = 1) := by decide +kernel

/-- Port 0 in a state and at a step, with what it holds. -/
def portIn (mode fn st step : Nat) (p : Port) : State :=
  withRegs [(Reg.CP_STATE 0, Fl.CP_STATE_STATE, st), (Reg.CP_STATE 0, Fl.CP_STATE_STEP, step)] ((port0 mode fn).modPort 0 fun _ => p)
/-- Its lanes ACTIVE. -/
def lanesActive (s : State) : State := [0, 1, 2, 3].foldl (fun s x => s.setLaneState x 3) s
/-- The marker of lane `r` with SEQ `v` (Table 10-1). -/
def markerOf (r v : Nat) : Nat × Nat :=
  let m0 := 0xE * 2 ^ 12 + r * 2 ^ 10 + 6 * 2 ^ 6 + v / 256
  (m0, v % 256 * 256 + crc8 0x07 0 [m0 / 256, m0 % 256, v % 256])
def aligned0 (n : Nat) (s : State) : State := s.put (Reg.CP_STATE 0) Fl.CP_STATE_ALIGNED n
/-- Head registers 0x0000 to 0x0024 that meet the Chart. -/
def headRegs : List Word := [0x10000, 5, 0, 1, 0, 0, 4, 0, 1]

theorem witness_PortsTrain :
    (port0 0 1).portFnIn 0 [1, 2, 3] = true ∧ (port0 0 1).acts = true ∧ (port0 0 0).portFnIn 0 [1, 2, 3] = false ∧
    -- presence goes during training, and in the span of a capture
    (portIn 0 1 2 1 portReset).portState 0 = 2 ∧
    (let s := dueLine 4 capture0; let tr : Transit := { transit7 with caps := [capture0] }
     tr ∈ s.transits ∧ capture0 ∈ tr.caps ∧ capture0.port = (0 : Fin 4).val ∧ s.inSpan tr capture0 = true) ∧
    -- the first valid TS2 block of a lane, with a precoding it does not run; and the last one of the port
    (let s := lanesActive (portIn 0 1 2 4 portReset)
     s.portState 0 = 2 ∧ s.ports[(0 : Fin 4)].waiting = false ∧ (0 : Fin 3).val ∈ s.dataLanes 0 ∧ s.ports[(0 : Fin 4)].prec[(0 : Fin 3)] = none ∧
       s.ports[(0 : Fin 4)].blocks[(0 : Fin 3)] = 0 ∧ s.laneActive (laneNo 0 0) = true ∧ s.flag (Reg.LN_STATE 0) Fl.LN_STATE_PRECODE ≠ true ∧
       s.laneRefuses (laneNo 0 0) = false ∧ u8 (s.portSec 0) 0x1C % 2 = 0) ∧
    (let s := lanesActive (portIn 0 1 2 4 { portReset with blocks := Vector.replicate 3 4, prec := Vector.replicate 3 (some false) })
     s.ports[(0 : Fin 4)].prec[(1 : Fin 3)] = some false ∧ 3 ≤ s.ports[(0 : Fin 4)].blocks[(1 : Fin 3)] ∧ s.laneGone 0 = false ∧
       ∀ o : Fin 3, o.val ∈ s.dataLanes 0 → o ≠ 1 → 4 ≤ s.ports[(0 : Fin 4)].blocks[o] ∧ s.ports[(0 : Fin 4)].prec[o] = some false) := by decide +kernel

theorem witness_PortsTrain_ends :
    (let s := aligned0 2 (lanesActive (portIn 0 1 2 5 { portReset with step5 := true }))
     s.portState 0 = 2 ∧ s.ports[(0 : Fin 4)].step5 = true ∧ (0 : Fin 3).val ∈ s.dataLanes 0 ∧ markerSeq 0 (some (markerOf 0 0)) = some 0 ∧
       ∀ o ∈ s.dataLanes 0, o ≠ 0 → s.aligned 0 o = true) ∧
    (let s := portIn 0 1 2 6 portReset
     s.portState 0 = 2 ∧ s.portStep 0 = 6 ∧ headCheck (s.portSec 0) headRegs = none ∧ headCheck (s.portSec 0) [] = some 0) ∧
    -- an attempt fails with RETRIES to go, and with none
    (let s := (portIn 0 1 2 3 { portReset with attempts := 4 }).put (Reg.CP_CFG 0) Fl.CP_CFG_RETRIES 4
     s.ports[(0 : Fin 4)].waiting = false ∧ s.ports[(0 : Fin 4)].attempts ≤ s.get (Reg.CP_CFG 0) Fl.CP_CFG_RETRIES) ∧
    (let s := (portIn 0 1 2 3 { portReset with attempts := 4 }).put (Reg.CP_CFG 0) Fl.CP_CFG_RETRIES 3
     s.get (Reg.CP_CFG 0) Fl.CP_CFG_RETRIES < s.ports[(0 : Fin 4)].attempts ∧ s.portFn 0 = some 0 ∧ s.fnIdle 0 = true) ∧
    (portIn 0 3 2 0 { portReset with waiting := true }).ports[(0 : Fin 4)].waiting = true ∧
    (let s := portIn 0 3 6 0 portReset
     s.reaches .spi = true ∧ s.isPark = false ∧ getF (putF 0 Fl.CP_CTRL_RETRAIN 1) Fl.CP_CTRL_RETRAIN = 1 ∧ s.portState 0 = 6 ∧
       s.portFnIn 0 [1, 2, 3] = true) := by decide +kernel

/-- A port in service with its lanes aligned; its markers carry SEQ 4095 next. -/
def serving (st : Nat) : State :=
  aligned0 3 (lanesActive (portIn 0 3 st 0 { portReset with seq := Vector.replicate 3 4095, errRun := Vector.replicate 3 1 }))

theorem witness_PortsServe :
    -- a good marker at the end of the SEQ range and of the skew's; a bad one; TX0 in service or in FAULT
    (let s := serving 4
     s.acts = true ∧ 3 ≤ s.portState 0 ∧ s.portState 0 ≤ 5 ∧ (1 : Fin 3).val ∈ s.dataLanes 0 ∧ s.aligned 0 1 = true ∧
       markerSeq 1 (some (markerOf 1 4095)) = some 4095 ∧ markerSeq 1 (some (markerOf 1 0)) ≠ some 4095 ∧ markerSeq 1 none ≠ some 4095 ∧
       1 ≤ s.ports[(0 : Fin 4)].errRun[(1 : Fin 3)] ∧ s.portState 0 ≠ 5 ∧ s.laneState (laneNo 0 3) ≠ 7) ∧
    ((serving 4).setLaneState 3 7).laneState (laneNo 0 3) = 7 ∧ (serving 5).portState 0 = 5 ∧
    (let s := { serving 4 with ports := (serving 4).ports.set 0 { portReset with seq := Vector.replicate 3 4095 } }
     s.ports[(0 : Fin 4)].errRun[(1 : Fin 3)] = 0) ∧
    -- a lane that is back, while the other is aligned
    (let s := aligned0 1 (serving 5)
     s.portState 0 = 5 ∧ (1 : Fin 3).val ∈ s.dataLanes 0 ∧ s.aligned 0 1 = false ∧ s.laneActive (laneNo 0 1) = true ∧
       markerSeq 1 (some (markerOf 1 4094)) = some 4094 ∧ (s.slotSeq 0 1).getD 4094 = 4094 ∧ (s.slotSeq 0 1).getD 4095 ≠ 4095 ∧
       ∀ o ∈ s.dataLanes 0, o ≠ 1 → s.aligned 0 o = true) ∧
    (let s := serving 3; s.portState 0 = 3 ∧ s.portFnIn 0 [2, 3] = true ∧ s.atGap 0 = true ∧ s.portFnIn 0 [1] = false) ∧
    (let s := dueLine 3 capture0; let tr : Transit := { transit7 with caps := [capture0] }
     s.portState 0 = 3 ∧ s.portFnIn 0 [1] = false ∧ s.atGap 0 = false ∧ tr.lep.isSome = true ∧ 0 ≤ s.past tr.fn (s.spanStart tr capture0)) ∧
    ((serving 4).allAligned 0 = true ∧ (serving 4).cpFrozen 0 = false) := by decide +kernel

/-- A LINE message of channel 0 (Table 10-3). -/
def lineOf (line pos tid : Nat) (px : List Nat) : List Nat :=
  let h := [6 * 2 ^ 6, line, pos / 2 ^ 16, pos % 2 ^ 16, tid / 2 ^ 16, tid % 2 ^ 16, px.length]
  let rec words : List Nat → List Nat
    | a :: b :: r => (a * 256 + b) :: words r
    | [a] => [a * 256]
    | [] => []
  h ++ [hcrc h] ++ words px ++ [crc32 px / 2 ^ 16, crc32 px % 2 ^ 16]
def trigger5 : Trigger := ⟨5, 1280, 7, false, false⟩
/-- A port in service that awaits line 5 of transit 7, its resettle queue and head transaction as given. -/
def awaiting (q : List Awaited) (h : Option HeadTxn) (fifo : List FifoLine) : State :=
  let s := serving 4
  { s with ports := s.ports.set 0 { s.ports[(0 : Fin 4)] with awaited := [⟨trigger5, [0], 10, 0, 5⟩], queue := q, hc := h, fifo := fifo } }

theorem witness_LinesAreTaken :
    (let s := awaiting [] none []; let m := lineParse (lineOf 5 1280 7 [1, 2, 3, 4])
     s.acts = true ∧ s.inService 0 = true ∧ m.headOk = true ∧ m.payOk = true ∧ m.npix = s.portPixels 0 ∧ fifoBytes s.ports[(0 : Fin 4)].fifo + m.npix ≤ 131072 ∧
       (s.ports[(0 : Fin 4)].awaited.find? fun a => a.trig.line == m.line && a.trig.pos == m.pos && a.trig.tid == m.tid && a.chans.contains m.ch) =
         some ⟨trigger5, [0], 10, 0, 5⟩) ∧
    -- a spoiled header, spoiled pixels, a pixel too few, a line nobody awaits
    (lineParse ((lineOf 5 1280 7 [1, 2, 3, 4]).set 1 4)).headOk = false ∧
    (let m := lineParse ((lineOf 5 1280 7 [1, 2, 3, 4]).set 8 0); m.headOk = true ∧ m.payOk = false) ∧
    (let m := lineParse (lineOf 5 1280 7 [1, 2, 3]); m.headOk = true ∧ m.payOk = true ∧ m.npix ≠ (awaiting [] none []).portPixels 0) ∧
    (let s := awaiting [] none []; let m := lineParse (lineOf 6 1280 7 [1, 2, 3, 4])
     m.payOk = true ∧ m.npix = s.portPixels 0 ∧
       (s.ports[(0 : Fin 4)].awaited.find? fun a => a.trig.line == m.line && a.trig.pos == m.pos && a.trig.tid == m.tid && a.chans.contains m.ch) = none) ∧
    -- its time is up in cycle 10, not before; a queued trigger goes out when TX0 is back
    (let s := awaiting [] none []
     (s.ports[(0 : Fin 4)].awaited.filter fun a => decide (a.since + 500 * s.get (Reg.CP_CFG 0) Fl.CP_CFG_LINE_TIMEOUT_US ≤
         (s.atTime (10 + 500 * s.get (Reg.CP_CFG 0) Fl.CP_CFG_LINE_TIMEOUT_US)).clk.ts)) = [⟨trigger5, [0], 10, 0, 5⟩]) ∧
    (let s := (awaiting [⟨trigger5, [0], 10, 0, 5⟩] (some ⟨false, 8, 0, 1, 0, false⟩) []).put (Reg.CP_STATE 0) Fl.CP_STATE_TX_RESETTLE 1
     s.inService 0 = true ∧ s.resettling 0 = true ∧ s.laneActive (laneNo 0 3) = true ∧ s.cpFrozen 0 = false ∧ s.ports[(0 : Fin 4)].queue ≠ []) := by decide +kernel

/-- A FIFO that a pixel more would overfill. -/
theorem witness_LinesAreTaken_full (px : List Byte) (h : px.length = 131072) :
    let s := awaiting [] none [⟨7, 0, 4, 0, px⟩]
    131072 < fifoBytes s.ports[(0 : Fin 4)].fifo + (lineParse (lineOf 5 1280 7 [1, 2, 3, 4])).npix := by
  have : fifoBytes (awaiting [] none [⟨7, 0, 4, 0, px⟩]).ports[(0 : Fin 4)].fifo = px.length := by simp [awaiting, fifoBytes]
  simp only [this, h]
  decide +kernel

/-- The response of the head with TAG 1 to a read, and a HEAD_EVENT. -/
def respOf (l : List Nat) : List Nat := l ++ [hcrc l]

theorem witness_HeadsAreReached :
    (let s := awaiting [] none []
     s.reaches .spi = true ∧ s.isPark = false ∧ s.flag (Reg.CP_HC_STATUS 0) Fl.CP_HC_STATUS_BUSY = false ∧ s.inService 0 = true ∧ s.resettling 0 = false) ∧
    (serving 3).inService 0 = false ∧
    (let s := awaiting [] (some ⟨false, 8, 0, 1, 0, true⟩) []; let l := respOf [2 * 2 ^ 12 + 6 * 2 ^ 6 + 16 + 1, 3 * 256, 0x1234, 0x5678]
     s.acts = true ∧ s.ports[(0 : Fin 4)].hc = some ⟨false, 8, 0, 1, 0, true⟩ ∧ wd l 4 = hcrc (l.take 4) ∧ wd l 0 % 16 = 1 ∧ l.length = 5 ∧
       wd l 0 / 2 ^ 12 % 16 = 2 ∧ wd l 0 / 16 % 4 = 1 ∧ wd l 1 / 256 % 256 < 4) ∧
    (let l := respOf [3 * 2 ^ 12 + 6 * 2 ^ 6, 9, 0, 0]; l.length = 5 ∧ wd l 0 / 2 ^ 12 % 16 = 3 ∧ wd l 4 = hcrc (l.take 4)) ∧
    (let s := (awaiting [] (some ⟨false, 8, 0, 1, 0, false⟩) []).put (Reg.CP_STATE 0) Fl.CP_STATE_TX_RESETTLE 1
     s.ports[(0 : Fin 4)].hc = some ⟨false, 8, 0, 1, 0, false⟩ ∧ s.resettling 0 = true) := by decide +kernel

/-! ## Witnesses: the cascade -/

/-- Position `pos` of a chain of three modules in a state, its lane as given. -/
def chained (pos st : Nat) (c : Cascade) : State :=
  withRegs [(Reg.CAS_STATUS, Fl.CAS_STATUS_POSITION, pos), (Reg.CAS_STATUS, Fl.CAS_STATUS_LENGTH, 2), (Reg.CAS_STATUS, Fl.CAS_STATUS_STATE, st)]
    { up with cas := c }
def laneUp : CasLane := { casLaneReset with rx := 3, tx := 3, locked := true, comma := true }
def casUp : Cascade := { casReset with lane := laneUp }
/-- A frame with header `w0` and the given words, and its check word. -/
def frameWith (w0 : Nat) (l : List (Nat × Nat)) : List Nat :=
  let f := (bytesAt 124 l).set 0 (0xA * 2 ^ 12 + 6 * 2 ^ 6 + w0)
  f ++ [hcrc f]
def corrValidBit : Nat := 2 ^ 11

theorem witness_ChainsLinkUp :
    (let s := chained 1 4 casUp
     s.acts = true ∧ s.reaches .spi = true ∧ s.isPark = false ∧ s.allStopped = true ∧
       getF (putF 0 Fl.CAS_CTRL_RELINK 1) Fl.CAS_CTRL_RELINK = 1 ∧ 2 ≤ s.casLen) ∧
    (let s := (chained 1 4 casUp).setFnState 0 1
     s.acts = true ∧ s.reaches .spi = true ∧ s.isPark = false ∧ s.allStopped = false) ∧
    (up.acts = true ∧ up.reaches .spi = true ∧ up.isPark = false ∧ up.allStopped = true ∧ up.casLen ≤ 1) ∧
    (let s := (chained 1 4 casUp).put Reg.CAS_CTRL Fl.CAS_CTRL_AUTO 1
     s.casState = 4 ∧ s.flag Reg.CAS_CTRL Fl.CAS_CTRL_AUTO = true ∧ s.cas.failed + 50000000 ≤ (s.atTime 50000000).clk.ts ∧
       (s.atTime 49999999).clk.ts < s.cas.failed + 50000000) ∧
    (let s := chained 1 1 { casUp with attempt := true }; s.cas.attempt = true ∧ s.cas.start + 25000000 ≤ (s.atTime 25000000).clk.ts) ∧
    (chained 1 1 { casUp with lane := { laneUp with tx := 6 } }).cas.lane.tx = 6 ∧
    (let s := chained 1 1 { casUp with attempt := true }
     s.cas.lane.rx = 3 ∧ 0 = (s.casPos + s.casLen - 1) % s.casLen ∧ 1 ≠ (s.casPos + s.casLen - 1) % s.casLen ∧ s.cas.attempt = true) := by decide +kernel

/-- Channel 0's sample with VALID, and an OPEN of function 2 on channel 1 with MSEQ 3. -/
def good : List Nat := frameWith corrValidBit [(4, 500), (5, 2 ^ 15), (7, 9), (17, 2 ^ 14 + 2 * 2 ^ 11 + 3 * 2 ^ 3 + 2), (40, 1)]
def openMsg : CasMsg := ⟨1, 2, 3, 1, 8, 0, 0⟩

set_option maxRecDepth 100000 in
theorem witness_FollowersTakeFrames :
    (let s := chained 1 2 casUp
     s.acts = true ∧ s.casPos ≠ 0 ∧ 2 ≤ s.casLen ∧ s.casState = 2 ∧ (s.cas.lane.comma && s.cas.lane.rx == 3) = true ∧ casGood good = true ∧
       (frameWord good 0).testBit 11 = true ∧ s.casAligned = false ∧ casSamples good = [(0, 9)] ∧ casMessages good = [⟨1, 2, 3, 1, 0, 0, 0⟩]) ∧
    -- the timestamp of the frame is 500: this module is behind it in cycle 500, ahead of it in cycle 501
    (let want := ((frameNat good 1 4 : Int) + (frameWord good 40 * 125 + 2000 : Int).fdiv 4000).toNat
     want = 500 ∧ ((chained 1 2 casUp).atTime 500).clk.ts ≤ want ∧ want < ((chained 1 2 casUp).atTime 501).clk.ts) ∧
    casGood (frameWith 0 []) = true ∧ casGood ((frameWith 0 []).set 9 1) = false ∧ casGood [] = false ∧
    (let s := chained 1 3 { casUp with badRun := 7 }; s.casState = 3 ∧ 7 ≤ s.cas.badRun) ∧ (chained 1 2 { casUp with badRun := 6 }).cas.badRun < 7 ∧
    (let s := chained 1 3 { casUp with dueSamples := [(40, 2, 77)], dueMsgs := [(40, openMsg)], applied := [2] }
     s.casState = 3 ∧ s.cas.dueSamples.find? (fun x => x.2.1 == 2) = some (40, 2, 77) ∧ 40 ≤ (s.atTime 40).clk.ts ∧ (s.atTime 39).clk.ts < 40 ∧
       s.cas.dueMsgs = [(40, openMsg)] ∧ openMsg.mseq ∉ s.cas.applied ∧ openMsg.mseq = (2 + 1) % 256) ∧
    (let s := chained 1 3 { casUp with dueMsgs := [(40, openMsg)], applied := [3, 2] }; openMsg.mseq ∈ s.cas.applied) ∧
    (let s := chained 1 3 { casUp with dueMsgs := [(40, openMsg)], applied := [1] }
     openMsg.mseq ∉ s.cas.applied ∧ openMsg.mseq ≠ (1 + 1) % 256) ∧
    (let s := (chained 1 3 casUp).put (Reg.SYS_FN_STATE 2) Fl.SYS_FN_STATE_STATE 1
     openMsg.kind = 1 ∧ s.fnDefined openMsg.fn = true ∧ s.fnTrigger openMsg.fn ≠ openMsg.chan) := by decide +kernel

/-- Status words of positions 1 and 2: present, and of a chain of three in the first frames. -/
def returned (w0 a b : Nat) : List Nat := frameWith w0 [(37, a), (38, b)]
def present : Nat := 2 ^ 15 + 2 * 2 ^ 13

set_option maxRecDepth 100000 in
theorem witness_LeadTakesReturns :
    (let s := chained 0 3 { casUp with ringSum := 64 * 100, missRun := 7, badRun := 7 }
     s.acts = true ∧ s.casPos = 0 ∧ 2 ≤ s.casLen ∧ s.casState = 3 ∧ (s.cas.lane.comma && s.cas.lane.rx == 3) = true ∧
       casGood (returned corrValidBit present present) = true ∧ (s.casWords (returned corrValidBit present present)).all (·.testBit 15) = true ∧
       (s.casWords (returned corrValidBit present 0)).all (·.testBit 15) = false ∧ 7 ≤ s.cas.missRun ∧ 7 ≤ s.cas.badRun ∧
       512 < ((64 * 109 : Nat) - (s.cas.ringSum : Int)).natAbs ∧ ¬ 512 < ((64 * 108 : Nat) - (s.cas.ringSum : Int)).natAbs) ∧
    (let s := chained 0 3 { casUp with missRun := 6, badRun := 6 }; s.cas.missRun < 7 ∧ s.cas.badRun < 7) ∧
    (let s := chained 0 2 { casUp with attempt := true }
     s.casState = 2 ∧ s.cas.attempt = true ∧ (frameWord (returned 0 present present) 0).testBit 11 = false ∧
       ((s.casWords (returned 0 present (2 ^ 15))).any fun w => w.testBit 15 && w / 2 ^ 13 % 4 + 1 != s.casLen) = true ∧
       ((s.casWords (returned 0 present present)).any fun w => w.testBit 15 && w / 2 ^ 13 % 4 + 1 != s.casLen) = false ∧ s.cas.goodRun < 63) ∧
    -- the 64th frame of a chain that fits, and of one that is too long
    (let s := chained 0 2 { casUp with attempt := true, goodRun := 63, ringSum := 63 * 3000 }
     s.cas.goodRun = 63 ∧ casCorr s.casLen (64 * 3000) 500 [500, 500, 0] 2 + 2560 ≤ 14400 ∧
       14400 < casCorr s.casLen (64 * 30000) 500 [500, 500, 0] 2 + 2560) ∧
    (let s := chained 0 2 { casUp with attempt := true, goodRun := 64 }; let w := 2 ^ 15 + 2 ^ 14; let l := returned corrValidBit w w
     64 ≤ s.cas.goodRun ∧ (frameWord l 0).testBit 11 = true ∧ (s.casWords l).all (·.testBit 15) = true ∧ (s.casWords l).all (·.testBit 14) = true) ∧
    casGood ((returned 0 present present).set 1 1) = false := by decide +kernel

/-! ## Witnesses: delivery, events, faults -/

/-- Ring 2 enabled with a window of 4 KiB, 2^4 descriptors and objects waiting; `more` sets further fields. -/
def ringIn (more : List (Nat × Fld × Nat)) (l : List DlvObj) : State :=
  let s := withRegs ([(Reg.DLV_STATUS 2, Fl.DLV_STATUS_ENABLED, 1), (Reg.DLV_WIN_SIZE 2, Fl.DLV_WIN_SIZE_KIB, 4), (Reg.DLV_DESC_SIZE 2, Fl.DLV_DESC_SIZE_LOG2, 4)]
    ++ (List.range 8).map (fun i => (Reg.DLV_CLASS 2 i, ⟨0, 32⟩, 2 ^ 32 - 1)) ++ [(Reg.DLV_VMASK_LO 2, ⟨0, 32⟩, 2 ^ 32 - 1),
    (Reg.DLV_VMASK_HI 2, ⟨0, 32⟩, 2 ^ 32 - 1), (Reg.DLV_FILTER 2, Fl.DLV_FILTER_OBJECTS, 7)] ++ more) up
  { s with transits := [transit7], dlv := { s.dlv with queue := l } }
/-- An image of `n` bytes for ring 2. -/
def imageOf (n : Nat) : DlvObj :=
  { ring := 2, image := true, fn := 0, tid := 7, port := 0, ch := 0, firstLine := 0, lines := 1, width := n, x0 := 0, pos := some 9, ts := 3,
    lateLines := false, fillRows := false, rows := [], stripe := 0, payload := List.replicate n 5 }
def ringSet (r : Ring) (s : State) : State := s.setRing 2 r
def placed1 : Placed := ⟨0, 0, 4096, 4096, none, false, false⟩
def held1 : Placed := ⟨0, 0, 128, 128, some (imageOf 4), true, false⟩
/-- A verdict mask that leaves verdict 0 out gates the ring. -/
def gate : List (Nat × Fld × Nat) := [(Reg.DLV_VMASK_LO 2, ⟨0, 1⟩, 0)]

theorem witness_ObjectsAreDelivered :
    (let s := ringIn [] [imageOf 4]; let o := imageOf 4
     s.acts = true ∧ o.ring = 2 ∧ s.dlv.queue.find? (fun o => o.ring == 2) = some o ∧ s.parked = false ∧ s.nextRing = some 2 ∧
       s.flag Reg.PCX_HOSTLOSS Fl.PCX_HOSTLOSS_ACTIVE = false ∧ s.ringEnabled 2 = true ∧ windowBytes (64 + o.payload.length) ≤ s.windowSize 2 ∧
       s.ringGated 2 = false ∧ spaceIn s 2 128 = some 0 ∧ (s.ring 2).placed.find? (fun x => x.obj.isSome) = none ∧
       s.anyTransit? o.fn o.tid = some transit7 ∧ o.image = true ∧ o.pos = some 9 ∧ s.descBase 2 + 32 ≤ s.winBase 2 + 4096) ∧
    -- the host is lost; the ring is disabled; a window too small by one byte of payload
    (ringIn [(Reg.PCX_HOSTLOSS, Fl.PCX_HOSTLOSS_ACTIVE, 1)] [imageOf 4]).flag Reg.PCX_HOSTLOSS Fl.PCX_HOSTLOSS_ACTIVE = true ∧
    (ringIn [(Reg.DLV_STATUS 2, Fl.DLV_STATUS_ENABLED, 0)] [imageOf 4]).ringEnabled 2 = false ∧
    (let s := ringIn [] []; windowBytes (64 + 4032) ≤ s.windowSize 2 ∧ s.windowSize 2 < windowBytes (64 + 4033)) ∧
    -- no space, in either mode, and when suspended
    (let s := ringSet { ringReset with placed := [placed1] } (ringIn [(Reg.DLV_CTRL 2, Fl.DLV_CTRL_MODE, 1)] [imageOf 4])
     spaceIn s 2 128 = none ∧ s.flag (Reg.DLV_CTRL 2) Fl.DLV_CTRL_MODE = true ∧ s.flag (Reg.DLV_STATUS 2) Fl.DLV_STATUS_BP_SUSPENDED = false) ∧
    (ringIn [] []).flag (Reg.DLV_CTRL 2) Fl.DLV_CTRL_MODE = false ∧
    (ringIn [(Reg.DLV_STATUS 2, Fl.DLV_STATUS_BP_SUSPENDED, 1)] []).flag (Reg.DLV_STATUS 2) Fl.DLV_STATUS_BP_SUSPENDED = true ∧
    -- held for a decision to come, held back behind such an object, and no hold entry left
    (let s := ringIn ((Reg.DLV_HOLD 2, Fl.DLV_HOLD_MAX, 1) :: gate) [imageOf 4]
     s.ringGated 2 = true ∧ s.transit? 0 7 = some transit7 ∧ transit7.decided = false ∧ s.heldCount 2 < s.get (Reg.DLV_HOLD 2) Fl.DLV_HOLD_MAX ∧
       s.get Reg.DLV_POOL Fl.DLV_POOL_USED < 2048 ∧ spaceIn s 2 128 = some 0) ∧
    (let s := ringSet { ringReset with placed := [held1] } (ringIn ((Reg.DLV_HOLD 2, Fl.DLV_HOLD_MAX, 1) :: gate) [imageOf 4])
     (s.ring 2).placed.find? (fun x => x.obj.isSome) = some held1 ∧ held1.held = true ∧ s.get (Reg.DLV_HOLD 2) Fl.DLV_HOLD_MAX ≤ s.heldCount 2) ∧
    (let s := ringIn [] [imageOf 4]; let t : State := { s with dlv := { s.dlv with held := some (2, 7) } }
     t.dlv.held = some (2, 7) ∧ 7 + 500 * t.get (Reg.DLV_BP_LIMIT 2) Fl.DLV_BP_LIMIT_US ≤ (t.atTime 500007).clk.ts ∧
       (t.atTime 9).clk.ts < 7 + 500 * t.get (Reg.DLV_BP_LIMIT 2) Fl.DLV_BP_LIMIT_US ∧ s.dlv.held = none) := by
  decide +kernel

theorem witness_RingsAreDriven :
    (let s := (ringIn [] []).setReg (Reg.DLV_PROD 2) 3
     s.acts = true ∧ s.reaches .spi = true ∧ s.isPark = false ∧ (3 + 2 ^ 32 - s.cons 2) % 2 ^ 32 ≤ (s.prod 2 + 2 ^ 32 - s.cons 2) % 2 ^ 32 ∧
       (s.prod 2 + 2 ^ 32 - s.cons 2) % 2 ^ 32 < (4 + 2 ^ 32 - s.cons 2) % 2 ^ 32) ∧
    (let s := ringIn [(Reg.DLV_STATUS 2, Fl.DLV_STATUS_ENABLED, 0)] []
     s.refuses (s.busOwners (Reg.DLV_CTRL 2)) .rws = false ∧ s.get (Reg.DLV_CTRL 2) Fl.DLV_CTRL_ENABLE = 0 ∧
       windowValid (s.get (Reg.DLV_WIN_SIZE 2) Fl.DLV_WIN_SIZE_KIB) = true ∧ windowValid 2 = false ∧ windowValid 1048580 = false ∧
       getF (putF 0 Fl.DLV_CTRL_ENABLE 1) Fl.DLV_CTRL_ENABLE = 1) ∧
    (ringIn [(Reg.DLV_CTRL 2, Fl.DLV_CTRL_ENABLE, 1)] []).get (Reg.DLV_CTRL 2) Fl.DLV_CTRL_ENABLE = 1 ∧
    (let s := ringSet { ringReset with u := 1 } (ringIn [(Reg.DLV_IRQ 2, Fl.DLV_IRQ_TIME_US, 2)] [])
     (s.ring 2).u ≠ 0 ∧ s.get (Reg.DLV_IRQ 2) Fl.DLV_IRQ_TIME_US = 2 ∧ (s.ring 2).uSince + 1000 ≤ (s.atTime 1000).clk.ts ∧
       (s.atTime 999).clk.ts < (s.ring 2).uSince + 1000) := by decide +kernel

/-- MSI-X enabled, and vector 5 mapped from source 96. -/
def vectored : State :=
  withRegs [(Reg.EVT_MAP 96, Fl.EVT_MAP_VECTOR, 5), (Reg.EVT_MAP 96, Fl.EVT_MAP_ENABLE, 1), (Reg.EVT_VMASK 0, ⟨5, 1⟩, 0)]
    { hosted with pcie := { hosted.pcie with msixEnable := true, msixTable := [(92, 0)] } }
/-- Source 2 latched, with its reaction. -/
def latched (reaction : Nat) (s : State) : State := withRegs [(Reg.FCU_STATUS_LO, ⟨2, 1⟩, 1), (Reg.FCU_REACT 2, Fl.FCU_REACT_REACTION, reaction)] s

theorem witness_EventsFireVectors :
    (vectored.srcAsserted 96 = false ∧ (latched 0 vectored).srcAsserted 96 = true ∧ (latched 2 vectored).srcAsserted 96 = true ∧
      (latched 1 vectored).srcAsserted 96 = false ∧ (latched 0 vectored).srcVector 96 = some 5) ∧
    (vectored.reaches .spi = true ∧ vectored.isPark = false ∧ getF (putF 0 Fl.EVT_MAP_VECTOR 263) Fl.EVT_MAP_VECTOR ≤ 263 ∧
      ¬ getF (putF 0 Fl.EVT_MAP_VECTOR 264) Fl.EVT_MAP_VECTOR ≤ 263) ∧
    (vectored.vmasked 5 = false ∧ vectored.vectorSendable 5 = true ∧ (vectored.put (Reg.EVT_VMASK 0) ⟨5, 1⟩ 1).vmasked 5 = true ∧
      hosted.vectorSendable 5 = false) ∧
    (let s : State := { vectored with pcie := { vectored.pcie with functionMask := true } }; s.pcie.functionMask = true) ∧
    (vectored.pcie.functionMask = false ∧ vectored.entryMasked 5 = false ∧ hosted.entryMasked 5 = true) := by decide +kernel

theorem witness_FaultsAreCollected :
    (live.reaches .spi = true ∧ live.answersAt Reg.FCU_STATUS_HI = true ∧ live.answersAt Reg.FCU_SAFE_CMD = true ∧
      live.answersAt Reg.FCU_DEBUG = true ∧ live.answersAt Reg.FCU_INJECT = true ∧ live.isSafe = false) ∧
    (live.put Reg.FCU_DEBUG Fl.FCU_DEBUG_HALT 1).get Reg.FCU_DEBUG Fl.FCU_DEBUG_HALT = 1 ∧
    -- an assigned source in each of its reactions, latched before or not, and one that is not assigned
    (live.calm = true ∧ getF (putF (putF 0 Fl.FCU_INJECT_GO 1) Fl.FCU_INJECT_SOURCE 2) Fl.FCU_INJECT_SOURCE = 2 ∧ 2 ∈ fcuAssigned ∧ 63 ∉ fcuAssigned ∧
      (∀ k ∈ [0, 1, 2, 3], (live.put (Reg.FCU_REACT 2) Fl.FCU_REACT_REACTION k).reaction 2 = k) ∧ live.fcuStatus = 0 ∧
      live.fcuLatched 2 = false ∧ (latched 0 live).fcuLatched 2 = true) ∧
    (live.refuses (live.busOwners Reg.FCU_INJECT) .rwg = false ∧ live.upsets = [] ∧ live.get Reg.FCU_INTEGRITY Fl.FCU_INTEGRITY_OK = 1 ∧
      getF (putF 0 Fl.FCU_INJECT_INTEGRITY 1) Fl.FCU_INJECT_INTEGRITY = 1 ∧ getF (putF 0 Fl.FCU_INJECT_INTEGRITY 1) Fl.FCU_INJECT_GO = 0) ∧
    (live.clocked = true ∧ integrityFault [⟨2, 7, 3, false⟩] = none ∧ integrityFault [⟨2, 7, 1, false⟩] = some (true, 31) ∧
      integrityFault [⟨0, 23, 3, false⟩] = some (false, 23)) ∧
    (let s : State := { live with blockResets := [(3, 500)] }; s.clocked = true ∧ s.blockResets.find? (fun x => x.1 == 3) = some (3, 500)) := by
  decide +kernel

/-! ## Witnesses: self-test, line codes -/

/-- The controller in a phase. -/
def testing (phase : Nat) (b : Bist) : State := { live with bist := b }.put Reg.BIST_STATUS Fl.BIST_STATUS_PHASE phase
def queues (m l : List Nat) (r : List SliceRun) : Bist := { bistReset with memQ := m, logQ := l, running := r, cap := 600, budget := 60000 }

theorem witness_SlicesAreTested :
    (let s := testing 1 { queues [0, 1] [17, 18] [] with lastStart := some 400 }
     s.acts = true ∧ s.bistPhase = 1 ∧ s.pw.wakeHeld = false ∧ 400 / 500 < (s.atTime 500).clk.ts / 500 ∧ ¬ 400 / 500 < (s.atTime 499).clk.ts / 500 ∧
       s.bist.memQ = 0 :: [1] ∧ s.memoryRuns = false) ∧
    -- a logic slice under a cap it just meets
    (let s := testing 1 { queues [] [17, 18] [] with cap := 390 }
     s.bist.logQ = 17 :: [18] ∧ s.bist.memQ = [] ∧ s.bistCharge + testPower 17 ≤ s.bist.cap ∧ ¬ s.bistCharge + testPower 17 ≤ 389) ∧
    (let s := testing 2 (queues [0, 1] [] []); s.bistPhase = 2 ∧ s.bist.memQ = 0 :: [1] ∧ s.bist.running = []) ∧
    (∀ k ∈ [0, 17, 45], let s := testing 1 (queues [] [18] [⟨k, 0, none⟩])
      s.runOf k = some ⟨k, 0, none⟩ ∧ s.bist.logQ ≠ [] ∧ s.bistPhase = 1 ∧ fullCycles k ≤ 500 * s.bist.budget ∧ 0 < sliceSegments k ∧
        s.fenceMap.testBit k = false) ∧
    (let s := testing 1 { queues [] [18] [⟨0, 0, none⟩] with budget := 1 }; 500 * s.bist.budget < fullCycles 0 ∧ s.runOf 0 = some ⟨0, 0, none⟩) ∧
    (let s := testing 2 (queues [1] [] [⟨0, 0, none⟩]); s.runOf 0 = some ⟨0, 0, none⟩ ∧ s.bist.memQ ≠ [] ∧ s.bistPhase = 2) := by decide +kernel

def recording (j : RecordJob) : State := { live with bsp := { live.bsp with record := some j } }

theorem witness_RecordsAndRetests :
    (let s := recording (.slot 0x300000 4 true (List.replicate 216 1))
     s.acts = true ∧ s.bsp.record = some (.slot 0x300000 4 true (List.replicate 216 1)) ∧ s.bsp.op = none ∧ s.pw.wakeHeld = false ∧ 0x300000 % 256 = 0 ∧
       (List.replicate 216 1).length = 216) ∧
    (recording (.quick 0x300010 9)).bsp.record = some (.quick 0x300010 9) ∧
    (let val := putF (putF 0 Fl.BIST_RETEST_GO 1) Fl.BIST_RETEST_SLICE 17
     live.reaches .spi = true ∧ live.answersAt Reg.BIST_RETEST = true ∧ getF val Fl.BIST_RETEST_GO = 1 ∧ getF val Fl.BIST_RETEST_SLICE = 17 ∧
       live.retestRefused 17 = none ∧ live.retestRefused 48 = some 6) ∧
    (∀ k ∈ [3, 17], let s := testing 3 (queues [] [] [⟨k, 0, none⟩])
      s.acts = true ∧ s.bist.running = ⟨k, 0, none⟩ :: [] ∧ s.bistPhase = 3 ∧ k < 48 ∧ s.heldPwr = 0 ∧ 0 < sliceSegments k ∧ s.fenceMap.testBit k = false) ∧
    ((testing 3 (queues [] [] [⟨3, 0, none⟩])).put Reg.BIST_FENCE_LO ⟨3, 1⟩ 1).fenceMap.testBit 3 = true := by decide +kernel

theorem witness_LineCodesRoundTrip :
    (∀ g ∈ [0, 1, 2, 3], g < 4) ∧ (∀ x ∈ [(true, 0xE180), (false, 0xFFFF), (false, 0)], x.2 < 2 ^ 16 ∧ (x.1 = true → x.2 / 2 ^ 6 % 16 = 6)) := by decide

/-! ## The worked examples of the spec -/

/-- The state a command leads to. -/
def after (c : Instr) (s : State) : State := match exec c s with | .next t => t | _ => s

/-- Section 5 of chapter 4: a READ of SYS_ID with D = 2. -/
theorem test_spiRead_sys_id : (after (.spiRead 0 ⟨true, false⟩ []) live).spi.out = [0xC0, 0, 0, 0, 0, 0, 0, 0xC0, 0x4B, 0x10, 0x26, 0x40] := by decide +kernel

/-- Chapter 5: PFI1 at 20 Mcounts/s, then backwards: the replica follows, the high-water mark does not. -/
theorem test_position_slot :
    let s : State := { up with hz := { up.hz with replica := up.hz.replica.set 1 0x1FFFE40, hwm := up.hz.hwm.set 1 0x1FFFE40 } }
    let a := s.posUpdate 1 0x0180
    let b := a.posUpdate 5 0xFE80
    a.hz.replica[1] = 0x2000180 ∧ b.hz.replica[1] = 0x1FFFE80 ∧ b.hz.hwm[1] = 0x2000180 := by decide +kernel

/-- Table 6-1: the last tooth before the gap at 7 739, 200 µs after it, and the edge that closes the gap after 1 500 µs. -/
def toned : State :=
  let x : Pfi := { up.jens.pfi[1] with lastCount := some 0, lastEdge := some 0, tp := some 3000000, edges := 9, sinceRef := 57, refPrev := some (7682, false) }
  withField [(Reg.PFI_CFG 1, Fl.PFI_CFG_MODE, 2), (Reg.PFI_CFG 1, Fl.PFI_CFG_TEETH, 60), (Reg.PFI_CFG 1, Fl.PFI_CFG_REF_KIND, 2),
    (Reg.PFI_POS 1, ⟨0, 32⟩, 7739), (Reg.PFI_STAT 1, Fl.PFI_STAT_STANDSTILL, 0), (Reg.PFI_STAT 1, Fl.PFI_STAT_SYNC, 1)] (up.setPfi 1 x)
theorem test_tone_wheel_gap :
    let edge := after (.pfiToothEdge 1 750000) toned
    toned.pfiSpeed 1 = 0x20000 ∧ (toned.atTime 100000).pfiPosition 1 = 0x1E3B66 ∧ (toned.atTime 250000).pfiPosition 1 = 0x1E3BFF ∧
      (toned.atTime 500000).pfiSpeed 1 = 0x20000 ∧ edge.pfiCount 1 = 7742 ∧ edge.pfiSync 1 = true ∧ (edge.pfi 1).tp = some 3000000 ∧
      edge.jreg (Reg.PFI_REF_POS 1) = 7742 := by decide +kernel

/-- Chapter 6: 3.25 counts at a ratio of 60 / 127 are 393 / 256 counts, and 9 / 127 of 1/256 count stays. -/
theorem test_emulator_dda :
    let s := withField [(Reg.EMU_CFG 0, Fl.EMU_CFG_SOURCE_PFI, 0), (Reg.EMU_RATIO 0, Fl.EMU_RATIO_N, 60), (Reg.EMU_RATIO 0, Fl.EMU_RATIO_M, 127), (Reg.PFI_POS 0, ⟨0, 32⟩, 3),
      (Reg.PFI_STAT 0, Fl.PFI_STAT_STANDSTILL, 1), (Reg.PFI_STAT 0, Fl.PFI_STAT_FRAC, 64)] up
    (s.emuMoved 0).target = 393 ∧ (s.emuMoved 0).acc = 9 := by decide +kernel

/-- Section 2 of chapter 8: PING of address 5, its reply, and the CRCs of RESET_ADDR and ENABLE_EVENTS. -/
theorem test_zhombe_frames :
    zlFrame 5 0 [] = [0, 5, 0, 0, 4, 1] ∧ zlFrame 5 0 [0] = [0, 5, 0, 1, 0, 0xD, 5] ∧ zlFrame 0xFF 0xF [] = [0xF, 0xF, 0xF, 0, 0, 9] ∧
      zlFrame 0xFF 7 [1] = [0xF, 0xF, 7, 1, 1, 0xE, 0xC] ∧
      -- the reply of a node with a tick of 1.2 µs, in cycles
      zlDecode [43200, 7200, 16200, 7200, 9000, 7200, 30600, 16200] [2400] = .frame ⟨5, 0, [0]⟩ := by decide +kernel

/-- Table 9-4: the indices sent and, with three line errors, decoded. -/
theorem test_precoding : precodeRun 0 [3, 2, 0, 2, 3, 0] = [3, 3, 1, 1, 2, 2] ∧ decodeRun 0 [3, 3, 2, 0, 3, 2] = [3, 2, 1, 2, 3, 1] := by decide

/-- Table 9-9: a trial kept (M = 174), one reverted (162), and the measure-only epoch after it (168). -/
def adapting : State :=
  withRegs [(Reg.LN_EFM 0, Fl.LN_EFM_BASE, 171), (Reg.LN_EFM_LOW 0, Fl.LN_EFM_LOW_THRESHOLD, 128)]
    (({ (laneIn 0 3 1 ⟨some ⟨23, 6, -5, 1, 0, 128⟩, false, false, 0, 0⟩) with chart := chartOf [(0x03, 0, [(1, 1)]), (0x04, 0, [(1, 8)])] } : State).setTaps 0
      ⟨22, 6, -4, 1, 0, 128⟩)
theorem test_adaptation :
    let a := after (.lnEfmWindowEnd 0 174) adapting
    let b := after (.lnEpochEnd 0 ⟨0, 5210, 4095, -4095, 0, 0⟩) a
    let c := after (.lnEfmWindowEnd 0 162) b
    let d := after (.lnEfmWindowEnd 0 168) (after (.lnEpochEnd 0 ⟨0, 5210, 0, 0, 0, 0⟩) c)
    a.laneTaps 0 = ⟨23, 6, -5, 1, 0, 128⟩ ∧ a.get (Reg.LN_EFM 0) Fl.LN_EFM_BASE = 174 ∧ (b.lane 0).trial = some ⟨23, 7, -5, 1, 0, 128⟩ ∧
      c.laneTaps 0 = ⟨23, 6, -5, 1, 0, 128⟩ ∧ c.get (Reg.LN_CNT0 0) Fl.LN_CNT0_REVERTS = 1 ∧ (d.lane 0).trial = none ∧
      d.get (Reg.LN_EFM 0) Fl.LN_EFM_BASE = 168 := by decide +kernel

/-- Section 2 of chapter 10: the word 0xFFF4 after a symbol of index 2. -/
theorem test_code_group : codeGroup 2 false 0xFFF4 = [0, 2, 0, 2, 0, 2, 0, 1, 2] ∧ controlDecode 2 0 = some (false, 1) := by decide

/-- Section 4 of chapter 11: the LEP of two samples, when the first lines fall due, and the count of a document of 12 500 counts. -/
def page : State :=
  fn0 3 { up with
    chart := chartOf [(0x10, 0, [(1, 1), (3, 0), (6, 64), (7, 0xFF), (8, 0xFF)]),
      (0x03, 0, [(1, 4), (2, 0xB8), (3, 0x0B), (8, 60), (0x0A, 127), (0x0C, 0x67), (0x0D, 0x0C)])] }
def pageTransit : Transit := { transit7 with lep := some 1000000, tep := some 1012500 }
def pageAt (h : Nat) : State := { page with hz := { page.hz with hwm := page.hz.hwm.set 0 h } }
def pageCap : Capture := { capture0 with trim := 2, next := 0 }
theorem test_line_positions :
    interpolate 1000040 ⟨50000, 256000224⟩ ⟨50004, 256000232⟩ = 1000000 ∧
      (pageAt 0).spanStart pageTransit pageCap = 1003177 ∧
      (pageAt (256 * 1003179 + 30)).lineDue pageTransit pageCap 1 = true ∧ (pageAt (256 * 1003179 + 29)).lineDue pageTransit pageCap 1 = false ∧
      (pageAt (256 * 1003304)).lineDue pageTransit pageCap 60 = true ∧ (pageAt (256 * 1003304 - 1)).lineDue pageTransit pageCap 60 = false ∧
      page.lineCount pageTransit 0 = some 5906 ∧
      (pageAt (256 * 1015675 + 235)).lineDue pageTransit pageCap 5905 = true ∧ (pageAt (256 * 1015675 + 234)).lineDue pageTransit pageCap 5905 = false := by
  decide +kernel

/-- Table 12-2. -/
theorem test_requantisation :
    requant 0 0 5000 14 false 320 = 98 ∧ requant 2 64 5000 14 false 320 = 64 ∧ requant 0 0 5000 14 false 310 = 95 ∧
      requant 0 0 5000 14 true (-1000) = -128 ∧ requant 1 0 5000 14 true (-1000) = 0 ∧ requant 3 0 5000 14 true (-1000) = -38 := by decide

/-- Section 6 of chapter 12: full and last jobs of steps 0 and 1; chapter 13: step 12. -/
theorem test_job_cycles :
    eleCycles true 5 5 2 2 32 400 2 2 200 32 16 = 26033 ∧ eleCycles true 5 5 2 2 32 400 2 2 200 32 8 = 13105 ∧
      mceCycles 3 3 1 32 64 200 1 1 200 32 32 = 24226 ∧ mceCycles 3 3 1 32 64 200 1 1 200 32 8 = 6562 ∧
      eleCycles false 4 3 1 128 4 25 1 1 25 16 32 = 77713 ∧ blockRow 200 32 = 6400 ∧ rowPitch 200 64 32 = 12800 := by decide

/-- Chapter 14: windows of ring 0's images and results, and row pitches. -/
theorem test_windows : windowBytes 26688 = 26688 ∧ windowBytes 112 = 128 ∧ windowBytes (64 + 32 * (64 * ((160 + 63) / 64))) = 6208 := by decide

/-- Chapter 16: slice 45 takes 180.352 µs and slice 5 eight segments of 188.544 µs; ten MCE slices and the reserve charge 13.80 W. -/
theorem test_slice_times :
    fullCycles 45 = 90176 ∧ fullCycles 5 = 8 * 94272 ∧ queueOrder (· == 5) [0, 1, 2, 3, 4, 5, 6] = [5, 0, 1, 2, 3, 4, 6] ∧
      (testing 1 (queues [0] [] ((List.range 10).map fun k => ⟨17 + k, 0, none⟩))).bistCharge = 1380 := by decide +kernel

set_option maxRecDepth 100000 in
/-- Chapter 17: the ring latency of 164.3125 ns gives CORR_1 = 70.000 ns, and the follower takes TS + 35. -/
theorem test_correction :
    casCorr 2 (64 * 2629) 660 [654, 0, 0] 1 = 1120 ∧
      (after (.casFrameReceived (frameWith corrValidBit [(4, 1000), (40, 1120)]) 654 500)
        (withRegs [(Reg.CAS_STATUS, Fl.CAS_STATUS_POSITION, 1), (Reg.CAS_STATUS, Fl.CAS_STATUS_LENGTH, 1), (Reg.CAS_STATUS, Fl.CAS_STATUS_STATE, 2)]
          { up with cas := casUp })).clk.ts = 1035 := by decide +kernel

/-! ## Single steps -/

/-- R454: the keyed command enters the safe state; any other word is refused and logged. -/
theorem test_safe_cmd : (after (.fcuSafeCmd .spi 0x5AFE2640) live).isSafe = true ∧ (after (.fcuSafeCmd .spi 0x5AFE2641) live).isSafe = false := by decide +kernel

/-- R418: CONS does not pass PROD. -/
theorem test_cons_write :
    let s := (ringIn [] []).setReg (Reg.DLV_PROD 2) 3
    (after (.dlvConsWrite .spi 2 3) s).cons 2 = 3 ∧ (after (.dlvConsWrite .spi 2 4) s).cons 2 = 0 ∧
      (after (.dlvConsWrite .spi 2 4) s).get (Reg.DLV_EVENT 2) Fl.DLV_EVENT_CONS_ERR = 1 := by decide +kernel

/-- SHA-256 of "abc" (FIPS 180-4). -/
theorem test_sha256 : sha256 [0x61, 0x62, 0x63] / 2 ^ 224 = 0xba7816bf := by decide +kernel

end Sys2Proof.Machine.Tests
end

section
/-! PROOFS. Writes of a register that stores what it is written and does nothing else (R10). -/
namespace Sys2Proof.Machine

theorem plainOffset_aligned {off : Nat} (h : plainOffset off = true) : off % 4 = 0 := by
  simp only [plainOffset, Bool.and_eq_true, beq_iff_eq] at h
  obtain ⟨⟨⟨⟨⟨haligned, -⟩, -⟩, -⟩, -⟩, -⟩ := h
  exact haligned

namespace State
variable (s : State)

/-- What a write leaves of a register that only stores (R8, R10): the record of a refused field, and the word that the fields took. -/
def storedWrite (p : Path) (off : Nat) (d : RegD) (val : Word) : State :=
  (s.recordRefused p off (firstRefused d (s.refuses (s.busOwners off)))).setReg off
    (writeWord d (s.reg off) val (s.refuses (s.busOwners off)))

theorem storedWrite_unregistered (p : Path) (off : Nat) (d : RegD) (val : Word) :
    (s.storedWrite p off d val).unregistered = s.unregistered :=
  (setReg_unregistered _ _ _).trans (recordRefused_unregistered s p off _)

theorem storedWrite_get (p : Path) (off : Nat) (d : RegD) (val : Word) (f : Fld) :
    (s.storedWrite p off d val).get off f = getF (writeWord d (s.reg off) val (s.refuses (s.busOwners off))) f := by
  simp [storedWrite, get]

/-- A write of such a register touches it and the registers of its path's access-error log. -/
theorem storedWrite_reg_other (p : Path) (off : Nat) (d : RegD) (val : Word) (a : Nat)
    (h : a ∉ [off, aelBase p, aelBase p + 4, aelBase p + 8, aelBase p + 12, aelBase p + 16]) :
    (s.storedWrite p off d val).reg a = s.reg a := by
  have hael := recordRefused_reg s p off a (firstRefused d (s.refuses (s.busOwners off))) (List.not_mem_of_not_mem_cons h)
  exact (reg_setReg_other _ _ _ _ (List.ne_of_not_mem_cons h)).trans hael

/-- A write of an ordinary register that takes words unclamped and has no effect of its own is the storing of the word. -/
theorem write_stores {p : Path} {off : Nat} {d : RegD} (val : Word) (h : s.reaches p = true) (hp : s.answersAt off = true)
    (ho : plainOffset off = true) (hd : barReg off = some d) (he : s.effectOnly off = false)
    (hb : ∀ (x : State) (v w : Word), x.busEffect p off v w = x) (hc : ∀ w : Word, s.clampBus off (dropBus off w) = w) :
    s.write p off val = (s.storedWrite p off d val).refire off := by
  rw [s.write_any val h hp ho hd]
  simp only [recordRefused_effectOnly, he, Bool.false_eq_true, if_false, hc, hb]
  rfl

end State

end Sys2Proof.Machine

section
open Sys2Proof Sys2Proof.Machine

/-- Settles O7: the write stores the word that `writeWord` forms field by field, and the end of the command leaves it. -/
theorem writeTakesEachFieldByCode : Obligations.WriteTakesEachFieldByCode := by
  unfold Obligations.WriteTakesEachFieldByCode
  intro s p off val d hreach hcalm hanswers hplain hd hsettles hfires heffect hbus hclamp hapart hbound
  let x := s.storedWrite p off d (BitVec.ofNat 32 val.toNat)
  have hun : x.unregistered = s.unregistered := s.storedWrite_unregistered p off d _
  have hreact : x.react = [] := (State.react_of_unregistered hun).trans (State.calm_nil hcalm)
  have hexec : exec (.registerWrite p .bar0 off 4 val) s = .next (s.ended (x.refire off)) := by
    change finish s (s.onBus p fun s => s.registerWrite p .bar0 off 4 val) = _
    rw [s.registerWrite_bar0 p off val (plainOffset_aligned hplain), s.write_stores _ hreach hanswers hplain hd heffect hbus hclamp]
    rfl
  refine ⟨_, hexec, ?_, fun f hf => ?_, ?_⟩
  · exact (s.written_rest x off hreact).trans (State.rest_of_unregistered hun)
  · rw [s.written_get x off off f.fld hreact hsettles hfires, s.storedWrite_get, getF_writeWord d _ _ _ hapart hbound f hf]
    unfold fieldWritten
    cases f.acc <;> rfl
  · exact s.written_kept x off hreact _ fun a ha => s.storedWrite_reg_other p off d _ a ha

end
end

section
/-! PROOFS. Event sources and vectors (R432 to R435, R442): what asserts a source, what a write of the vector map and of a vector mask does, and
what becomes of a vector that fires. -/
namespace Sys2Proof.Machine

/-- An entry is listed for every key that reads other than an unlisted key does. -/
theorem mem_of_cellsGet_ne {α : Type} (d : Nat → α) (m : List (Nat × α)) (a : Nat) (h : cellsGet d m a ≠ d a) : ∃ c ∈ m, c.1 = a := by
  induction m with
  | nil => exact absurd rfl h
  | cons c r ih =>
    by_cases hc : c.1 = a
    · exact ⟨c, List.mem_cons_self, hc⟩
    · rw [cellsGet, if_neg hc] at h
      obtain ⟨e, he, ha⟩ := ih h
      exact ⟨e, List.mem_cons_of_mem _ he, ha⟩

/-- A field as wide as the word is the word. -/
theorem putF_whole (w v : Word) : putF w ⟨0, 32⟩ (getF v ⟨0, 32⟩) = v := by
  apply BitVec.eq_of_toNat_eq
  have hv := v.isLt
  have hw := w.isLt
  rw [putF_toNat _ _ _ (by decide)]
  simp only [getF]
  omega

/-! ## Sources (R432, R442) -/

namespace State
variable (s : State)

/-- R442: source 96 stands for the latched faults whose reaction is INT or BLOCK. -/
theorem srcAsserted_fcu : s.srcAsserted 96 = true ↔ ∃ i ∈ fcuAssigned, s.fcuLatched i = true ∧ (s.reaction i = 0 ∨ s.reaction i = 2) := by
  change s.fcuInterrupt = true ↔ _
  simp only [fcuInterrupt, List.any_eq_true, Bool.and_eq_true, Bool.or_eq_true, beq_iff_eq]

/-- A read of a register that the bus shows as stored and whose one field is the whole word. -/
theorem shown_stored (off : Nat) (d : RegD) (acc : Acc) (hacc : acc ≠ .wo) (hd : barReg off = some d)
    (hf : d.fields = [⟨⟨0, 32⟩, acc, 0, false⟩]) (hl : s.regLive off = s.reg off) : s.shown off = s.reg off := by
  simp only [shown, hd, hl, readWord, hf, List.foldl_cons, List.foldl_nil, hacc, if_false, putF_whole]

theorem shown_fcuStatusLo : s.shown Reg.FCU_STATUS_LO = s.reg Reg.FCU_STATUS_LO :=
  s.shown_stored _ ⟨0x20000, [], [⟨⟨0, 32⟩, .w1c, 0, false⟩]⟩ .w1c (by decide) rfl rfl rfl
theorem shown_fcuStatusHi : s.shown Reg.FCU_STATUS_HI = s.reg Reg.FCU_STATUS_HI :=
  s.shown_stored _ ⟨0x20004, [], [⟨⟨0, 32⟩, .w1c, 0, false⟩]⟩ .w1c (by decide) rfl rfl rfl

/-- A source is the bits of its registers; source 96 depends on the reactions besides. -/
theorem srcAsserted_congr {x y : State} (n : Nat) (h : ∀ a ∈ srcRegs n, y.reg a = x.reg a) (hr : ∀ i, y.reaction i = x.reaction i) :
    y.srcAsserted n = x.srcAsserted n := by
  unfold srcAsserted
  unfold srcRegs at h
  -- one row of Table 14-6 after the other; the registers that `h` is about follow the row
  repeat
    refine ite_congr rfl (fun c => ?_) (fun c => ?_)
    · simp only [c, if_true, true_or] at h
      simp [bit, flag, get, fcuInterrupt, fcuLatched, fcuStatus, pair, h, hr]
    simp only [c, if_false, false_or] at h
  rfl

end State

/-! ## The registers of events: EVT_MAPs and EVT_VMASKk -/

/-- The description of the EVT_MAP registers. -/
def evtMapReg : RegD := ⟨0x408000, [(0x4, 256)], [⟨Fl.EVT_MAP_VECTOR, .rw, 0, false⟩, ⟨Fl.EVT_MAP_ENABLE, .rw, 0, false⟩]⟩
/-- The description of the EVT_VMASK registers. -/
def evtVmaskReg : RegD := ⟨0x408500, [(0x4, 9)], [⟨Fl.EVT_VMASK_MASK, .rw, 0, false⟩]⟩

set_option maxRecDepth 100000 in
theorem barReg_evtMap_fin : ∀ src : Fin 256, barReg (Reg.EVT_MAP src) = some evtMapReg := by decide
set_option maxRecDepth 100000 in
theorem barReg_evtVmask : ∀ k : Fin 9, barReg (Reg.EVT_VMASK k) = some evtVmaskReg := by decide

theorem evtMap_range (n : Nat) : 0x408000 ≤ Reg.EVT_MAP n ∧ Reg.EVT_MAP n < 0x408400 := by
  unfold Reg.EVT_MAP; omega
theorem evtMap_index {n : Nat} (h : n < 256) : (Reg.EVT_MAP n - 0x408000) / 4 = n := by
  unfold Reg.EVT_MAP; omega
theorem evtVmask_range (k : Nat) : 0x408500 ≤ Reg.EVT_VMASK k ∧ Reg.EVT_VMASK k < 0x408524 := by
  unfold Reg.EVT_VMASK; omega

theorem barReg_evtMap {n : Nat} (h : n < 256) : barReg (Reg.EVT_MAP n) = some evtMapReg := barReg_evtMap_fin ⟨n, h⟩

theorem regReset_evtMap {n : Nat} (h : n < 256) : regReset (Reg.EVT_MAP n) = 0 := by
  have hr := evtMap_range n
  unfold regReset
  rw [if_neg (by omega), if_neg (by unfold Reg.SYS_RESET_CAUSE; omega), barReg_evtMap h]
  rfl

/-- No source has a bit among the registers of the rings, the vector map and the vector masks. -/
theorem sourceRegs_apart : ∀ a ∈ sourceRegs, ¬ (0x400000 ≤ a ∧ a < 0x408540) := by decide

theorem sourceRegs_events {off : Nat} (h : 0x408000 ≤ off ∧ off < 0x408540) : sourceRegs.contains off = false := by
  rw [Bool.eq_false_iff, ne_eq, List.contains_iff_mem]
  exact fun hm => sourceRegs_apart off hm (by omega)

/-- A write of the vector map or of a vector mask leaves no source asserted that fires again. -/
theorem firesNothing_events {off : Nat} (h : 0x408000 ≤ off ∧ off < 0x408540) : firesNothing off = true := by
  simp only [firesNothing, sourceRegs_events h, Bool.not_false, Bool.true_and, Bool.not_eq_true', decide_eq_false_iff_not]
  omega

set_option maxRecDepth 100000 in
theorem plainReg_evtMap : ∀ src : Fin 256, plainReg (Reg.EVT_MAP src) = true := by decide
set_option maxRecDepth 100000 in
theorem plainReg_evtVmask : ∀ k : Fin 9, plainReg (Reg.EVT_VMASK k) = true := by decide

/-! ## Vectors: pending, held or sent (R435) -/

namespace State
variable (s : State)

/-- A field's bit after a bit of it was put. -/
theorem bit_putBit (a : Nat) (f : Fld) (i j : Nat) (b : Bool) (hf : f.lsb + f.width ≤ 32) (hi : i < f.width) :
    (s.putBit a f i b).bit a f j = if j = i then b else s.bit a f j := by
  have hlt : s.get a f < 2 ^ f.width := getF_lt _ _
  unfold bit
  cases b with
  | true =>
    change ((s.put a f (s.get a f ||| 2 ^ i)).get a f).testBit j = _
    have hor : s.get a f ||| 2 ^ i < 2 ^ f.width := Nat.or_lt_two_pow hlt (Nat.pow_lt_pow_right (by decide) hi)
    rw [get_put_same _ _ _ _ hf, Nat.mod_eq_of_lt hor, Nat.testBit_or, Nat.testBit_two_pow]
    by_cases h : j = i
    · simp [h]
    · simp [h, Ne.symm h]
  | false =>
    change ((s.clearBit a f i).get a f).testBit j = _
    unfold clearBit
    split
    next hset =>
      rw [get_put_same _ _ _ _ hf, Nat.mod_eq_of_lt (Nat.lt_of_le_of_lt (Nat.sub_le _ _) hlt), testBit_sub_two_pow hset]
      by_cases h : j = i
      · simp [h]
      · simp [h, Ne.symm h]
    next hclear =>
      by_cases h : j = i
      · simpa [h] using hclear
      · simp [h]

/-- Vector `v` is pending: its bit of EVT_VPEND. -/
def vpending (v : Nat) : Bool := s.bit (Reg.EVT_VPEND (v / 32)) Fl.EVT_VPEND_PEND (v % 32)

theorem vpending_congr {x y : State} (h : y.regs = x.regs) (v : Nat) : y.vpending v = x.vpending v := by
  simp only [vpending, bit, get_congr h]

theorem vpending_vpend (v w : Nat) (b : Bool) (hv : v ≤ 263) (hw : w ≤ 263) :
    (s.vpend v b).vpending w = if w = v then b else s.vpending w := by
  unfold vpend vpending
  by_cases hr : w / 32 = v / 32
  · rw [hr, bit_putBit _ _ _ (v % 32) (w % 32) _ (by decide) (Nat.mod_lt _ (by decide))]
    have hbit : w % 32 = v % 32 ↔ w = v := by omega
    simp only [hbit]
  · rw [if_neg (by rintro rfl; exact hr rfl)]
    unfold bit
    rw [get_of_reg _ (reg_putBit_other _ _ _ _ _ _ (by unfold Reg.EVT_VPEND; omega))]

/-! What decides whether a vector can be sent, and its message, no fired vector changes. -/

section
variable {s} {t : State} (hst : Fired s t)
include hst

theorem vmasked_fired (v : Nat) : t.vmasked v = s.vmasked v := by
  have hf : fires (Reg.EVT_VMASK (v / 32)) = false := by
    simp only [fires, decide_eq_false_iff_not]
    unfold Reg.EVT_VMASK
    omega
  unfold vmasked bit
  rw [get_of_reg _ (hst.reg _ hf)]

theorem vectorSendable_fired (v : Nat) : t.vectorSendable v = s.vectorSendable v := by
  have hm : t.pcie.msixEnable = s.pcie.msixEnable := (congrArg (·.pcie.msixEnable) hst.unfired :)
  have hlink := hst.reg Reg.PCX_LINK (by decide)
  have hpower := hst.reg Reg.PWR_STATE (by decide)
  unfold vectorSendable flag
  rw [hm, get_of_reg _ hlink, get_of_reg _ hlink, isSafe_congr hpower]

theorem functionMask_fired : t.pcie.functionMask = s.pcie.functionMask := (congrArg (·.pcie.functionMask) hst.unfired :)

theorem msixWord_fired (a : Nat) : t.msixWord a = s.msixWord a :=
  (congrArg (fun x : State => x.msixWord a) hst.unfired :)

theorem entryMasked_fired (v : Nat) : t.entryMasked v = s.entryMasked v := by unfold entryMasked; rw [msixWord_fired hst]

theorem vectorMessage_fired (v : Nat) : vectorMessage t v = vectorMessage s v := by
  unfold vectorMessage; simp only [msixWord_fired hst]

end

/-! ## Firing one vector -/

theorem mem_insertRising (n : Nat) (l : List Nat) : n ∈ insertRising n l := by
  induction l with
  | nil => simp [insertRising]
  | cons m r ih =>
    unfold insertRising
    split
    · exact List.mem_cons_self
    · split
      next heq => exact heq ▸ List.mem_cons_self
      next => exact List.mem_cons_of_mem _ ih

theorem sendVector_eq (v : Nat) : s.sendVector v = { s with sent := s.sent ++ [vectorMessage s v] } := rfl

theorem offerVector_unsendable (v : Nat) (h : s.vectorSendable v = false) : s.offerVector v = s.vpend v true := by
  simp [offerVector, h]
theorem offerVector_held (v : Nat) (h : s.vectorSendable v = true) (hm : s.pcie.functionMask = true ∨ s.entryMasked v = true) :
    s.offerVector v = { s with pcie := { s.pcie with pba := insertRising v s.pcie.pba } } := by
  have hm' : (s.pcie.functionMask || s.entryMasked v) = true := by simpa using hm
  simp only [offerVector, h, hm', if_true]
theorem offerVector_sent (v : Nat) (h : s.vectorSendable v = true) (hf : s.pcie.functionMask = false) (he : s.entryMasked v = false) :
    s.offerVector v = { s with sent := s.sent ++ [vectorMessage s v] } := by
  simp only [offerVector, h, hf, he, Bool.or_self, Bool.false_eq_true, if_true, if_false, sendVector_eq]

theorem offerVector_regs (v : Nat) (h : s.vectorSendable v = true) : (s.offerVector v).regs = s.regs := by
  unfold offerVector
  rw [if_pos h]
  split <;> rfl

theorem fireVector_pends (v : Nat) (hv : v ≤ 263) (h : s.vmasked v = true ∨ s.vectorSendable v = false) : s.fireVector v = s.vpend v true := by
  unfold fireVector
  rw [if_neg (by omega)]
  split
  next => rfl
  next hm => exact s.offerVector_unsendable v (h.resolve_left hm)

theorem fireVector_offers (v : Nat) (hv : v ≤ 263) (h : s.vmasked v = false) : s.fireVector v = s.offerVector v := by
  unfold fireVector
  rw [if_neg (by omega), h, if_neg Bool.false_ne_true]

/-! ## Sending what was pending -/

/-- Vector `v` is pending and can now be offered. -/
def ready (v : Nat) : Bool := s.vpending v && !s.vmasked v && s.vectorSendable v

/-- What flushing does to one vector. -/
def flushVector (v : Nat) : State := if s.ready v then (s.vpend v false).offerVector v else s

theorem flushVectors_eq : s.flushVectors = (List.range 264).foldl flushVector s := rfl

theorem fired_offerVector (v : Nat) (h : s.vectorSendable v = true) : Fired s (s.offerVector v) := by
  unfold offerVector
  rw [if_pos h]
  split
  · exact ⟨rfl, fun _ _ => rfl⟩
  · exact ⟨rfl, fun _ _ => rfl⟩

theorem ready_sendable {v : Nat} (h : s.ready v = true) : (s.vpend v false).vectorSendable v = true := by
  simp only [ready, Bool.and_eq_true] at h
  rw [vectorSendable_fired (fired_vpend s v false), h.2]

theorem fired_flushVector (v : Nat) : Fired s (s.flushVector v) := by
  unfold flushVector
  split
  next h => exact (fired_vpend s v false).trans (fired_offerVector _ v (s.ready_sendable h))
  next => exact .refl s

/-- Flushing a vector takes its pending bit if it is ready, and no other. -/
theorem vpending_flushVector (v w : Nat) (hv : v ≤ 263) (hw : w ≤ 263) :
    (s.flushVector v).vpending w = (s.vpending w && !(decide (w = v) && s.ready v)) := by
  unfold flushVector
  split
  next h =>
    rw [vpending_congr (offerVector_regs _ v (s.ready_sendable h)), s.vpending_vpend v w false hv hw]
    by_cases e : w = v <;> simp [e, h]
  next h => simp [h]

/-- What another vector's flushing leaves ready. -/
theorem ready_flushVector_other (v w : Nat) (hv : v ≤ 263) (hw : w ≤ 263) (h : w ≠ v) : (s.flushVector v).ready w = s.ready w := by
  have hf := s.fired_flushVector v
  simp only [ready, vmasked_fired hf, vectorSendable_fired hf, s.vpending_flushVector v w hv hw, h, decide_false, Bool.false_and, Bool.not_false,
    Bool.and_true]

/-- Where no mask holds it back, a ready vector is sent. -/
theorem sent_flushVector (v : Nat) (hf : s.pcie.functionMask = false) (he : s.ready v = true → s.entryMasked v = false) :
    (s.flushVector v).sent = s.sent ++ if s.ready v then [vectorMessage s v] else [] := by
  unfold flushVector
  split
  next h =>
    have hp := fired_vpend s v false
    have hsent : (s.vpend v false).sent = s.sent := putBit_sent s _ _ _ _
    rw [offerVector_sent _ v (s.ready_sendable h) ((functionMask_fired hp).trans hf) ((entryMasked_fired hp v).trans (he h)), hsent,
      vectorMessage_fired hp]
  next => simp

/-- A vector that is not pending stays so. -/
theorem foldl_flushVector_clear (l : List Nat) (hl : ∀ v ∈ l, v ≤ 263) (w : Nat) (hw : w ≤ 263) (h : s.vpending w = false) :
    (l.foldl flushVector s).vpending w = false := by
  induction l generalizing s with
  | nil => exact h
  | cons v l ih =>
    refine ih _ (fun u hu => hl u (List.mem_cons_of_mem _ hu)) ?_
    rw [s.vpending_flushVector v w (hl v List.mem_cons_self) hw, h, Bool.false_and]

/-- Flushing a run of vectors sends the ready ones in its order, and leaves none of them pending. -/
theorem foldl_flushVector (l : List Nat) (hl : ∀ v ∈ l, v ≤ 263) (hd : l.Nodup) (hf : s.pcie.functionMask = false)
    (he : ∀ v ∈ l, s.ready v = true → s.entryMasked v = false) :
    (l.foldl flushVector s).sent = s.sent ++ (l.filter s.ready).map (vectorMessage s) ∧
      ∀ v ∈ l, s.ready v = true → (l.foldl flushVector s).vpending v = false := by
  induction l generalizing s with
  | nil => simp
  | cons v l ih =>
    obtain ⟨hv, hl⟩ := List.forall_mem_cons.1 hl
    obtain ⟨hnot, hd⟩ := List.nodup_cons.1 hd
    obtain ⟨hev, he⟩ := List.forall_mem_cons.1 he
    have hfire := s.fired_flushVector v
    have hready : ∀ w ∈ l, (s.flushVector v).ready w = s.ready w := fun w hw =>
      s.ready_flushVector_other v w hv (hl w hw) (fun e => hnot (e ▸ hw))
    obtain ⟨hsent, hclear⟩ := ih (s.flushVector v) hl hd ((functionMask_fired hfire).trans hf) fun w hw hr => by
      rw [entryMasked_fired hfire]; exact he w hw (hready w hw ▸ hr)
    have hmsg : vectorMessage (s.flushVector v) = vectorMessage s := funext (vectorMessage_fired hfire)
    refine ⟨?_, List.forall_mem_cons.2 ⟨fun hr => ?_, fun w hw hr => hclear w hw ((hready w hw).trans hr)⟩⟩
    · rw [List.foldl_cons, hsent, s.sent_flushVector v hf hev, hmsg, List.filter_congr hready, List.filter_cons]
      cases s.ready v <;> simp
    · refine foldl_flushVector_clear _ l hl v hv ?_
      simp [s.vpending_flushVector v v hv hv, hr]

/-! ## The vectors that fire at a command's end -/

theorem mem_firstOnly (v : Nat) (l : List Nat) : v ∈ firstOnly l ↔ v ∈ l := by
  induction l with
  | nil => simp [firstOnly]
  | cons u l ih =>
    simp only [firstOnly, List.mem_cons, List.mem_filter, ih, bne_iff_ne, ne_eq]
    by_cases h : v = u <;> simp [h]

theorem nodup_firstOnly (l : List Nat) : (firstOnly l).Nodup := by
  induction l with
  | nil => exact List.nodup_nil
  | cons u l ih => exact List.nodup_cons.2 ⟨by simp, ih.filter _⟩

/-- A source with a vector has a written map entry. -/
theorem mem_mappedSources {n v : Nat} (hn : n < 256) (h : s.srcVector n = some v) : n ∈ s.mappedSources := by
  have hne : s.reg (Reg.EVT_MAP n) ≠ regReset (Reg.EVT_MAP n) := by
    intro he
    have hoff : s.get (Reg.EVT_MAP n) Fl.EVT_MAP_ENABLE = 0 := by
      rw [get, he, regReset_evtMap hn]; exact getF_zero _
    simp [srcVector, flag, hoff] at h
  obtain ⟨c, hc, ha⟩ := mem_of_cellsGet_ne _ _ _ hne
  have hr := evtMap_range n
  refine List.mem_filterMap.2 ⟨c, hc, ?_⟩
  rw [ha, if_pos hr, evtMap_index hn]

theorem mem_risen {e : State} {n v : Nat} (hn : n < 256) (h0 : s.srcAsserted n = false) (h1 : e.srcAsserted n = true)
    (hv : e.srcVector n = some v) : v ∈ risen s e := by
  refine List.mem_append_left _ (List.mem_append_right _ (List.mem_filterMap.2 ⟨n, e.mem_mappedSources hn hv, ?_⟩))
  simp [h0, h1, hv]

/-! ## Writing the vector map (R433, R434) -/

theorem clampBus_evtMap {off : Nat} (w : Word) (h : 0x408000 ≤ off ∧ off < 0x408400) : s.clampBus off w = storedVector w := by
  unfold clampBus Reg.FCU_THERM Reg.WDT_TIMEOUT Reg.ACQ_TID_NEXT
  iterate 8 rw [if_neg (by omega)]
  exact if_pos h

theorem dropBus_events {off : Nat} (w : Word) (h : 0x408000 ≤ off ∧ off < 0x408540) : dropBus off w = w := by
  unfold dropBus Reg.HZ_CTRL Reg.FCU_INJECT Reg.CAS_CTRL
  iterate 3 rw [if_neg (by omega)]

theorem storedVector_vector (w : Word) :
    getF (storedVector w) Fl.EVT_MAP_VECTOR = if getF w Fl.EVT_MAP_VECTOR ≤ 263 then getF w Fl.EVT_MAP_VECTOR else 0 := by
  unfold storedVector
  split
  next h => rw [getF_putF _ _ _ (by decide), if_neg (by omega), Nat.zero_mod]
  next h => rw [if_pos (by omega)]

theorem storedVector_enable (w : Word) : getF (storedVector w) Fl.EVT_MAP_ENABLE = getF w Fl.EVT_MAP_ENABLE := by
  unfold storedVector
  split
  · exact getF_putF_other _ _ _ _ (by decide) (by decide)
  · rfl

theorem effectOnly_events {off : Nat} (h : 0x408000 ≤ off ∧ off < 0x408540) : s.effectOnly off = false := by
  have hring : decide (0x400000 ≤ off ∧ off < 0x408000) = false := decide_eq_false (by omega)
  have hclear : decide (0x580 ≤ off ∧ off < 0x5A4) = false := decide_eq_false (by omega)
  simp only [effectOnly, hring, hclear, Bool.false_and, Bool.false_or, Bool.or_false, Bool.or_eq_false_iff, Bool.and_eq_false_iff,
    beq_eq_false_iff_ne]
  unfold Reg.WDT_CTRL Reg.CHT_DATA Reg.ACQ_TID_NEXT
  omega

/-- A write among the registers of events: the word is stored, and its effect follows. -/
theorem write_events {p : Path} {off : Nat} (val : Word) (h : s.reaches p = true) (hp : s.isPark = false)
    (hr : 0x408000 ≤ off ∧ off < 0x408540) (ho : plainReg off = true) :
    s.write p off val = (s.setReg off (s.stored off val)).busEffect p off val (s.reg off) := by
  rw [s.write_reg val h (by simp [answersAt, hp]) ho, refire_nothing _ (firesNothing_events hr), s.effectOnly_events hr, if_neg Bool.false_ne_true]

/-- What EVT_MAPs holds once it is written. -/
def mapWritten (n : Nat) (val : Word) : State := s.setReg (Reg.EVT_MAP n) (s.stored (Reg.EVT_MAP n) val)

theorem stored_evtMap {n : Nat} (hn : n < 256) (val : Word) :
    s.stored (Reg.EVT_MAP n) val = storedVector (writeWord evtMapReg (s.reg (Reg.EVT_MAP n)) val fun _ => false) := by
  have hr := evtMap_range n
  simp only [stored, barReg_evtMap hn, Option.map_some, Option.getD_some, storedWord]
  rw [dropBus_events _ (by omega), s.clampBus_evtMap _ hr]

theorem mapWritten_vector {n : Nat} (hn : n < 256) (val : Word) : (s.mapWritten n val).get (Reg.EVT_MAP n) Fl.EVT_MAP_VECTOR =
    if getF val Fl.EVT_MAP_VECTOR ≤ 263 then getF val Fl.EVT_MAP_VECTOR else 0 := by
  have hf := getF_writeWord evtMapReg (s.reg (Reg.EVT_MAP n)) val (fun _ => false) (by decide) (by decide)
    ⟨Fl.EVT_MAP_VECTOR, .rw, 0, false⟩ (by decide)
  rw [mapWritten, get, reg_setReg_same, s.stored_evtMap hn, storedVector_vector, hf]
  rfl

theorem mapWritten_enable {n : Nat} (hn : n < 256) (val : Word) :
    (s.mapWritten n val).get (Reg.EVT_MAP n) Fl.EVT_MAP_ENABLE = getF val Fl.EVT_MAP_ENABLE := by
  have hf := getF_writeWord evtMapReg (s.reg (Reg.EVT_MAP n)) val (fun _ => false) (by decide) (by decide)
    ⟨Fl.EVT_MAP_ENABLE, .rw, 0, false⟩ (by decide)
  rw [mapWritten, get, reg_setReg_same, s.stored_evtMap hn, storedVector_enable, hf]
  rfl

/-- A write of the vector map changes no source. -/
theorem mapWritten_srcAsserted (n : Nat) (val : Word) (k : Nat) : (s.mapWritten n val).srcAsserted k = s.srcAsserted k := by
  have hr := evtMap_range n
  refine srcAsserted_congr k (fun a ha => reg_setReg_other _ _ _ _ ?_) fun i => get_of_reg _ (reg_setReg_other _ _ _ _ ?_)
  · rintro rfl
    have hc := srcRegs_known k _ (sourceRegs_events (off := Reg.EVT_MAP n) (by omega))
    rw [List.contains_iff_mem.2 ha] at hc
    cases hc
  · unfold Reg.FCU_REACT Reg.EVT_MAP
    omega

/-- R433: an entry that is enabled while its source is asserted fires the vector it names. -/
theorem mapEnabled_eq (n : Nat) (was : Word) : s.mapEnabled n was =
    if getF was Fl.EVT_MAP_ENABLE = 0 ∧ s.get (Reg.EVT_MAP n) Fl.EVT_MAP_ENABLE = 1 ∧ s.srcAsserted n = true ∧
        s.get (Reg.EVT_MAP n) Fl.EVT_MAP_VECTOR ≠ 0
    then s.fireVector (s.get (Reg.EVT_MAP n) Fl.EVT_MAP_VECTOR) else s := by
  have hlt : s.get (Reg.EVT_MAP n) Fl.EVT_MAP_ENABLE < 2 := getF_lt _ _
  unfold mapEnabled srcVector flag
  by_cases hen : s.get (Reg.EVT_MAP n) Fl.EVT_MAP_ENABLE = 1
  · by_cases hv : s.get (Reg.EVT_MAP n) Fl.EVT_MAP_VECTOR = 0
    · simp [hv]
    · simp [hen, hv]
  · have hz : s.get (Reg.EVT_MAP n) Fl.EVT_MAP_ENABLE = 0 := by omega
    simp [hz]

/-! ## Writing a vector mask (R435) -/

theorem clampBus_evtVmask (k : Fin 9) (w : Word) :
    s.clampBus (Reg.EVT_VMASK k) w = if k.val = 0 then w &&& 0xFFFFFFFE else if k.val = 8 then w &&& 0xFF else w := by
  have hk := k.isLt
  have hother : k.val ≠ 0 → k.val ≠ 8 → unclamped (Reg.EVT_VMASK k) = true := by
    revert k; decide
  by_cases h0 : k.val = 0
  · obtain rfl : k = 0 := Fin.ext h0
    rfl
  · by_cases h8 : k.val = 8
    · obtain rfl : k = 8 := Fin.ext h8
      rfl
    · have hr := evtVmask_range k
      have hid := s.clampBus_id w (hother h0 h8)
      rw [dropBus_events _ (by omega)] at hid
      rw [hid, if_neg h0, if_neg h8]

theorem stored_evtVmask (k : Fin 9) (val : Word) :
    s.stored (Reg.EVT_VMASK k) val = if k.val = 0 then val &&& 0xFFFFFFFE else if k.val = 8 then val &&& 0xFF else val := by
  have hr := evtVmask_range k
  have hw : writeWord evtVmaskReg (s.reg (Reg.EVT_VMASK k)) val (fun _ => false) = val := putF_whole _ _
  simp only [stored, barReg_evtVmask, Option.map_some, Option.getD_some, storedWord, hw]
  rw [dropBus_events _ (by omega), clampBus_evtVmask]

end State
end Sys2Proof.Machine

section
open Sys2Proof Sys2Proof.Machine

/-- Settles O56: source 96 and FCU_STATUS by what the collector shows; the vectors by what firing, offering and flushing one of them does. -/
theorem eventsFireVectors : Obligations.EventsFireVectors := by
  unfold Obligations.EventsFireVectors
  intro s
  refine ⟨s.srcAsserted_fcu, ?_, fun e n v hn h0 h1 hv => s.mem_risen hn h0 h1 hv, fun e => ?_, fun p src val hreach hpark => ?_,
    fun p k val hreach hpark => ?_, fun v hv => ⟨fun h => ?_, fun hm hsend => ⟨fun h => ?_, fun hf he => ?_⟩⟩, fun hf he => ?_⟩
  · rw [s.shown_fcuStatusLo, s.shown_fcuStatusHi]
    rfl
  · exact ⟨State.firstOnly (State.risen s e.settle), rfl, fun v => State.mem_firstOnly v _, State.nodup_firstOnly _⟩
  · have hr := evtMap_range src
    refine ⟨s.mapWritten src val, s.setReg_unregistered _ _, fun a ha => State.reg_setReg_other _ _ _ _ (List.ne_of_not_mem_cons ha),
      s.mapWritten_vector src.isLt val, s.mapWritten_enable src.isLt val, ?_⟩
    change finish s (s.write p (Reg.EVT_MAP src) val) = _
    rw [s.write_events val hreach hpark (by omega) (plainReg_evtMap src), State.busEffect_map _ _ _ _ hr.1 hr.2, evtMap_index src.isLt]
    change finish s ((s.mapWritten src val).mapEnabled src _) = _
    rw [State.mapEnabled_eq, s.mapWritten_vector src.isLt, s.mapWritten_enable src.isLt, s.mapWritten_srcAsserted]
    rfl
  · have hr := evtVmask_range k
    refine ⟨s.setReg (Reg.EVT_VMASK k) (s.stored (Reg.EVT_VMASK k) val), s.setReg_unregistered _ _,
      fun a ha => State.reg_setReg_other _ _ _ _ (List.ne_of_not_mem_cons ha), ?_, ?_⟩
    · rw [State.reg_setReg_same, s.stored_evtVmask]
    · change finish s (s.write p (Reg.EVT_VMASK k) val) = _
      rw [s.write_events val hreach hpark (by omega) (plainReg_evtVmask k), State.busEffect_vmask _ _ _ _ hr.1 hr.2]
      rfl
  · have hpend := s.vpending_vpend v v true hv hv
    rw [if_pos rfl] at hpend
    rw [s.fireVector_pends v hv h]
    exact ⟨hpend, State.putBit_sent s _ _ _ _, State.putBit_pcie s _ _ _ _⟩
  · rw [s.fireVector_offers v hv hm, s.offerVector_held v hsend h]
    exact ⟨State.mem_insertRising v _, rfl, rfl⟩
  · rw [s.fireVector_offers v hv hm, s.offerVector_sent v hsend hf he]
  · have hle : ∀ v ∈ List.range 264, v ≤ 263 := fun v hv => by have := List.mem_range.1 hv; omega
    obtain ⟨hsent, hclear⟩ := s.foldl_flushVector _ hle List.nodup_range hf fun v hv hr => he v (List.mem_filter.2 ⟨hv, hr⟩)
    rw [s.flushVectors_eq]
    exact ⟨hsent, fun v hv => hclear v (List.mem_filter.1 hv).1 (List.mem_filter.1 hv).2⟩

end
end
